-- ==== Sys2Proof/Word.lean ====
section
/-! DEFINITION. The word types of the model: the widths the spec numbers (R7, R10) and the sparse table every
collection of units is held in. -/
namespace Sys2Proof

/-- One byte. -/
abbrev Byte := BitVec 8
/-- A byte string, lowest address first. -/
abbrev Bytes := List Byte
/-- A 16-bit word (status codes, source numbers). -/
abbrev W16 := BitVec 16
/-- A 32-bit register word. -/
abbrev W32 := BitVec 32
/-- A 64-bit word (addresses, the time base, the general registers of a micro-sequencer). -/
abbrev W64 := BitVec 64

/-- A sparse table: what is not listed is at the table's default (named where the table is read). -/
abbrev Tab (α : Type) := List (Nat × α)

/-- Global wale index 16q + w (R12). -/
abbrev WaleId := Fin 64
/-- Quadrant number (R12). -/
abbrev QuadId := Fin 4
/-- Slice number, 0 to 1,023 (chapter 09). -/
abbrev SliceId := Fin 1024
/-- Ring number of a slice (R170). -/
abbrev RingId := Fin 8
/-- Global DMA channel number 8q + c (chapter 08). -/
abbrev ChanId := Fin 32
/-- Noise source number 2q + n (Table 11.12). -/
abbrev SourceId := Fin 8
/-- Withy port (R323). -/
abbrev PortId := Fin 4
/-- Tamper source T0 to T15 (Table 12.1). -/
abbrev TamperId := Fin 16
/-- A register, flag or object number of a micro-sequencer (R108). -/
abbrev Reg := Fin 16

end Sys2Proof
end

