-- ==== Sys2Proof/Syntax.lean ====
section
/-! DEFINITION. The commands the block takes: one constructor for each row of spec/opcode_table.json, in the table's order,
with the operands the rule of the row gives it. A row that reports an event (a read that returned, a sensor, a timer) carries
what the event brings from outside the block. -/
namespace Sys2Proof

/-- How an access outside the block ended (Table 8.6); `late` is the answer to a request that has failed (R199). -/
inductive ReadResult where
  | data (bytes : Bytes)
  | unsupported | completerAbort | poisoned | uncorrectable
  | late
deriving DecidableEq, Repr

/-- The buffers of a job (Table 8.7). -/
inductive Buf where | input | output | param | ddrRead | gather
deriving DecidableEq, Repr

/-- A request frame of a mailbox (R186, Tables 7.13 and 7.14): `box` is none for the admin mailbox and the slice number for a
slice mailbox; `payload` is the payload in the window, or the bytes read at the request address when the DMA flag is set;
`reserved` is the inclusive or of what the frame's reserved fields hold (zero in a legal frame); `reqAddr` is where a DMA payload lies;
`readFault` is the cause when its host read failed. -/
structure Req where
  box : Option SliceId
  version : Byte
  dma : Bool
  reserved : W32
  seq : W16
  payload : Bytes
  declared : Nat
  reqAddr : W64
  respAddr : W64
  respCap : Nat
  readFault : Option Byte
deriving DecidableEq, Repr

/-- Whether the fields of the issued nanoword end with this operation under NEXT 0 (`inc`), or more of the same microword is to
come: another field, or the RPT or RET that its NEXT field names (`stay`) (R106, R107, R112). -/
inductive Nx where | stay | inc
deriving DecidableEq, Repr

/-- The LAT field of a nanoword after substitution (Table 5.5). -/
structure LatF where
  q : BitVec 2
  n : BitVec 2
  a : Reg
  b : Reg
  d : Reg
  ia : Reg
  ib : Reg
  id : Reg
  flag : Reg
deriving DecidableEq, Repr

/-- The HASH field of a nanoword after substitution (Table 5.5). -/
structure HashF where
  mask : BitVec 4
  inp : Reg
  out : Reg
  len : Reg
deriving DecidableEq, Repr

/-- The BN field of a nanoword after substitution (Table 5.5). -/
structure BnF where
  a : Reg
  b : Reg
  m : Reg
  d : Reg
  par : Reg
  flag : Reg
deriving DecidableEq, Repr

/-- What the host sets in the PCIe configuration space (Table 7.1). -/
inductive CfgReg where
  | maxPayload | maxReadRequest | relaxedOrdering | ats | pasid | msix
  | aerStatus | aerMask | aspm | ltr | pri | atomics
deriving DecidableEq, Repr

/-- A register address: the configuration space, BAR0 of the manager, or BAR2, whose bits above 12 name the slice page (R163, R167, R170). -/
inductive RegAddr where
  | cfg (r : CfgReg)
  | bar0 (off : BitVec 16)
  | bar2 (off : BitVec 23)
deriving DecidableEq, Repr

/-- A host read that found no answer (R199): of a DMA channel, of a job's gather list, of a submission ring. -/
inductive HostRead where
  | chan (c : ChanId)
  | list (j : Nat)
  | ring (s : SliceId) (n : RingId)
deriving DecidableEq, Repr

/-- What an ATS translation was asked for (R197, R164). -/
inductive AtsTarget where
  | chan (c : ChanId)
  | list (j : Nat)
  | sq (s : SliceId) (n : RingId)
  | cq (s : SliceId) (n : RingId)
deriving DecidableEq, Repr

/-- A wale unit, quadrant unit or device unit by its source number (R308). -/
abbrev Source := W16

/-- A fault note as a unit sends it (Table 13.11). `job` is the unit's own reference to the job it serves (R309), `ago` the nanoseconds its
sub-collector has taken to deliver it, at most 500 (R312). -/
structure NoteIn where
  source : Source
  kind : Byte
  cls : Fin 5
  detail : W32
  addr : BitVec 48
  job : Option Nat
  ago : Nat := 0
deriving DecidableEq, Repr

/-- A sync exchange of a link (R330): the far end's stamp and the round trip measured, in ns. -/
structure SyncStamp where
  stamp : W64
  roundTrip : Nat := 0
deriving DecidableEq, Repr

/-- How a link stage ended (Table 14.2): the lanes that trained; at JOIN the member numbers of the far end and of this device, the digest
of the joining device, its depth, and the plan that a standby master receives (R327). -/
inductive StageEnd where
  | ok (lanes : Fin 4) (peer self : BitVec 12) (digest : Bytes) (depth : Nat) (plan : Option Bytes)
  | failed (reason : BitVec 4)
deriving DecidableEq, Repr

/-- The result a neighbour returns for a forwarded job (R344); none stands for its refusal. -/
structure FwdResult where
  status : W16
  detail : W32
  out : Bytes
deriving DecidableEq, Repr

/-- A change that reaches the master of a replicated slice (R338). -/
structure ReplChange where
  slice : SliceId
  member : BitVec 12
  behind : Nat
deriving DecidableEq, Repr

/-- The transports of the SPDM responder (R165). -/
inductive SpdmVia where | doe | mctp
deriving DecidableEq, Repr

/-- The SPDM, IDE_KM and TDISP requests (R165, R166, R225): what they carry that the block's state depends on. A negotiation says which of the
responder's algorithms the requester offers (signature, hash, key agreement, AEAD), a FINISH whether its MAC verifies. -/
inductive SpdmMsg where
  | getVersion | getCapabilities (version : Byte) | negotiate (asym hash dhe aead : Bool)
  | getCertificate (slot : Byte) | challenge (slot : Byte) (nonce : Bytes)
  | keyExchange (share : Bytes) | finish (macOk : Bool) | endSession
  | ideKeyProgram (stream : Fin 4) | ideKeyStop (stream : Fin 4)
  | tdiLock (s : SliceId) (stream : Fin 4) | tdiStart (s : SliceId) | tdiStop (s : SliceId) | tdiReport (s : SliceId)
deriving DecidableEq, Repr

/-- A request of the responder: its transport, whether it comes within a session, and what it asks. -/
structure SpdmRequest where
  via : SpdmVia
  secured : Bool
  msg : SpdmMsg
deriving DecidableEq, Repr

/-- A request for measurements: the block asked for, and whether the answer is to be signed (R261). -/
structure MeasRequest where
  via : SpdmVia
  secured : Bool
  signed : Bool
  block : Byte
deriving DecidableEq, Repr

/-- What the comparators found of one part of a cooperative job, part 0 of any other (R48). -/
structure PartVerdict where
  part : Nat
  agree : Bool
deriving DecidableEq, Repr

/-- The readings of one PMBus poll: READ_VOUT in mV, READ_IOUT in 0.1 A, and whether STATUS_WORD shows a fault (R357). A command carries none
where an acknowledgement was missing or the PEC was wrong in every try (R358). -/
structure PmReading where
  vout : Nat
  iout : Nat
  fault : Bool
deriving DecidableEq, Repr

/-- The die's temperature sensors, in units of 0.1 °C: the wales, the quadrant networks, the Rim and the key store (chapter 15,
Temperature). -/
structure Tjs where
  wales : Vector Int 64 := Vector.replicate 64 0
  nets : Vector Int 4 := Vector.replicate 4 0
  rim : Int := 0
  kst : Int := 0
deriving DecidableEq, Repr

/-- What the far end of a Lid line shows (R291): the bit driven on it, a level it is cut to or held at, or its partner's bit. -/
inductive LidLine where
  | follows
  | held (level : Bool)
  | bridged
deriving DecidableEq, Repr

/-- A pair of Lid lines that does not show what is driven on it. -/
structure LidPair where
  pair : Fin 96
  line : LidLine
  partner : LidLine
deriving DecidableEq, Repr

/-- What a loop shows while it is driven in one direction (R294): the current, whether it lies in the window the end-of-line element sets, the
resistance in ohms, whether a pin reads low while driven high, or high while driven low, and the other loop whose drive sequence appears. -/
structure LoopDrive where
  nA : Nat := 0
  inWindow : Bool := false
  ohms : Nat := 100000
  low : Bool := false
  high : Bool := false
  foreign : Option (Fin 4) := none
deriving DecidableEq, Repr

/-- What a switch input shows (R296): a resistance in ohms, or a pin held at a rail. -/
inductive SwitchSeen where
  | ohms (n : Nat)
  | rail
deriving DecidableEq, Repr

/-- What a sensor of Table 12.3 reads: a supply in mV and for how many nanoseconds it stayed outside (0: its excursion begins), the clocks in kHz
with the shortest PLL period in per cent of nominal, a temperature in units of 0.1 °C, the largest photodiode current in nA, or the canary cells
that hold another value than their own. -/
inductive Reading where
  | supply (mV : Int) (ns : Nat)
  | clocks (ref : Nat) (period : Nat) (rc : Nat)
  | temperature (tj : Int)
  | light (nA : Nat)
  | canaries (upset : List (Fin 1024))
deriving DecidableEq, Repr

/-- One requester at one target in an arbitration round (R155): its number, the length of the locked sequence it asks for if it asks for one,
and whether the request was withdrawn during the cycle (R156). -/
structure ArbReq where
  req : Fin 26
  lock : Option (Fin 65)
  withdrawn : Bool
deriving DecidableEq, Repr

/-- What the boot flash and the supplies show at a start (R371 to R376): whether the configuration block is good, its PMBus address and its
DDR5 capacities in GiB, which MACs hold, the check each slot fails (0 none), whether the root key is whole (R21), whether VDDQ_DDR was held
and VBAT is in range, whether pending OTP steps verify (R303), and whether Tj lies below 0 °C (R368). -/
structure BootFacts where
  cfgOk : Bool
  pmbus : BitVec 7
  ddr0 : Nat
  ddr1 : Nat
  ctlMacOk : Bool
  faultMacOk : Bool
  ageMacOk : Bool
  slotAFail : BitVec 8
  slotBFail : BitVec 8
  rootValid : Bool
  ddrHeld : Bool
  vbat : Bool
  otpOk : Bool
  tjBelowZero : Bool
deriving DecidableEq, Repr

/-- The shadowed registers of Table 12.11. -/
inductive Shadowed where | lifecycle | tamperPolicy | kstPolicy | fenceMap | walCsb (w : WaleId)
deriving DecidableEq, Repr

/-- The commands: one constructor for each row of the table. -/
inductive Instr where
  -- rings (chapter 07)
  | sqTailDoorbell (s : SliceId) (n : RingId) (v : W32)
  | cqHeadDoorbell (s : SliceId) (n : RingId) (v : W32)
  | sqEnable (s : SliceId) (n : RingId) (cfg : W32)
  | sqDisable (s : SliceId) (n : RingId)
  | cqEnable (s : SliceId) (n : RingId) (cfg : W32)
  | cqDisable (s : SliceId) (n : RingId)
  | dblErrClear (s : SliceId)
  | descriptorFetch (s : SliceId) (n : RingId) (r : Option (List Bytes))
  | ownRetry (s : SliceId) (n : RingId) (r : Option (List Bytes))
  | gatherEntryRead (j : Nat) (b : Buf) (r : ReadResult)
  -- dispatch (chapter 06)
  | grant (w : Option WaleId)
  | promotion (j : Nat)
  | reservation (j : Nat)
  | preemption (j : Nat)
  | microTrap (w : WaleId)
  | spillEnd (w : WaleId)
  | wipeEnd (w : WaleId) (readsZero : Bool)
  | waleWakeEnd (w : WaleId)
  | gateDelay (w : WaleId)
  | coldDelay (w : WaleId)
  | pllStop (q : QuadId)
  | pllLock (q : QuadId)
  | pllLockLoss (q : QuadId)
  | compareEnd (j : Nat) (v : PartVerdict)
  | cycleLimit (w : WaleId)
  | levellerOutOfBand (w : WaleId)
  | lockRequest (q : QuadId) (r : Fin 26) (t : Fin 52) (beats : Nat)
  | lockTimeout (q : QuadId) (t : Fin 52)
  | csScrub (w : WaleId) (nano : Bool) (addr : BitVec 14) (upset : Option (Fin 196))
  | csReloadEnd (w : WaleId) (ok : Bool)
  -- SEQ microwords (Table 5.4) and CTRL and PORT fields (Table 5.6)
  | snop (w : WaleId)
  | jmp (w : WaleId) (t : BitVec 14)
  | call (w : WaleId) (t : BitVec 14)
  | ret (w : WaleId)
  | rpt (w : WaleId)
  | bt (w : WaleId) (f : Reg) (t : BitVec 14)
  | bf (w : WaleId) (f : Reg) (t : BitVec 14)
  | ldli (w : WaleId) (l : Fin 4) (imm : BitVec 14)
  | ldlg (w : WaleId) (l : Fin 4) (g : Reg)
  | djnz (w : WaleId) (l : Fin 4) (t : BitVec 14)
  | jmpx (w : WaleId) (g : Reg) (t : BitVec 14)
  | waitWork (w : WaleId)
  | release (w : WaleId) (g : Reg)
  | drain (w : WaleId)
  | dbt (w : WaleId) (f : Reg) (t : BitVec 14) (agree : Bool)
  | dslot (w : WaleId) (o : Reg)
  | kstore (w : WaleId) (o : Reg) (nx : Nx)
  | draw (w : WaleId) (o : Reg) (off : Reg) (len : Reg) (nx : Nx)
  | emit (w : WaleId) (o : Reg) (off : Reg) (len : Reg) (nx : Nx)
  -- SALU (Table 5.8)
  | mov (w : WaleId) (d : Reg) (a : Reg) (nx : Nx)
  | movi (w : WaleId) (d : Reg) (imm : BitVec 10) (nx : Nx)
  | movs (w : WaleId) (d : Reg) (imm : BitVec 10) (nx : Nx)
  | add (w : WaleId) (d : Reg) (a : Reg) (b : Reg) (nx : Nx)
  | sub (w : WaleId) (d : Reg) (a : Reg) (b : Reg) (nx : Nx)
  | and (w : WaleId) (d : Reg) (a : Reg) (b : Reg) (nx : Nx)
  | or (w : WaleId) (d : Reg) (a : Reg) (b : Reg) (nx : Nx)
  | xor (w : WaleId) (d : Reg) (a : Reg) (b : Reg) (nx : Nx)
  | shl (w : WaleId) (d : Reg) (a : Reg) (b : Reg) (nx : Nx)
  | shr (w : WaleId) (d : Reg) (a : Reg) (b : Reg) (nx : Nx)
  | addi (w : WaleId) (d : Reg) (a : Reg) (imm : BitVec 10) (nx : Nx)
  | cmpeq (w : WaleId) (f : Reg) (a : Reg) (b : Reg) (nx : Nx)
  | cmplt (w : WaleId) (f : Reg) (a : Reg) (b : Reg) (nx : Nx)
  | sel (w : WaleId) (d : Reg) (f : Reg) (a : Reg) (b : Reg) (nx : Nx)
  | ldw (w : WaleId) (d : Reg) (o : Reg) (b : Reg) (nx : Nx)
  | stw (w : WaleId) (a : Reg) (o : Reg) (b : Reg) (nx : Nx)
  | objlen (w : WaleId) (d : Reg) (o : Reg) (nx : Nx)
  -- LAT
  | ntt (w : WaleId) (l : LatF) (nx : Nx)
  | intt (w : WaleId) (l : LatF) (nx : Nx)
  | latAdd (w : WaleId) (l : LatF) (nx : Nx)
  | latSub (w : WaleId) (l : LatF) (nx : Nx)
  | mulp (w : WaleId) (l : LatF) (nx : Nx)
  | mulm (w : WaleId) (l : LatF) (nx : Nx)
  | basemul (w : WaleId) (l : LatF) (nx : Nx)
  | a2b (w : WaleId) (l : LatF) (nx : Nx)
  | b2a (w : WaleId) (l : LatF) (nx : Nx)
  | compress (w : WaleId) (l : LatF) (nx : Nx)
  | decompress (w : WaleId) (l : LatF) (nx : Nx)
  | cbd (w : WaleId) (l : LatF) (nx : Nx)
  | encode (w : WaleId) (l : LatF) (nx : Nx)
  | decode (w : WaleId) (l : LatF) (nx : Nx)
  | normchk (w : WaleId) (l : LatF) (nx : Nx)
  | remask (w : WaleId) (l : LatF) (nx : Nx)
  | uniform (w : WaleId) (l : LatF) (nx : Nx)
  -- HASH
  | init (w : WaleId) (h : HashF) (mode : Fin 8) (nx : Nx)
  | absorb (w : WaleId) (h : HashF) (nx : Nx)
  | final (w : WaleId) (h : HashF) (nx : Nx)
  | squeeze (w : WaleId) (h : HashF) (nx : Nx)
  -- BN
  | bnModAdd (w : WaleId) (b : BnF) (nx : Nx)
  | bnModSub (w : WaleId) (b : BnF) (nx : Nx)
  | bnModMul (w : WaleId) (b : BnF) (nx : Nx)
  | bnModRed (w : WaleId) (b : BnF) (nx : Nx)
  | bnModInv (w : WaleId) (b : BnF) (nx : Nx)
  | bnModExp (w : WaleId) (b : BnF) (nx : Nx)
  | bnPtAdd (w : WaleId) (b : BnF) (nx : Nx)
  | bnPtMul (w : WaleId) (b : BnF) (nx : Nx)
  | bnSecret (w : WaleId) (op : BitVec 5) (b : BnF) (nx : Nx)
  -- jobs of a granted descriptor (chapters 02, 03, 04, 10, 11): `j` is the job
  | mlKemKeygen (j : Nat)
  | mlKemKeygenSeed (j : Nat)
  | mlKemEncaps (j : Nat)
  | mlKemDecaps (j : Nat)
  | mlDsaKeygen (j : Nat)
  | mlDsaKeygenSeed (j : Nat)
  | mlDsaSign (j : Nat)
  | mlDsaVerify (j : Nat)
  | mlDsaSignPrehash (j : Nat)
  | mlDsaVerifyPrehash (j : Nat)
  | mlDsaSignMu (j : Nat)
  | mlDsaVerifyMu (j : Nat)
  | fnDsaKeygen (j : Nat)
  | fnDsaSign (j : Nat)
  | fnDsaVerify (j : Nat)
  | fnDsaSignPrehash (j : Nat)
  | fnDsaVerifyPrehash (j : Nat)
  | slhDsaKeygen (j : Nat)
  | slhDsaKeygenSeed (j : Nat)
  | slhDsaSign (j : Nat)
  | slhDsaVerify (j : Nat)
  | slhDsaSignPrehash (j : Nat)
  | slhDsaVerifyPrehash (j : Nat)
  | hssKeygen (j : Nat)
  | hssSign (j : Nat)
  | hssVerify (j : Nat)
  | lmsVerify (j : Nat)
  | hssState (j : Nat)
  | xmssKeygen (j : Nat)
  | xmssmtKeygen (j : Nat)
  | xmssSign (j : Nat)
  | xmssmtSign (j : Nat)
  | xmssVerify (j : Nat)
  | xmssmtVerify (j : Nat)
  | xmssState (j : Nat)
  | counterWriteEnd (j : Nat) (ok : Bool)
  | backgroundTreeGeneration (s : SliceId) (index : Nat)
  | hqcKeygen (j : Nat)
  | hqcEncaps (j : Nat)
  | hqcDecaps (j : Nat)
  | mcelieceKeygen (j : Nat)
  | mcelieceEncaps (j : Nat)
  | mcelieceDecaps (j : Nat)
  | pkExport (j : Nat)
  | rsaKeygen (j : Nat)
  | rsaSign (j : Nat)
  | rsaVerify (j : Nat)
  | encryptOaep (j : Nat)
  | decryptOaep (j : Nat)
  | publicRaw (j : Nat)
  | eccKeygen (j : Nat)
  | ecdsaSign (j : Nat)
  | ecdsaVerify (j : Nat)
  | ecdh (j : Nat)
  | pointValidate (j : Nat)
  | keygenEd (j : Nat)
  | keygenX (j : Nat)
  | eddsaSign (j : Nat)
  | eddsaVerify (j : Nat)
  | signCtx (j : Nat)
  | verifyCtx (j : Nat)
  | signPh (j : Nat)
  | verifyPh (j : Nat)
  | xDh (j : Nat)
  | combineConcat (j : Nat)
  | combineKdf (j : Nat)
  | kdf108 (j : Nat)
  | hkdfExtract (j : Nat)
  | hkdfExpand (j : Nat)
  | kdf56c (j : Nat)
  | wrapKw (j : Nat)
  | wrapKwp (j : Nat)
  | unwrapKw (j : Nat)
  | unwrapKwp (j : Nat)
  | gcmSeal (j : Nat)
  | gcmOpen (j : Nat)
  | ccpSeal (j : Nat)
  | ccpOpen (j : Nat)
  | dealerKeygen (j : Nat)
  | commit (j : Nat)
  | signShare (j : Nat)
  | aggregate (j : Nat)
  | frostVerify (j : Nat)
  | fabricSign (j : Nat) (lost : Option (BitVec 12))
  | shareSend (j : Nat) (dest : Option W32)
  | modAdd (j : Nat)
  | modSub (j : Nat)
  | modMul (j : Nat)
  | modRed (j : Nat)
  | modInv (j : Nat)
  | modExp (j : Nat)
  | ptAdd (j : Nat)
  | ptMul (j : Nat)
  | digest (j : Nat)
  | random (j : Nat)
  | fullEntropy (j : Nat)
  | customerEntry (j : Nat)
  | keyGenerate (j : Nat)
  | keyImport (j : Nat)
  | keyImportPublic (j : Nat)
  | keyDelete (j : Nat)
  | keyGetAttr (j : Nat)
  | keyExportPublic (j : Nat)
  | keyRestrict (j : Nat)
  | keySeal (j : Nat)
  | keyEvict (j : Nat)
  | keyLoad (j : Nat)
  | ctrAlloc (j : Nat)
  | ctrRead (j : Nat)
  | ctrFree (j : Nat)
  | keySync (j : Nat)
  | keySetDefaults (j : Nat)
  -- key store, DMA and interrupts
  | journalCommit
  | journalReadEnd (epoch : W64) (readable : Bool)
  | sweepEnd
  | dmaReadCompletion (c : ChanId) (r : ReadResult)
  | hostReadTimeout (t : HostRead)
  | ddr5Timeout (c : ChanId)
  | dmaRecordConsume (q : QuadId)
  | interruptModeration (s : SliceId) (n : RingId)
  | msixUnmask (v : BitVec 11)
  | atsTranslation (t : AtsTarget) (valid : Bool)
  | atsInvalidation (s : SliceId) (page : BitVec 52)
  | tokenBucketRefill (s : SliceId)
  | timNowLoRead
  | timeBaseWrap
  | registerWrite (a : RegAddr) (wide : Bool) (v : W64)
  -- mailbox commands (Dexryn 3)
  | getVersion (r : Req)
  | catQuery (r : Req)
  | walCfgRead (r : Req)
  | walCfgWrite (r : Req)
  | walStatRead (r : Req)
  | walCsbRead (r : Req)
  | csLoad (r : Req) (bad : W64)
  | csUnload (r : Req)
  | sliceCreate (r : Req)
  | sliceDestroy (r : Req)
  | sliceQuery (r : Req)
  | sliceSetQuota (r : Req)
  | sliceSetSched (r : Req)
  | sliceSetVectors (r : Req)
  | sliceBindPasid (r : Req)
  | sliceQuiesce (r : Req)
  | sliceResume (r : Req)
  | sliceCounters (r : Req)
  | quiesceBound (s : SliceId)
  | wedgeTimer (s : SliceId)
  | migPrepare (r : Req)
  | migSave (r : Req)
  | migRestore (r : Req)
  | migAbandon (r : Req)
  | migCommit (r : Req)
  | migUnfreeze (r : Req)
  | migCancel (r : Req)
  | migPolicySet (r : Req)
  | migPolicyGet (r : Req)
  | sliceState (r : Req)
  | lcState (r : Req)
  | lcProvision (r : Req)
  | lcChallenge (r : Req)
  | lcTransition (r : Req)
  | kstStatus (r : Req)
  | kstPolicySet (r : Req)
  | kstPolicyGet (r : Req)
  | devKeyCreate (r : Req)
  | devKeyGrant (r : Req)
  | devKeyDelete (r : Req)
  | measExtend (r : Req)
  | measRead (r : Req)
  | attestQuote (r : Req)
  | attestKey (r : Req)
  | certChain (r : Req)
  | digInit (r : Req)
  | digUpdate (r : Req)
  | digFinal (r : Req)
  | digSave (r : Req)
  | digRestore (r : Req)
  | spdmGetMeasurements (m : MeasRequest) (nonce : Bytes)
  | spdmMessage (m : SpdmRequest)
  | rngStatus (r : Req)
  | rngCfgSet (r : Req)
  | rngCfgGet (r : Req)
  | rngRetest (r : Req)
  | rngRawCapture (r : Req) (samples : Bytes)
  | rngTestPattern (r : Req)
  -- randomness events (chapter 11)
  | servoBlock (i : SourceId) (ones : Nat)
  | repetitionCount (i : SourceId)
  | proportionWindowEnd (i : SourceId) (count : Nat)
  | startupTestEnd (i : SourceId) (passed : Bool)
  | settlingTimeout (i : SourceId)
  | conditionerBlock (q : QuadId)
  | seederReseed (q : QuadId)
  | seederKat (q : QuadId) (passed : Bool)
  | seederRequest (q : QuadId)
  | drbgReseedRequest (w : WaleId)
  | drbgIntervalReached (w : WaleId)
  | drbgReseed (w : WaleId)
  | tamPolicyGet (r : Req)
  | tamPolicySet (r : Req)
  | tamFuseDisable (r : Req)
  | tamStickyClear (r : Req)
  | tamLogRead (r : Req)
  | tamLidRead (r : Req)
  | tamAck (r : Req)
  | tamLidCal (r : Req)
  -- tamper, battery and OTP events (chapter 12)
  | lidASweep (pairs : List LidPair)
  | lidBMeasure (pair : Fin 96) (delay : Nat) (impedance : Nat)
  | loopSample (i : Fin 4) (fwd : LoopDrive) (rev : LoopDrive)
  | switchSample (i : Fin 2) (seen : SwitchSeen)
  | sensorAlarm (t : TamperId) (seen : Reading)
  | shadowCompare (r : Shadowed) (upset : W64)
  | haltRecordDeadline
  | zeroiseOutputTimeout (c : ChanId)
  | tamZeroPulseEnd
  | otpStepWrite (verified : Bool)
  | batterySwitch
  | batteryReturn
  | batteryAlarm (t : TamperId) (detail : W32)
  | xtalFail
  -- faults (chapter 13)
  | faultNote (n : NoteIn)
  | mergeWindow
  | heartbeat (q : QuadId)
  | fenceFlashCopy
  | selfTestEnd (u : Source) (passed : Bool)
  | fltLogRead (r : Req)
  | fltLogClear (r : Req)
  | fltFenceRead (r : Req)
  | fltUnfence (r : Req)
  | fltFence (r : Req)
  | wtyStatus (r : Req)
  | wtyPlanSet (r : Req)
  | wtyPortCfg (r : Req)
  | wtyTimeCfg (r : Req)
  | wtyMemberAdmit (r : Req)
  | wtyFzPolicySet (r : Req)
  | wtyFzPolicyGet (r : Req)
  | wtySliceJoin (r : Req)
  | wtySliceLeave (r : Req)
  | wtyTakeover (r : Req)
  -- fabric events (chapter 14)
  | linkStageEnd (p : PortId) (e : StageEnd)
  | linkStageRetry (p : PortId)
  | joinRetry (p : PortId)
  | frameReceive (p : PortId) (number : W64) (tagOk : Bool)
  | linkSilence (p : PortId)
  | linkKeyRenewal (p : PortId)
  | linkErrors (p : PortId)
  | syncFrame (p : PortId) (x : SyncStamp)
  | holdLimit
  | keepAlive (p : PortId) (member : BitVec 12)
  | memberLost (member : BitVec 12)
  | masterLost
  | takeover (reached : Nat)
  | quorumLoss (reached : Nat)
  | replicationChange (c : ReplChange)
  | leaseRequest (handle : W32) (member : BitVec 12)
  | replGrace
  | zeroiseNotice (p : PortId) (sender : BitVec 12) (term : W64)
  | advertisement (p : PortId) (idle : Nat)
  | spreadWait (j : Nat) (p : PortId)
  | forwardedJob (p : PortId) (s : SliceId) (desc input param : Bytes) (remote : Nat)
  | forwardedResult (j : Nat) (r : Option FwdResult)
  | forwardAbort (p : PortId) (remote : Nat)
  | pwrStatus (r : Req)
  | pwrCfgSet (r : Req)
  | pwrCfgGet (r : Req)
  | pwrStandby (r : Req)
  | pwrWake (r : Req)
  | pwrBinSet (r : Req)
  | ageStatus (r : Req)
  | ageCfgSet (r : Req)
  | ageCfgGet (r : Req)
  | ageRun (r : Req)
  -- power and ageing events (chapter 15)
  | pmbusPoll (r : Option PmReading)
  | railStep (vout : Option Nat)
  | targetSettle (w : WaleId)
  | binChange (q : QuadId) (bin : Fin 5)
  | thermalSample (t : Tjs)
  | derateEnd
  | ioutLimit
  | calibrationEnd (w : WaleId) (binSet : Byte) (netSet : Byte)
  | ageingRunDue (w : WaleId)
  | ringOscRead (w : WaleId) (khz : Nat)
  | ageingRunEnd (w : WaleId) (need : Nat) (khz : Nat)
  -- start and reset (chapter 16, R398)
  | powerUp (b : BootFacts)
  | ddr5TrainingEnd (c : Fin 2) (ok : Bool)
  | readyIndication
  | bootWatchdog (b : BootFacts)
  | pwrOkFall
  | pwrOkRise (b : BootFacts)
  | sysResetN (b : BootFacts)
  | perstN (b : BootFacts)
  | flr (b : BootFacts)
  | flrTimeout (b : BootFacts)
  | rimRestart (digestOk : Bool) (b : BootFacts)
  | fwStatus (r : Req)
  | fwWrite (r : Req)
  | fwActivate (r : Req)
  | fwCommit (r : Req)
  | fwRevert (r : Req)
  | devReset (r : Req) (b : BootFacts)
  -- JTAG (R406)
  | bypass
  | idcode
  | samplePreload
  | extest
  | highz
  | trstN (b : BootFacts)
  -- rows the table adds last
  | arbitrationRound (q : QuadId) (t : Fin 52) (reqs : List ArbReq)
  | restoreEnd (w : WaleId)
  | dmaWriteAck (c : ChanId) (ok : Bool)
  | perstNRelease (b : BootFacts)
  | batteryDomainLoss
  | sensorAlarmEnd (t : TamperId)
deriving DecidableEq, Repr

end Sys2Proof
end

