-- ==== Sys2Proof/Decode.lean ====
section
/-! DEFINITION. The decoder of a table word. No row of the table gives bits: the commands are events at the block's interfaces
and not words, so no word spells one. -/
namespace Sys2Proof

/-- The command a word of `nbits` bits spells by the table: none, since no row of the table gives bits. -/
def decodeTableWord (_nbits _w : Nat) : Option Instr := none

end Sys2Proof
end

