-- ==== Sys2Proof/Config.lean ====
section
/-! DEFINITION. What an implementation fixes and what the spec leaves open: uninterpreted constants without a body, so
that nothing can be proved of their values (assumption log 2, 3, 4, 5 and 135). -/
namespace Sys2Proof

/-- The algorithms of outside standards whose VALUES the spec does not state (FIPS 203 to 206, RFC 8017, RFC 8032, SP 800-38F
and the others it names). Each names one value; the parameter set and the byte strings it depends on are arguments. -/
inductive Alg where
  | kemPk | kemSk | kemCt | kemSecret | kemShared
  | dsaPk | dsaSk | dsaSig
  | slhPk | slhSig | hssPk | hssSig | xmssPk | xmssSig
  | rsaN | rsaSk | rsaSig | oaepCt | oaepPt
  | ecPk | ecSk | ecSig | ecdh
  | edPk | edSig | xPk | xShared
  | kdf56c | kdf108 | hkdfExtract | hkdfExpand | kwWrap | kwUnwrap
  | gcmCt | gcmTag | gcmPt | ccpCt | ccpTag | ccpPt
  | frostPk | frostShare | frostVShare | frostCommit | frostNonce | frostSigShare | frostSig
  | hash | shakeStream | sha3of | seal | unseal | image | statement | certChain | deviceId | transport
  | lattice | secretBn | trapState | importRequest | conditioned
deriving DecidableEq, Repr

/-- A yes or no question whose answer an outside standard fixes. -/
inductive Ask where
  | verifies | hintOk | zNormOk | lengthCodesOk | hssCodesOk | hssIndexOk | sigHeaderOk | compressedOk | pkHeaderOk
  | rsOk | encodingOk | oaepOk | unwrapOk | tagOk | materialOk | ownerSigOk | makerSigOk | shareOk
  | sealTagOk | receiptOk | requestOk | packageOk | samplerDone
deriving DecidableEq, Repr

/-- Byte k of the value the named algorithm gives for a parameter set and its arguments (log 2). -/
opaque Config.algByte : Alg → Nat → List Bytes → Nat → Byte

/-- The answer an outside standard gives (log 2). -/
opaque Config.ask : Ask → Nat → List Bytes → Bool

/-- The integers an outside standard decodes from byte strings, such as the coefficients of an encapsulation key (log 2). -/
opaque Config.decoded : Alg → Nat → List Bytes → List Nat

/-- Byte k of the random stream: drawn values (R34), tokens, nonces (log 3). -/
opaque Config.freeByte : Nat → Byte

/-- Byte k of what a seeder gives from the factory pattern on: its known answers (R283, log 3). -/
opaque Config.patternByte : W64 → Nat → Byte

/-- A number the spec leaves open, applied to a counter or to the operands it depends on (log 4). -/
opaque Config.freeNat : Nat → Nat → Nat

/-- The microwords and nanowords of the maker image, which no rule lists (log 135). -/
opaque Config.makerMicro : Nat → BitVec 24
opaque Config.makerNano : Nat → BitVec 192

/-- The fused new-part voltage Vnew of a wale at a bin, in mV (R349: measured at manufacture; log 5). -/
opaque Config.vnew : Nat → Nat → Nat

/-- The fused minimum Vunc of the units outside the wales, in mV (R355; log 5). -/
opaque Config.vunc : Nat

/-- The fused ageing exponent's projection of hours remaining from need, Vnew and powered hours (R367; log 5). -/
opaque Config.projection : Nat → Nat → Nat → Nat

/-- The state of the Lid's LFSR after one step: its feedback is not stated (log 160). -/
opaque Config.lidNext : BitVec 64 → BitVec 64

/-- A reference of Lid detector B captured at one Tj, corrected for another (R292; log 160). -/
opaque Config.lidCorrected : Nat → Int → Int → Nat

/-- The lengths of the maker's certificate chain and of a statement, which no rule states (log 2). -/
opaque Config.statementLen : Nat → Nat

end Sys2Proof
end

