-- ==== Sys2Proof/Machine/State.lean ====
section
/-! DEFINITION. The state of the WZ64: every register, memory, queue, counter, mode and pin the spec gives the block, as plain
data, and the queue of waiting commands. Field defaults are the reset values: the spec's where it states one, else the values
of assumption log 1. -/
namespace Sys2Proof.Machine

/-! ### Sparse tables and byte memories -/

/-- The entry of a sparse table, `d` where none is listed. -/
def Tab.get {α : Type} (d : α) : Tab α → Nat → α
  | [], _ => d
  | (k, v) :: r, i => if k = i then v else Tab.get d r i

/-- Replace or add an entry, keys kept in rising order. -/
def Tab.put {α : Type} : Tab α → Nat → α → Tab α
  | [], i, x => [(i, x)]
  | (k, v) :: r, i, x => if k = i then (i, x) :: r else if i < k then (i, x) :: (k, v) :: r else (k, v) :: Tab.put r i x

/-- Remove an entry. -/
def Tab.drop {α : Type} (t : Tab α) (i : Nat) : Tab α := t.filter (fun p => p.1 != i)

/-- Is an entry listed? -/
def Tab.has {α : Type} (t : Tab α) (i : Nat) : Bool := t.any (fun p => p.1 == i)

/-- A byte memory: address and byte pairs, addresses strictly rising, no byte equal to zero; an unlisted address reads as zero
(operand memory and shared memory read as zero after a wipe or a wake: R98, R153). -/
abbrev Mem := List Host.Cell

/-! ### Small closed types -/

/-- Table 10.14. -/
inductive Lifecycle where | factory | provisioned | deployed | decommissioned | spent
deriving DecidableEq, Repr

/-- Table 12.2, in rising order. -/
inductive Resp where | log | alert | halt | zeroise | zeroiseSeal
deriving DecidableEq, Repr

/-- Table 9.1. -/
inductive SliceSt where | free | quiesced | active | quiescing | wedged | frozen | receiving
deriving DecidableEq, Repr

/-- Table 4.4, WAL_STAT.STATE. -/
inductive WaleSt where | gated | clockGated | warm | running | wiping | spilling | fenced
deriving DecidableEq, Repr

/-- Table 10.1. -/
inductive KstSt where | locked | unlocked | sweeping | zeroised | closed
deriving DecidableEq, Repr

/-- Table 11.3. -/
inductive SrcSt where | off | starting | healthy | suspect | fenced
deriving DecidableEq, Repr

/-- Table 11.6. -/
inductive SeedSt where | init | seeded | relayed | paused | stopped
deriving DecidableEq, Repr

/-- Table 14.3, STATE. -/
inductive PortSt where | off | training | auth | keys | join | up | fenced
deriving DecidableEq, Repr

/-- Table 14.1. -/
inductive PortRole where | up | down | alt | off
deriving DecidableEq, Repr

/-- TDISP states (R166). -/
inductive TdiSt where | unlocked | locked | run | error
deriving DecidableEq, Repr

/-- Table 15.3, as PWR_STATUS codes it (BATTERY and OFF are seen in `coreUp` and `aonUp`). -/
inductive DevSt where | run | idle | standby | starting
deriving DecidableEq, Repr

/-- The state of a digest context (R256). -/
inductive DigSt where | idle | active | finished
deriving DecidableEq, Repr

/-! ### Chapter 05 and 04: the wale -/

/-- An object register: base slot, span in slots, length in bytes, and whether it names an object (R77, Table 5.9). -/
structure Obj where
  base : Nat := 0
  span : Nat := 0
  len : Nat := 0
  valid : Bool := false
deriving DecidableEq, Repr

/-- A hash engine: mode (the INIT value, 0 idle), the bytes absorbed since INIT (its state is their image), whether the padding is
applied, the byte position of the squeeze, and the state's taint (R85, Table 5.11). -/
structure HashEng where
  mode : Nat := 0
  data : Bytes := []
  padded : Bool := false
  out : Nat := 0
  taint : Bool := false
deriving DecidableEq, Repr

/-- The micro-sequencer and what runs beside it (R108, R120). `stack` holds the return stack, top first. `emitted` and `kstore` are
what the run has presented, `drawn` the values drawn, `decisions` the declassified decisions; `field` operations of the microword at `pc`
have issued, `count` in the whole run, and `held` keeps the registers and flags the microword began with (R112); `presented` is a decision
at the comparator (R111), `cycles` what the run had used of its limit when it was last spilled (R122); in the second run of a time-redundant
job `replay` and `recorded` hold the first run's drawn values and decisions, and `first` its result (R95). -/
structure Micro where
  pc : BitVec 14 := 0
  customer : Bool := false
  issuing : Bool := false
  stack : List (BitVec 14) := []
  l : Vector (BitVec 16) 4 := Vector.replicate 4 0
  g : Vector W64 16 := Vector.replicate 16 0
  gTaint : BitVec 16 := 0
  f : BitVec 16 := 1
  fTaint : BitVec 16 := 0
  o : Vector Obj 16 := Vector.replicate 16 {}
  hash : Vector HashEng 4 := Vector.replicate 4 {}
  emitted : Bytes := []
  drawn : Bytes := []
  kstore : Option Bytes := none
  decisions : List Bool := []
  recorded : List Bool := []
  released : Option (W16 × W32) := none
  field : Nat := 0
  count : Nat := 0
  held : Option (Vector W64 16 × BitVec 16 × BitVec 16 × BitVec 16) := none
  presented : Option Bool := none
  cycles : Nat := 0
  replay : Bytes := []
  first : Option (Bytes × Option Bytes × W16 × W32) := none
deriving DecidableEq, Repr

/-- The ageing monitor's record of a wale (Table 15.10, R355, R363, R367), in mV; `cold` is the 20 mV of R368, `poweredNs` what is left over
of whole powered hours. -/
structure Ageing where
  offset : Nat := 0
  need : Nat := 0
  index : Nat := 0
  target : Nat := 0
  planned : Option Nat := none
  cold : Bool := false
  calibrating : Bool := false
  levelBin : Byte := 0
  levelNet : Byte := 0
  hours : W32 := 0
  poweredNs : Nat := 0
  left : W32 := 0xFFFFFFFF
  runKhz : W32 := 0
  lastRun : W64 := 0
  oscAt : W64 := 0
  runWanted : Bool := false
  running : Bool := false
  deferred : Bool := false
  warnedAt : Option W64 := none
deriving DecidableEq, Repr

/-- A wale (Tables 4.3, 4.4, 5.1, 5.2, 11.13). `maker` says that the maker image is loaded and `custOk` that the customer-open region holds the
resident image; `ustore` and `nstore` list the customer region and every word found other than its image gives it. `trapAt` is where a partner
traps (R123), `runFrom` when the wale was seated, `runAt` since when its cycles count (R122), `drbgOut` the bytes its masking DRBG gave. -/
structure Wale where
  st : WaleSt := .gated
  waking : Bool := false
  paired : Bool := false
  lead : Bool := false
  partner : Nat := 0
  levelOn : Bool := false
  order : BitVec 2 := 0
  rclass : BitVec 2 := 0
  timeRed : Bool := false
  slotLen : BitVec 2 := 0
  slotPend : Option (BitVec 2) := none
  csb : W32 := 0x01803000
  csbShadow : W32 := 0xFE7FCFFF
  maker : Bool := false
  custOk : Bool := false
  ustore : Tab (BitVec 25) := []
  nstore : Tab (BitVec 196) := []
  job : Option Nat := none
  runSlice : Option SliceId := none
  part : Nat := 0
  touched : Nat := 0
  second : Bool := false
  opmem : Mem := []
  sTags : List Nat := []
  micro : Micro := {}
  trapWanted : Bool := false
  trapAt : Option Nat := none
  grantedAt : W64 := 0
  runFrom : W64 := 0
  runAt : W64 := 0
  idleSince : W64 := 0
  drbgSeeded : Bool := false
  drbgLog : Nat := 6
  drbgStretch : BitVec 24 := 0
  drbgWant : Bool := false
  drbgUrgent : Bool := false
  drbgSent : Bool := false
  drbgOut : Nat := 0
  age : Ageing := {}
deriving DecidableEq, Repr

/-- A wale's share of a spilled job: the trap frame with the objects (R102, R124), and the wale it was spilled from (R76). -/
structure Spill where
  job : Nat
  part : Nat
  home : Nat
  lead : Bool
  micro : Micro
  objects : Mem
  sTags : List Nat
  slotLen : BitVec 2
  touched : Nat
  timeRed : Bool
  second : Bool
  pages : List Nat
deriving DecidableEq, Repr

/-! ### Counters and notes -/

/-- A 64-bit counter of R160. -/
structure Ctr where
  ovf : Bool := false
  count : BitVec 48 := 0
deriving DecidableEq, Repr

/-- A fault note (Table 13.11). -/
structure Note where
  ts : W64
  source : W16
  kind : Byte
  cls : Fin 5
  detail : W32
  addr : BitVec 48
  slice : W16
  jobSeq : W16
  tag : W32
deriving DecidableEq, Repr

/-- A fence record (Table 13.13). `held` marks a CS_PARITY fence that reached the threshold of R314, which is not lifted automatically. -/
structure FenceRec where
  unit : W16
  source : W16
  kind : Byte
  cls : Fin 5
  detail : W32
  seq : W32
  ts : W64
  boot : W32
  held : Bool := false
deriving DecidableEq, Repr

/-- The fence map (Table 13.6). -/
structure FenceMap where
  wale : W64 := 0
  unit : BitVec 28 := 0
  dma : W32 := 0
  grp : BitVec 20 := 0
  dev : BitVec 16 := 0
deriving DecidableEq, Repr

/-- The fault collector (chapter 13). `merging` holds the notes in their merge window, `counted` the escalation windows,
`kept` when an F0 note of a source and kind was last kept, `tests` the units in self-test, `copyDue` the fences not yet copied,
`fencesDue` the units that a manager's fence takes once they hold no job (R316), `startSeq` the sequence of this start's first note. -/
structure Faults where
  sealed : Bool := false
  sealing : Bool := false
  halted : Bool := false
  worst : Fin 5 := 0
  wrap : Bool := false
  seq : W32 := 0
  lost : W32 := 0
  boot : W32 := 0
  cnt : Tab Ctr := []
  fence : FenceMap := {}
  shadow : FenceMap := ⟨0xFFFFFFFFFFFFFFFF, 0xFFFFFFF, 0xFFFFFFFF, 0xFFFFF, 0xFFFF⟩
  recs : Tab FenceRec := []
  merging : List Note := []
  log : List (W32 × Note) := []
  counted : List (W16 × Byte × W64) := []
  kept : List (W16 × Byte × W64) := []
  tests : List W16 := []
  copyDue : List W16 := []
  fencesDue : List W16 := []
  startSeq : W32 := 0
  gen : W32 := 0
deriving DecidableEq, Repr

/-! ### Battery domain, OTP, tamper domain (chapters 10 and 12) -/

/-- A tamper event record (Table 12.9). -/
structure Event where
  ts : W64
  rtc : BitVec 48
  source : W16
  conf : Resp
  eff : Resp
  detail : W32
  seq : W32
  flags : Byte
deriving DecidableEq, Repr

/-- Who holds a battery-domain counter (R246). -/
inductive CtrOwner where
  | none
  | slice (s : SliceId)
  | key (handle : W32)
  | reserved (job : Nat)
deriving DecidableEq, Repr

/-- The battery domain (Table 1.6, R297 to R303). Counter 0 is the journal epoch, 1 the customer-microcode floor and 2 the fabric
term (R246; the numbers among 0 to 63 are assumption log 6). `rtcPhase` is what BAT_RTC has gathered of its next count, in parts of 10^9 (R297). `level` is
the response in force since the battery domain took over, `batch` how many of the newest records carry the same BAT_RTC value, and `before` the
response in force before them (R287, R304). -/
structure Battery where
  supplied : Bool := false
  onVbat : Bool := false
  rootKey : Option Bytes := none
  counters : Tab Nat := []
  owners : Tab CtrOwner := []
  evicted : List Nat := []
  sticky : BitVec 16 := 0
  otpPending : Nat := 0
  log : List Event := []
  logOver : Bool := false
  rtc : BitVec 48 := 0
  rtcPhase : Nat := 0
  rtcInternal : Bool := false
  xtalNote : Option W32 := none
  lfsr : W64 := 0
  seq : W32 := 0
  batch : Nat := 0
  before : Option Resp := none
  level : Option Resp := none
  zeroised : Bool := false
  battEvent : Bool := false
  sealRecord : Option Note := none
  zeroPin : Bool := false
deriving DecidableEq, Repr

/-- The OTP fuses (R262, R300, R303, R374); `uds` is the unique device secret, fused at manufacture, which only the identity derivation reads
(R259; its value is log 163). -/
structure Otp where
  stepping : Byte := 0xC0
  lifecycle : Lifecycle := .factory
  lifeShadow : Byte := 0xFE
  zeroCount : Nat := 0
  ownerKeyId : Bytes := List.replicate 48 0
  uds : Bytes := List.replicate 32 0
  fused : BitVec 16 := 0
  fwFloor : Nat := 0
  tries : Nat := 0
  stepDue : Nat := 0
deriving DecidableEq, Repr

/-- The tamper policy (Table 12.7): responses and filters by source, and the switches' polarity bits. -/
structure Policy where
  resp : List Resp := [.zeroise, .zeroise, .zeroise, .zeroise, .alert, .zeroise, .halt, .zeroise, .zeroise,
    .log, .log, .log, .log, .log, .log, .zeroiseSeal]
  filter : List Nat := List.replicate 16 0
  closed : BitVec 2 := 0
deriving DecidableEq, Repr

/-- The tamper domain (chapter 12): `due` are the sources in alarm that a start has still to evaluate (R290), `details` what each source
last gave; `batch` is how many of the newest records carry one time stamp, `before` the response in force before them (R287); `falling` says that
VDD_AON has fallen below 0.72 V and it is not known yet for how long (R293); `lidTj` is Tj when the references were captured (R292); `loopDrive` is
the order and the moment of a loop's last sample, as the Lid's LFSR gave them (R294). -/
structure Tamper where
  policy : Policy := {}
  shadow : Policy := {}
  active : BitVec 16 := 0
  due : BitVec 16 := 0
  details : Tab W32 := []
  any : Bool := false
  level : Resp := .log
  halted : Bool := false
  log : List Event := []
  loops : Vector (BitVec 4) 4 := Vector.replicate 4 0
  loopRun : Vector Nat 4 := Vector.replicate 4 0
  switches : Vector (BitVec 4) 2 := Vector.replicate 2 0
  switchRun : Vector Nat 2 := Vector.replicate 2 0
  alarmN : Bool := false
  disarmed : Bool := false
  falling : Bool := false
  batch : Nat := 0
  before : Option Resp := none
  lidTj : Int := 0
  loopDrive : Vector (Bool × Byte) 4 := Vector.replicate 4 (false, 0)
  lidRefs : Tab (Nat × Nat) := []
  lidNow : Tab (Nat × Nat) := []
  haltAt : Option W64 := none
  lineAt : Option W64 := none
deriving DecidableEq, Repr

/-! ### Randomness (chapter 11) -/

/-- A noise source (Tables 11.3 and 11.13). -/
structure Source1 where
  st : SrcSt := .off
  code : Nat := 512
  quiet : Nat := 0
  rail : Nat := 0
  failures : W32 := 0
  samples : W64 := 0
  lastFail : Option W64 := none
  since : W64 := 0
deriving DecidableEq, Repr

/-- A seeder DRBG (Tables 11.6 and 11.13). `withheld` is the known-answer run of an instantiation, `queue` the wale DRBGs that have
requested a reseed, in order of arrival (R274), `katAt` when its last known-answer run began or ended (R271). -/
structure Seeder where
  st : SeedSt := .init
  donor : Option (Fin 4) := none
  relays : W32 := 0
  reseeds : W64 := 0
  bytes : W64 := 0
  ts : W64 := 0
  since : Nat := 0
  lastReseed : W64 := 0
  seeded : Bool := false
  withheld : Bool := false
  katAt : W64 := 0
  queue : List WaleId := []
deriving DecidableEq, Repr

/-- A conditioned block held back: the sources it was made from, and those whose window has still to end (R267). -/
structure HeldBlock where
  sources : List Nat
  awaits : List Nat
deriving DecidableEq, Repr

/-- The randomness blocks. `held` is the blocks each quadrant holds back; `blocks` is the 128-bit blocks each quadrant's conditioner has ready;
`draws` counts the bytes of the random stream, `patternFrom` what it read when the factory pattern was applied (R283). -/
structure Rng where
  sources : Tab Source1 := []
  seeders : Tab Seeder := []
  held : Tab (List HeldBlock) := []
  blocks : Tab Nat := []
  cfg : W32 := 0xFF01
  pattern : Option W64 := none
  patternFrom : Nat := 0
  draws : Nat := 0
deriving DecidableEq, Repr

/-! ### Key store (chapter 10) -/

/-- The one-time state of a stateful key (R51, R54): next index u, limit C, granule B, total height H, levels, the height of the
bottom level, how many bottom trees are generated and what their `parents` signed of each (R54), why it refuses to sign, and what the counter
read when the key took it. -/
structure Stateful where
  u : Nat := 0
  c : Nat := 0
  b : Nat := 1
  height : Nat := 0
  levels : Nat := 1
  bottom : Nat := 0
  trees : Nat := 1
  parents : List Bytes := []
  failed : Bool := false
  migrating : Bool := false
  cancelled : Bool := false
  base : Nat := 0
deriving DecidableEq, Repr

/-- A key entry: the attribute record (Table 10.4), both halves of the material, and what the device keeps of it. -/
structure Key where
  typ : W16 := 0
  usage : W16 := 0
  order : Byte := 0
  expire : Bool := false
  noMigrate : Bool := false
  bound : Bool := false
  origin : Byte := 0
  useLimit : W64 := 0
  useCount : W64 := 0
  reserved : Nat := 0
  ceiling : Nat := 0
  granule : W16 := 0
  keyLen : W16 := 0
  ctr : W32 := 0xFFFFFFFF
  label : W64 := 0
  secret : Bytes := []
  pub : Bytes := []
  tombstone : Bool := false
  stateful : Option Stateful := none
  grants : List W16 := []
  pkObject : Option Nat := none
  pkDigest : Bytes := []
  share : Option (Nat × Nat × Nat) := none
  replicated : Bool := false
  lease : Nat := 0
  leased : Nat := 0
deriving DecidableEq, Repr

/-- A change accepted and not yet committed to the journal (R244). -/
inductive Change where
  | key (handle : W32)
  | slice (s : SliceId)
  | policies
deriving DecidableEq, Repr

/-- The key store. `lag` holds the changes not yet committed, `commits` counts those that are; `waits` lists the jobs that complete
only when `commits` has reached their mark; `rootDue` is set at a start that waits for a new root key. -/
structure KeyStore where
  st : KstSt := .locked
  keys : Tab Key := []
  policy : W32 := 0x17F
  shadow : W32 := 0xFFFFFE80
  cursor : Tab Nat := []
  lag : List Change := []
  lastCommit : W64 := 0
  commits : Nat := 0
  waits : List Nat := []
  rootDue : Bool := false
deriving DecidableEq, Repr

/-! ### Slices (chapters 07, 08, 09) -/

/-- The quota record (Table 9.3). -/
structure Quota where
  wales : Nat := 8
  opmem : Nat := 512
  codePairs : Nat := 0
  channels : Nat := 2
  qmem : Nat := 0
  ddr5 : Nat := 0
  kst : Nat := 64
  hold : Nat := 64
  rate : Nat := 0
  skeins : Nat := 256
  burst : Nat := 64
deriving DecidableEq, Repr

/-- A submission ring (Tables 7.5 and 7.6). `open_` counts admitted jobs whose records are not written; `tries` the reads of R177;
`busy` is set while a fetch is outstanding, issued when the tail was `seen`. -/
structure Sq where
  base : W64 := 0
  enable : Bool := false
  log2 : BitVec 5 := 0
  cq : Fin 8 := 0
  head : Nat := 0
  tail : Nat := 0
  halted : Bool := false
  open_ : Nat := 0
  tries : Nat := 0
  busy : Bool := false
  seen : Nat := 0
deriving DecidableEq, Repr

/-- A completion ring (Tables 7.5 and 7.7). `a` is the A of R179; `ann` and `firstAt` are the moderation of R180; `mute` is set while its VECTOR
awaits the tenant's rewrite (R220). -/
structure Cq where
  base : W64 := 0
  enable : Bool := false
  irqEn : Bool := false
  log2 : BitVec 5 := 0
  vector : BitVec 11 := 0
  modTime : W16 := 0
  modCount : Byte := 1
  head : Nat := 0
  tail : Nat := 0
  halted : Bool := false
  a : Nat := 0
  ann : Nat := 0
  firstAt : W64 := 0
  mute : Bool := false
deriving DecidableEq, Repr

/-- The ring error latch (Table 7.11); `mute` as a completion ring's. -/
structure ErrLatch where
  valid : Bool := false
  ovf : Bool := false
  code : Byte := 0
  cq : Bool := false
  ring : Fin 8 := 0
  index : W16 := 0
  addr : W64 := 0
  time : W64 := 0
  irqEn : Bool := false
  vector : BitVec 11 := 0
  lost : W32 := 0
  mute : Bool := false
deriving DecidableEq, Repr

/-- A mailbox (Table 7.12): its registers, the frame window and the command in progress: what of its payload has still to be read, whether it has
been, and what of its response has still to be written before its frame is (R186, R204). -/
structure Mbx where
  busy : Bool := false
  done : Bool := false
  seq : W16 := 0
  irqEn : Bool := false
  vector : BitVec 11 := 0
  window : Mem := []
  cmd : Option Req := none
  code : W16 := 0
  toRead : Option (W64 × Nat) := none
  fetched : Bool := false
  toWrite : Option (W64 × Bytes × Bytes) := none
deriving DecidableEq, Repr

/-- The software digest context of a mailbox (R256, Table 10.11): function, chaining value, the partial block and the bytes absorbed. -/
structure Dig where
  st : DigSt := .idle
  ph : Nat := 0
  chain : Bytes := []
  part : Bytes := []
  count : Nat := 0
deriving DecidableEq, Repr

/-- Slice dispatcher counters (Table 6.7). -/
structure SliceCtrs where
  admitted : Ctr := {}
  done : Ctr := {}
  wait : Ctr := {}
  run : Ctr := {}
  held : Ctr := {}
deriving DecidableEq, Repr

/-- The migration side of a slice: the token and transport secrets of a RECEIVING slice, and what the last MIG_SAVE wrote. -/
structure Migration where
  token : Option Bytes := none
  secret : Bytes := []
  request : Bytes := []
  savedToken : Bytes := []
  savedDigest : Bytes := []
deriving DecidableEq, Repr

/-- A slice (chapter 09): state, attributes, rings, latch, mailbox, counters, bucket, quiesce, TDI, replication. `carried` is the sealing
key that a migration brought (Table 9.7); `aka` are the numbers the slice had before, which its sealed objects carry, and `ctrAka` the counters
that stand for those of other numbers (log 140). -/
structure Slice where
  st : SliceSt := .free
  since : W64 := 0
  adsor : Bool := false
  quota : Quota := {}
  weight : Nat := 16
  ceiling : Fin 8 := 5
  pasid : Option (Option (BitVec 20)) := none
  vecBase : Nat := 0
  vecCount : Nat := 0
  migPolicy : Byte := 1
  migDigest : Bytes := []
  sealGen : Nat := 0
  sealCtr : Nat := 0
  sealCeil : Nat := 0
  carried : Option Bytes := none
  aka : List Nat := []
  ctrAka : Tab Nat := []
  defTemplate : Bytes := []
  sesTemplate : Bytes := []
  sq : Vector Sq 8 := Vector.replicate 8 {}
  cq : Vector Cq 8 := Vector.replicate 8 {}
  err : ErrLatch := {}
  mbx : Mbx := {}
  ctr : SliceCtrs := {}
  bucket : Int := 0
  quiesceAt : W64 := 0
  quiesceQ : Nat := 0
  forced : Bool := false
  mig : Migration := {}
  tdi : TdiSt := .unlocked
  stream : Fin 4 := 0
  replicated : Bool := false
  spread : Bool := false
  members : List (BitVec 12) := []
  replSeq : Nat := 0
  nextObject : Nat := 0
deriving DecidableEq, Repr

/-! ### Jobs (chapters 01, 06, 07) -/

/-- A descriptor (Table 7.8). -/
structure Desc where
  opcode : W16 := 0
  priority : Byte := 0
  flags : Byte := 0
  skein : W32 := 0
  handle : W32 := 0
  tag : W32 := 0
  inAddr : W64 := 0
  inLen : Nat := 0
  outCap : Nat := 0
  outAddr : W64 := 0
  parAddr : W64 := 0
  inline : W64 := 0
  aux : Nat := 0
  reserved : BitVec 24 := 0
  control : Byte := 0
deriving DecidableEq, Repr

/-- A catalogue entry (Table 7.17) with the masking order, and for a customer entry its record's own limits (Table 5.13). -/
structure Entry where
  opcode : W16 := 0
  takesKey : Bool := false
  draws : Bool := false
  secretIn : Bool := false
  preemptible : Bool := false
  coop : Bool := false
  customer : Bool := false
  rimAssist : Bool := false
  adsor : Bool := false
  takesParam : Bool := false
  cls : Fin 3 := 0
  latClass : Fin 8 := 0
  order : Fin 3 := 0
  wales : Nat := 0
  codePairs : Nat := 0
  opmem : Nat := 0
  qmem : Nat := 0
  cost : Nat := 1
  maxIn : Nat := 0
  maxOut : Nat := 0
  latency : Nat := 0
  address : BitVec 14 := 0
  keyType : W16 := 0
  kstore : Bool := false
  scratch : Nat := 0
  scratchLen : Nat := 0
  limit : Nat := 0
  ddr5 : Bool := false
deriving DecidableEq, Repr

/-- Where a job stands: its gather lists walked between admission and grant; on a ready list; granted and taking its inputs;
running; its result at the comparators; releasing output; spilled; waiting on the journal or a counter; its record held in
skein order; forwarded to a neighbour. -/
inductive Phase where
  | walking | ready | loading | running | comparing | output | spilled | waiting | held | forwarded
deriving DecidableEq, Repr

/-- What a successful job does to the key store and slice when it is released. -/
inductive Effect where
  | createKey (k : Key) (detail : Bool)
  | keepPk (handle : W32)
  | deleteKey (handle : W32)
  | putKey (handle : W32) (k : Key)
  | loadKey (handle : W32) (k : Key)
  | restrict (handle : W32) (k : Key)
  | setTemplates (d : Bytes) (n : Bytes)
  | allocCtr (n : Nat)
  | freeCtr (n : Nat)
  | bindCtr (n : Nat)
  | storeObject
  | sendShare (handle : W32) (dest : W32)
deriving DecidableEq, Repr

/-- The result a job presents: status, Detail, output bytes, the effects a SUCCESS has, and the object it writes to DDR5. -/
structure JobResult where
  status : W16 := 0
  detail : W32 := 0
  out : Bytes := []
  effects : List Effect := []
  ddr : Bytes := []
deriving DecidableEq, Repr

/-- A job (R141 to R152, R193 to R200, R242). `walks` lists the gather lists still to be walked, the first in progress at `walkAt`
with `links` links followed, `segs` the last segments and `segCount` entries read of this one; `pieces` holds the walked lists by
buffer; `walkTr` says that the segment's translation is there and `walkAsked` that the entry's read is out. `needDdr` and `needOut` say what of
its output has not yet begun, `begun` that a write of it has been issued, `sent` a write to the host (R289); `noted` names the note that ended it
while that note is in its merge window (R311), `spare` counts the spilled parts that are back on the ready list (R152), `early` is what
a run has released before its message has come whole (R119); `ddrNeed` is the DDR5 pages a new object of it takes and `ddrNo` its number. `chan` is the
channel its inputs move on (R193), `dev` marks the job of a DEV_KEY_CREATE (R248), `fixed` the length of the input's fixed fields and `passes` the fetches of its streamed message that have not
ended (R413). -/
structure Job where
  id : Nat
  slice : SliceId
  ring : Fin 8
  index : Nat
  desc : Desc := {}
  entry : Entry := {}
  seq : W32 := 0xFFFFFFFF
  skein : Option Nat := none
  jobSeq : W16 := 0
  level : Fin 8 := 0
  phase : Phase := .ready
  admittedAt : W64 := 0
  readySince : W64 := 0
  levelAt : W64 := 0
  grantedAt : W64 := 0
  passedOver : Option W64 := none
  waited : Nat := 0
  result : JobResult := {}
  ended : Bool := false
  wales : List WaleId := []
  width : Nat := 1
  passedParts : List Nat := []
  timeRed : Bool := false
  quad : Nat := 0
  codePair : Option (Fin 2) := none
  pages : List Nat := []
  cq : Fin 8 := 0
  holding : Bool := false
  heldAt : W64 := 0
  input : Bytes := []
  param : Bytes := []
  object : Bytes := []
  haveIn : Bool := true
  havePar : Bool := true
  haveObj : Bool := true
  walks : List Buf := []
  walkAt : W64 := 0
  links : Nat := 0
  segs : List W64 := []
  segCount : Nat := 0
  walkAsked : Bool := false
  walkTr : Bool := false
  pieces : Tab (List (W64 × Nat)) := []
  useHeld : Bool := false
  needsCommit : Bool := false
  reservedKst : Nat := 0
  reservedCtr : Option Nat := none
  oneTime : Nat := 0
  order : BitVec 2 := 0
  keyObj : Key := {}
  keyTwo : Key := {}
  dmaOpen : Nat := 0
  needDdr : Bool := false
  needOut : Bool := false
  ddrNeed : Nat := 0
  ddrNo : Nat := 0
  chan : Option Nat := none
  fixed : Nat := 0
  passes : Nat := 0
  begun : Bool := false
  sent : Bool := false
  noted : Option (W64 × W16) := none
  spare : Nat := 0
  early : Option JobResult := none
  mark : Nat := 0
  forwardTo : Option PortId := none
  spread : Bool := false
  remote : Option (PortId × Nat) := none
  dev : Bool := false
deriving DecidableEq, Repr

/-! ### Dispatcher, quadrants, channels -/

/-- An open skein (R142): the next sequence number and the unwritten members, oldest first. -/
structure Skein where
  slice : SliceId := 0
  next : W32 := 0
  members : List Nat := []
deriving DecidableEq, Repr

/-- The round-robin pointer of a level (R135): the slice it stands at or has moved past, and whether it rests there. -/
structure Pointer where
  slice : Nat := 1023
  rests : Bool := false
deriving DecidableEq, Repr

/-- The dispatcher (Tables 6.2, 6.3, 6.5). -/
structure Dispatcher where
  cfg : W32 := 0x40082501
  warm : Vector W32 4 := Vector.replicate 4 0x00101004
  pointer : Tab Pointer := []
  deficit : Tab Nat := []
  reserved : Tab Nat := []
  skeins : Tab Skein := []
  next : Nat := 0
  grants : Ctr := {}
  coldGrants : Ctr := {}
  trJobs : Ctr := {}
  coopPairs : Ctr := {}
  coopJobs : Ctr := {}
  preempts : Ctr := {}
  holdStalls : Ctr := {}
  promotions : Ctr := {}
deriving DecidableEq, Repr

/-- A DMA record (Table 8.9). -/
structure DmaRec where
  ts : W64
  source : W16
  cause : Byte
  write : Bool
  target : BitVec 3
  gather : Bool
  lastBeat : Bool
  got : Nat
  addr : W64
  slice : SliceId
  jobSeq : W16
  buf : Buf
  job : Nat
deriving DecidableEq, Repr

/-- A lock held at a crossbar target (R155 to R159). -/
structure Lock where
  owner : Fin 26
  beats : Nat
  since : W64
deriving DecidableEq, Repr

/-- A lock asked for and not yet granted (R158). -/
structure LockAsk where
  owner : Fin 26
  target : Nat
  beats : Nat
deriving DecidableEq, Repr

/-- A quadrant (chapters 04, 06, 08, 15): `mem` is its shared memory with the S tags of its 4 KiB pages in `memS` (R90), `codeHeld` the job
whose working state each code engine holds; `binWant` is a bin change that has still to start, `binTo` one whose PLL relocks. -/
structure Quad where
  pllRun : Bool := false
  pllLocked : Bool := false
  bin : Fin 5 := 0
  binTo : Option (Fin 5) := none
  binWant : Option (Fin 5) := none
  onNet : Bool := false
  hold : Bool := false
  spills : List Spill := []
  mem : Mem := []
  memS : List Nat := []
  codeHeld : Vector (Option Nat) 4 := Vector.replicate 4 none
  records : List DmaRec := []
  locks : Tab Lock := []
  lockAsks : List LockAsk := []
  ages : Tab (Fin 16) := []
  lost : Ctr := {}
  stale : Ctr := {}
  lockCnt : Ctr := {}
  lockTo : Ctr := {}
  quietSince : W64 := 0
deriving DecidableEq, Repr

/-- A transfer of a DMA channel (R192, R198): `pieces` are the address ranges not yet issued and `remain` (REMAIN) their sum,
`asked` the requests unanswered, oldest first, `count` the bytes whose responses were received; `got` is what a read has brought, or what a write
has still to send. A transfer that fails or is stopped issues nothing more and drains; `cause` says why it failed. `stream` marks the read of a
message that the operation takes while it runs (R413); `group` is the data group that serves it (R194) and `tag` the Tag of its job. -/
structure Xfer where
  job : Nat
  buf : Buf
  write : Bool := false
  target : BitVec 3 := 0
  addr : W64 := 0
  len : Nat := 0
  pieces : List (W64 × Nat) := []
  remain : Nat := 0
  asked : List (W64 × Nat) := []
  count : Nat := 0
  stream : Bool := false
  got : Bytes := []
  gather : Bool := false
  translated : Bool := true
  cause : Byte := 0
  failAddr : W64 := 0
  lastBeat : Bool := false
  slice : SliceId := 0
  jobSeq : W16 := 0
  tag : W32 := 0
  group : Fin 4 := 0
deriving DecidableEq, Repr

/-- A DMA channel with its error latch (Table 8.8). -/
structure Chan where
  xfer : Option Xfer := none
  halted : Bool := false
  kept : Option DmaRec := none
  valid : Bool := false
  ovf : Bool := false
  cause : Byte := 0
  write : Bool := false
  target : BitVec 3 := 0
  slice : SliceId := 0
  jobSeq : W16 := 0
  addr : W64 := 0
  time : W64 := 0
  remain : W32 := 0
  count : W32 := 0
deriving DecidableEq, Repr

/-- An object in DDR5 (R206), by its number within the slice: its length, its channel and its consecutive 4 KiB pages. The bytes themselves lie outside the boundary
(R23) and come back with the read that fetches them. -/
structure DdrObject where
  slice : SliceId
  number : W32
  len : Nat
  chan : Fin 2
  page : Nat
  pages : Nat
deriving DecidableEq, Repr

/-- The DDR5 controller: capacity fitted per channel in MiB, training, the objects, those that jobs are writing by job, and the retired pages
(R206 to R208). -/
structure Ddr where
  fitted : Vector Nat 2 := Vector.replicate 2 0
  trained : Vector Bool 2 := Vector.replicate 2 false
  objects : List DdrObject := []
  writes : List (Nat × DdrObject) := []
  retired : Vector (List Nat) 2 := Vector.replicate 2 []
  selfRefresh : Bool := false
deriving DecidableEq, Repr

/-! ### Host link, registers, management -/

/-- What the device puts on the host link and its pins, newest first in `State.link`. -/
inductive LinkOp where
  | write (addr : W64) (bytes : Bytes) (pasid : Option (BitVec 20)) (ordered : Bool)
  | read (addr : W64) (len : Nat) (pasid : Option (BitVec 20))
  | msix (vector : Nat) (addr : W64) (data : W32)
  | invalidateDone (s : SliceId) (page : BitVec 52)
  | withy (p : PortId) (number : W64) (what : String) (body : Bytes)
  | spdm (via : SpdmVia) (secured : Bool) (body : Bytes)
  | pmbus (mv : Nat)
  | jtag (v : W32)
  | unexpected
deriving DecidableEq, Repr

/-- What the SPDM responder keeps of one transport's connection (R165): the version (0 before it is chosen), whether the signature and hash and the
key agreement and AEAD are agreed, the key exchanges not yet finished and the sessions open. -/
structure SpdmConn where
  version : Byte := 0
  algs : Bool := false
  kex : Bool := false
  handshakes : Nat := 0
  sessions : Nat := 0
deriving DecidableEq, Repr

/-- The host-facing registers: events (Table 7.3), MSI-X, PCIe configuration (its reset values are PCIe's, log 122), SPDM and IDE (R163 to R169).
`invals` are the ATS invalidations that wait for a channel's output (R197); `aerStatus` and `aerMask` are AER's uncorrectable errors, of which the
block reports the unexpected completion, bit 16 (R199), `l1` and `ltr` the enables of ASPM L1 and LTR (log 167). -/
structure HostIf where
  evtStatus : Byte := 0
  evtEnable : Byte := 0
  evtVector : BitVec 11 := 0
  msixAddr : Tab W64 := []
  msixData : Tab W32 := []
  msixOpen : List Nat := []
  pba : List Nat := []
  ats : Bool := false
  mps : Nat := 128
  mrrs : Nat := 512
  relaxed : Bool := true
  msixOn : Bool := false
  pasidOn : Bool := false
  invals : List (SliceId × BitVec 52 × Nat) := []
  aerStatus : W32 := 0
  aerMask : W32 := 0x00400000
  l1 : Bool := false
  ltr : Bool := false
  configured : Bool := false
  doe : SpdmConn := {}
  mctp : SpdmConn := {}
  ide : BitVec 4 := 0
  perst : Bool := false
  flrAt : Option W64 := none
deriving DecidableEq, Repr

/-- A measurement register: its two banks (R254). -/
structure Bank where
  sha2 : Bytes := List.replicate 48 0
  sha3 : Bytes := List.replicate 48 0
deriving DecidableEq, Repr

/-- An entry of the measurement event log (R255). -/
structure MeasEvent where
  reg : Nat
  ts : W64
  sha2 : Bytes
  sha3 : Bytes
  kind : Byte
deriving DecidableEq, Repr

/-- The digest snooper and attestation block (R254 to R263). -/
structure Attest where
  regs : Tab Bank := []
  events : List MeasEvent := []
  overflow : Bool := false
  nonce : Option Bytes := none
  digs : Tab Dig := []
deriving DecidableEq, Repr

/-- A firmware slot (Table 16.3, R385). -/
structure FwSlot where
  valid : Bool := false
  version : W32 := 0
  security : Nat := 0
  digest : Bytes := []
deriving DecidableEq, Repr

/-- The JTAG instructions (R406). -/
inductive JtagIr where | bypass | idcode | samplePreload | extest | highz
deriving DecidableEq, Repr

/-- Where the trial of a slot stands (R385). -/
inductive Trial where | none | pending (left : Nat) | pendingCommit
deriving DecidableEq, Repr

/-- Start-up, firmware and JTAG (chapter 16, R398, R406). `custImage` is the resident customer image that firmware keeps
in Rim SRAM (R105), empty where there is none; `csBad` holds the wales whose read-back fails in the CS_LOAD in progress. -/
structure Boot where
  aonUp : Bool := false
  coreUp : Bool := false
  pwrOk : Bool := false
  ready : Bool := false
  rimUp : Bool := false
  recovery : Bool := false
  csLoaded : Bool := false
  fencesDone : Bool := false
  releasedAt : W64 := 0
  slots : Vector FwSlot 2 := #v[{ valid := true }, {}]
  active : Fin 2 := 0
  running : Fin 2 := 0
  trialSlot : Option (Fin 2) := none
  trial : Trial := .none
  restarts : List W64 := []
  jtagHeld : Bool := false
  jtagIr : JtagIr := .idcode
  interrupted : Bool := false
  trialFailed : Option (Fin 2) := none
  catGen : W32 := 0
  custEntries : List Entry := []
  custImage : Bytes := []
  csBad : W64 := 0
  pmbus : BitVec 7 := 0
deriving DecidableEq, Repr

/-- A plan entry (R327). -/
structure PlanEntry where
  member : BitVec 12
  digest : Bytes
  standby : Bool
deriving DecidableEq, Repr

/-- What the boot flash keeps (Table 16.1): the journal's view of keys, slices and policies with its epoch, the fault region's
fences and notes, the ageing region. -/
structure Flash where
  keys : Tab Key := []
  slices : Tab Slice := []
  kstPolicy : W32 := 0x17F
  tamPolicy : Policy := {}
  rngCfg : W32 := 0xFF01
  fzPolicy : Byte := 1
  holdLimit : Nat := 10
  replGrace : Nat := 60
  written : Bool := false
  epoch : Nat := 0
  fences : List FenceRec := []
  faults : List (W32 × Note) := []
  ages : Tab Ageing := []
  bins : Vector (Fin 5) 4 := Vector.replicate 4 0
  pwrCfg : W32 := 0x0AB40000
  ageCfg : W32 := 0x00890000
  plan : List PlanEntry := []
  fabricMaster : Bool := false
deriving DecidableEq, Repr

/-- Power and ageing, device-wide (chapter 15): `rail` is the voltage commanded in mV, `moving` while a step of it has not ended, `tcase` the
estimate in 0.1 °C, `overSince` since when the current exceeds its limit, `lastRail` the last READ_VOUT before AVS was lost. -/
structure Power where
  dev : DevSt := .starting
  avsLost : Bool := false
  ioutHold : Bool := false
  derated : Bool := false
  rail : Nat := 800
  railWant : Nat := 800
  vout : Nat := 0
  iout : Nat := 0
  retries : Nat := 0
  moving : Bool := false
  commandedAt : W64 := 0
  overSince : Option W64 := none
  tj : Tjs := {}
  tcase : Int := 0
  coolSince : Option W64 := none
  cfg : W32 := 0x0AB40000
  ageCfg : W32 := 0x00890000
  lastRail : Nat := 0
deriving DecidableEq, Repr

/-- A Withy port (Table 14.3, R323 to R326, R343). `frame` is the number of the next frame expected and `sent` of the next frame sent, `keys` the keys
of the link's two directions. -/
structure Port where
  st : PortSt := .off
  role : PortRole := .off
  lanes : BitVec 2 := 0
  promoted : Bool := false
  peer : BitVec 12 := 0
  reason : BitVec 4 := 0
  downs : Byte := 0
  retryAt : Option W64 := none
  frame : W64 := 0
  sent : W64 := 0
  keys : Bytes := []
  drops : Nat := 0
  lastValid : W64 := 0
  keyedAt : W64 := 0
  keyFrames : Nat := 0
  downTimes : List W64 := []
  spreadWait : Nat := 4
  idle : Nat := 0
  refusedAt : Option W64 := none
deriving DecidableEq, Repr

/-- What the master keeps of a member (R328, R334, R342). -/
structure Member where
  joined : Bool := false
  lost : Bool := false
  quarantined : Bool := false
  lastSeen : W64 := 0
  depth : Nat := 0
deriving DecidableEq, Repr

/-- The fabric (chapter 14). `paths` holds the DOWN port that a member of the subtree is reached by (R333). `rate` is the steering in force and `freq`
the last measured frequency offset, in parts per 10^9, `phase` what of a nanosecond the rate has gathered (R330 to R332). -/
structure Fabric where
  ports : Vector Port 4 := Vector.replicate 4 {}
  number : Option (BitVec 12) := none
  master : Bool := false
  masterNo : BitVec 12 := 0
  depth : Nat := 0
  plan : List PlanEntry := []
  members : Tab Member := []
  standby : Bool := false
  eligible : Bool := false
  committing : Bool := true
  holdLimit : Nat := 10
  replGrace : Nat := 60
  lastMaster : W64 := 0
  lostMaster : Bool := false
  holdSince : Option W64 := none
  good : Nat := 0
  fzPolicy : Byte := 1
  cutOff : Bool := false
  isolated : List (BitVec 12) := []
  paths : Tab PortId := []
  rate : Int := 0
  freq : Int := 0
  phase : Int := 0
  seenNotices : List (BitVec 12 × W64) := []
deriving DecidableEq, Repr

/-! ### The whole -/

/-- Everything of the device but the queue of waiting commands. -/
structure Block where
  now : W64 := 0
  nowHi : W32 := 0
  wrapped : Bool := false
  timeFabric : Bool := false
  timeLocked : Bool := false
  holdover : Bool := false
  bat : Battery := {}
  otp : Otp := {}
  tam : Tamper := {}
  flt : Faults := {}
  rng : Rng := {}
  kst : KeyStore := {}
  slices : Tab Slice := []
  jobs : List Job := []
  dsp : Dispatcher := {}
  wales : Tab Wale := []
  quads : Tab Quad := []
  chans : Tab Chan := []
  ddr : Ddr := {}
  host : HostIf := {}
  admin : Mbx := {}
  att : Attest := {}
  boot : Boot := {}
  flash : Flash := {}
  pwr : Power := {}
  wty : Fabric := {}
  link : List LinkOp := []
deriving DecidableEq, Repr

/-- The machine: the block and the commands that wait, first in, first out. -/
structure State extends Block where
  pending : List Instr := []
deriving DecidableEq, Repr

/-- The machine right after reset: before VDD_AON has reached its range, nothing listed, every register at the value of its
declaration above (assumption log 1), and no command waiting. -/
def State.reset : State := {}

/-- A step never stops with a fault: every command has the effect the spec gives it, so no constructor is needed. -/
inductive Fault where
deriving DecidableEq, Repr

/-- Why a step may be refused. -/
inductive Refusal where
  /-- Raised by the arm of a command whose meaning has not been written; safe, the machine stops. -/
  | notModelled (mnemonic : String)
deriving DecidableEq, Repr

end Sys2Proof.Machine
end

