-- ==== Sys2Proof/Machine/Operands.lean ====
section
/-! DEFINITION. Operand forms: byte strings and their fields (R7), byte memories, and the layouts of descriptors (Table 7.8),
completion records (Table 7.9), notes, tamper records and mailbox frames. -/
namespace Sys2Proof.Machine

/-! ### Byte strings -/

/-- `n` bytes of a number, least significant first (R7). -/
def le : Nat → Nat → Bytes
  | 0, _ => []
  | n + 1, v => BitVec.ofNat 8 v :: le n (v / 256)

/-- `n` bytes of a number, most significant first. -/
def be (n v : Nat) : Bytes := (le n v).reverse

/-- The number a little-endian byte string holds. -/
def ofLe : Bytes → Nat
  | [] => 0
  | b :: r => b.toNat + 256 * ofLe r

/-- The number a big-endian byte string holds. -/
def ofBe (b : Bytes) : Nat := ofLe b.reverse

/-- `len` bytes from offset `off` (what lies past the end is missing). -/
def sub (b : Bytes) (off len : Nat) : Bytes := (b.drop off).take len

/-- A little-endian field of `n` bytes at offset `off`. -/
def fld (b : Bytes) (off n : Nat) : Nat := ofLe (sub b off n)

/-- `n` zero bytes. -/
def zeros (n : Nat) : Bytes := List.replicate n 0

/-- Exactly `n` bytes: cut, or filled with zeros. -/
def fit (n : Nat) (b : Bytes) : Bytes := (b ++ zeros n).take n

/-- Are all bytes zero? -/
def allZero (b : Bytes) : Bool := b.all (· == 0)

/-- Bits [hi:lo] of a number. -/
def bits (v hi lo : Nat) : Nat := v / 2 ^ lo % 2 ^ (hi + 1 - lo)

/-- Bit i of a number. -/
def bit (v i : Nat) : Bool := v.testBit i

/-- A Bool as a bit. -/
def b1 (b : Bool) : Nat := if b then 1 else 0

/-- The low `n` bytes `Config` gives for an algorithm of an outside standard (log 2). -/
def algBytes (a : Alg) (set : Nat) (args : List Bytes) (n : Nat) : Bytes :=
  (List.range n).map (Config.algByte a set args)

/-- Round up to a multiple. -/
def roundUp (n k : Nat) : Nat := (n + (k - 1)) / k * k

/-! ### Byte memories -/

/-- The byte at an address; zero where none is listed. -/
def Mem.read (m : Mem) (a : Nat) : Byte := Tab.get 0 m a

/-- Write one byte, keeping the form: addresses rising, zero bytes not listed. -/
def Mem.write : Mem → Nat → Byte → Mem
  | [], a, v => if v = 0 then [] else [(a, v)]
  | (k, x) :: r, a, v =>
    if k = a then (if v = 0 then r else (a, v) :: r)
    else if a < k then (if v = 0 then (k, x) :: r else (a, v) :: (k, x) :: r)
    else (k, x) :: Mem.write r a v

/-- Write a byte string from an address on. -/
def Mem.writeAll : Mem → Nat → Bytes → Mem
  | m, _, [] => m
  | m, a, v :: r => Mem.writeAll (Mem.write m a v) (a + 1) r

/-- `n` bytes from an address on. -/
def Mem.readAll (m : Mem) (a n : Nat) : Bytes := (List.range n).map (fun i => Mem.read m (a + i))

/-- Drop every byte of [lo, hi): what a wipe leaves (R98). -/
def Mem.clear (m : Mem) (lo hi : Nat) : Mem := m.filter (fun c => c.1 < lo || hi ≤ c.1)

/-- All addresses of a memory lie above `a` and rise strictly, and no listed byte is zero. -/
def Mem.wfFrom : Nat → Mem → Bool
  | _, [] => true
  | a, (k, v) :: r => decide (a ≤ k) && decide (v ≠ 0) && Mem.wfFrom (k + 1) r

/-- The canonical form of a byte memory. -/
def Mem.wf (m : Mem) : Bool := Mem.wfFrom 0 m

/-! ### Descriptors and records -/

/-- Table 7.8 read from 64 bytes. -/
def parseDesc (b : Bytes) : Desc :=
  { opcode := BitVec.ofNat 16 (fld b 0 2), priority := BitVec.ofNat 8 (fld b 2 1), flags := BitVec.ofNat 8 (fld b 3 1),
    skein := BitVec.ofNat 32 (fld b 4 4), handle := BitVec.ofNat 32 (fld b 8 4), tag := BitVec.ofNat 32 (fld b 0xC 4),
    inAddr := BitVec.ofNat 64 (fld b 0x10 8), inLen := fld b 0x18 4, outCap := fld b 0x1C 4,
    outAddr := BitVec.ofNat 64 (fld b 0x20 8), parAddr := BitVec.ofNat 64 (fld b 0x28 8),
    inline := BitVec.ofNat 64 (fld b 0x30 8), aux := fld b 0x38 4, reserved := BitVec.ofNat 24 (fld b 0x3C 3),
    control := BitVec.ofNat 8 (fld b 0x3F 1) }

/-- OWN of a descriptor (Table 7.8). -/
def Desc.own (d : Desc) : Bool := d.control.getLsbD 7
/-- IRQ_ON_DONE. -/
def Desc.irq (d : Desc) : Bool := d.flags.getLsbD 0
/-- FENCE (R141). -/
def Desc.fence (d : Desc) : Bool := d.flags.getLsbD 1
/-- COOP_OK (R47). -/
def Desc.coopOk (d : Desc) : Bool := d.flags.getLsbD 2
/-- SKEIN_VALID (R142). -/
def Desc.skeinValid (d : Desc) : Bool := d.flags.getLsbD 3

/-- An Adsor opcode's native counterpart; a native opcode is its own (R418). -/
def native (op : Nat) : Nat := if 0x3000 ≤ op ∧ op < 0x4000 then op - 0x3000 + 0x100 else op

/-- The native opcode of a job. -/
def Job.op (j : Job) : Nat := native j.desc.opcode.toNat

/-- Is a job one of a slice? The job of a DEV_KEY_CREATE belongs to none (R248). -/
def Job.inSlice (j : Job) (s : SliceId) : Bool := !j.dev && j.slice == s
/-- The ready list a job stands on: its slice's, or the device's, which the round robin visits behind every slice (log 133). -/
def Job.list (j : Job) : Nat := if j.dev then 1024 else j.slice.val

/-- Is a key used under leases: replicated, with a use limit (R339)? -/
def Key.underLease (k : Key) : Bool := k.replicated && k.useLimit != 0

/-- Table 7.9: the 32 bytes of a completion record written at time `now`. -/
def recordBytes (j : Job) (now : W64) : Bytes :=
  le 4 j.desc.tag.toNat ++ le 2 j.result.status.toNat ++ le 2 j.desc.opcode.toNat ++ le 4 j.result.out.length ++
  le 4 j.seq.toNat ++ le 8 now.toNat ++ le 4 j.result.detail.toNat ++ le 2 j.index ++ le 1 j.ring.val ++ [0x80]

/-- Table 13.11: the 32 bytes of a fault note. -/
def noteBytes (n : Note) : Bytes :=
  le 8 n.ts.toNat ++ le 2 n.source.toNat ++ [n.kind] ++ le 1 n.cls.val ++ le 4 n.detail.toNat ++ le 8 n.addr.toNat ++
  le 2 n.slice.toNat ++ le 2 n.jobSeq.toNat ++ le 4 n.tag.toNat

/-- Table 13.13: the 32 bytes of a fence record. -/
def fenceRecBytes (f : FenceRec) : Bytes :=
  le 2 f.unit.toNat ++ le 2 f.source.toNat ++ [f.kind] ++ le 1 f.cls.val ++ zeros 2 ++ le 4 f.detail.toNat ++
  le 4 f.seq.toNat ++ le 8 f.ts.toNat ++ le 4 f.boot.toNat ++ zeros 4

/-- The code of a response (Table 12.2). -/
def Resp.code : Resp → Nat
  | .log => 0 | .alert => 1 | .halt => 2 | .zeroise => 3 | .zeroiseSeal => 4

/-- The response a code names (Table 12.2); codes 5 to 7 are reserved. -/
def Resp.ofCode : Nat → Option Resp
  | 0 => some .log | 1 => some .alert | 2 => some .halt | 3 => some .zeroise | 4 => some .zeroiseSeal | _ => none

/-- Table 12.9: the 32 bytes of a tamper event record. -/
def eventBytes (e : Event) : Bytes :=
  le 8 e.ts.toNat ++ le 8 e.rtc.toNat ++ le 2 e.source.toNat ++ le 1 e.conf.code ++ le 1 e.eff.code ++
  le 4 e.detail.toNat ++ le 4 e.seq.toNat ++ [e.flags] ++ zeros 3

/-- Table 12.7: the 64 bytes of a tamper policy. -/
def policyBytes (p : Policy) : Bytes :=
  [1, 0, 0, 0] ++ (p.resp.zip p.filter).map (fun x => BitVec.ofNat 8 (x.1.code + 16 * x.2)) ++
  le 1 p.closed.toNat ++ zeros 43

/-- The code of a lifecycle state (Table 10.14). -/
def Lifecycle.code : Lifecycle → Nat
  | .factory => 1 | .provisioned => 2 | .deployed => 3 | .decommissioned => 4 | .spent => 5

/-- The code of a slice state (Table 9.1). -/
def SliceSt.code : SliceSt → Nat
  | .free => 0 | .quiesced => 1 | .active => 2 | .quiescing => 3 | .wedged => 4 | .frozen => 5 | .receiving => 6

/-- The code of a wale state (Table 4.4). -/
def WaleSt.code : WaleSt → Nat
  | .gated => 0 | .clockGated => 1 | .warm => 2 | .running => 3 | .wiping => 4 | .spilling => 5 | .fenced => 6

/-- The code of a key store state (R423). -/
def KstSt.code : KstSt → Nat
  | .locked => 0 | .unlocked => 1 | .sweeping => 2 | .zeroised => 3 | .closed => 4

/-- The code of a source state (Table 11.13). -/
def SrcSt.code : SrcSt → Nat
  | .off => 0 | .starting => 1 | .healthy => 2 | .suspect => 3 | .fenced => 4

/-- The code of a seeder state (Table 11.13). -/
def SeedSt.code : SeedSt → Nat
  | .init => 0 | .seeded => 1 | .relayed => 2 | .paused => 3 | .stopped => 4

/-- The code of a port state (Table 14.3). -/
def PortSt.code : PortSt → Nat
  | .off => 0 | .training => 1 | .auth => 2 | .keys => 3 | .join => 4 | .up => 5 | .fenced => 6

/-- The code of a port role (Table 14.1). -/
def PortRole.code : PortRole → Nat
  | .up => 0 | .down => 1 | .alt => 2 | .off => 3

/-- The role a code names (Table 14.1). -/
def PortRole.ofCode : Nat → PortRole
  | 0 => .up | 1 => .down | 2 => .alt | _ => .off

/-- The code of the device power state (Table 15.9). -/
def DevSt.code : DevSt → Nat
  | .run => 0 | .idle => 1 | .standby => 2 | .starting => 3

/-- The BUFFER code of a DMA buffer (Table 8.7). -/
def Buf.code : Buf → Nat
  | .input => 0 | .output => 1 | .param => 2 | .ddrRead => 3 | .gather => 4

/-- Table 10.4: the 64 bytes of a key's attribute record. -/
def attrBytes (k : Key) : Bytes :=
  le 2 k.typ.toNat ++ le 2 k.usage.toNat ++ [k.order] ++
  le 1 (b1 k.expire + 2 * b1 k.noMigrate + 4 * b1 k.bound) ++ [k.origin, 0] ++ le 8 k.useLimit.toNat ++
  le 8 k.useCount.toNat ++ le 2 k.granule.toNat ++ le 2 k.keyLen.toNat ++ le 4 k.ctr.toNat ++ le 8 k.label.toNat ++ zeros 24

/-- The key a 64-byte attribute record describes, without its material (Table 10.4). -/
def parseAttr (b : Bytes) : Key :=
  let fl := fld b 5 1
  { typ := BitVec.ofNat 16 (fld b 0 2), usage := BitVec.ofNat 16 (fld b 2 2), order := BitVec.ofNat 8 (fld b 4 1),
    expire := bit fl 0, noMigrate := bit fl 1, bound := bit fl 2, origin := BitVec.ofNat 8 (fld b 6 1),
    useLimit := BitVec.ofNat 64 (fld b 8 8), useCount := BitVec.ofNat 64 (fld b 0x10 8),
    granule := BitVec.ofNat 16 (fld b 0x18 2), keyLen := BitVec.ofNat 16 (fld b 0x1A 2),
    ctr := BitVec.ofNat 32 (fld b 0x1C 4), label := BitVec.ofNat 64 (fld b 0x20 8) }

/-- Table 9.3: the 32 bytes of a quota record. -/
def quotaBytes (q : Quota) : Bytes :=
  le 2 q.wales ++ le 2 q.opmem ++ le 2 q.codePairs ++ le 2 q.channels ++ le 4 q.qmem ++ le 4 q.ddr5 ++ le 4 q.kst ++
  le 2 q.hold ++ le 2 q.rate ++ le 4 q.skeins ++ le 2 q.burst ++ zeros 2

/-- Table 9.3 read from 32 bytes. -/
def parseQuota (b : Bytes) : Quota :=
  { wales := fld b 0 2, opmem := fld b 2 2, codePairs := fld b 4 2, channels := fld b 6 2, qmem := fld b 8 4,
    ddr5 := fld b 0xC 4, kst := fld b 0x10 4, hold := fld b 0x14 2, rate := fld b 0x16 2, skeins := fld b 0x18 4,
    burst := fld b 0x1C 2 }

/-- The first failure among checks in order: each check is what makes it fail, with the status and Detail of that failure. -/
def firstFail : List (Bool × W16 × W32) → Option (W16 × W32)
  | [] => none
  | (bad, st, d) :: r => if bad then some (st, d) else firstFail r

/-! ### Status codes (Table 7.18) -/
namespace St
def success : W16 := 0x0000
def verifyReject : W16 := 0x0001
def badOpcode : W16 := 0x0100
def badParam : W16 := 0x0101
def lengthMismatch : W16 := 0x0102
def outputTooSmall : W16 := 0x0103
def inputInvalid : W16 := 0x0104
def operandRange : W16 := 0x0105
def notInvertible : W16 := 0x0106
def contextBusy : W16 := 0x0107
def keyNotFound : W16 := 0x0200
def keyUsage : W16 := 0x0201
def keyExhausted : W16 := 0x0202
def keyExpired : W16 := 0x0203
def keyState : W16 := 0x0204
def quota : W16 := 0x0300
def entropyUnavailable : W16 := 0x0301
def resourceFenced : W16 := 0x0302
def dmaError : W16 := 0x0400
def dmaLoop : W16 := 0x0401
def translationFault : W16 := 0x0402
def redundancyMismatch : W16 := 0x0500
def microcodeFault : W16 := 0x0501
def unitFault : W16 := 0x0502
def aborted : W16 := 0x0600
def fabricUnreachable : W16 := 0x0700
/-- The failing statuses of Table 7.18. -/
def failing : List W16 := [verifyReject, badOpcode, badParam, lengthMismatch, outputTooSmall, inputInvalid, operandRange, notInvertible, contextBusy,
  keyNotFound, keyUsage, keyExhausted, keyExpired, keyState, quota, entropyUnavailable, resourceFenced, dmaError, dmaLoop, translationFault,
  redundancyMismatch, microcodeFault, unitFault, aborted, fabricUnreachable]
end St

/-! ### Source numbers (R308, R13, R194, R265) -/
namespace Src
/-- Assemble a source number: level, quadrant, wale, engine, sub-unit. -/
def mk (level q w e u : Nat) : W16 := BitVec.ofNat 16 (level * 8192 + q * 2048 + w * 128 + e * 16 + u)
/-- A unit of a wale, level 3, with the sub-unit of Table 13.1. -/
def waleUnit (w : Nat) (u : Nat) : W16 := mk 3 (w / 16) (w % 16) 0 u
/-- A quadrant unit of Table 13.1. -/
def quadUnit (q u : Nat) : W16 := mk 4 q 0 0 u
/-- A device block of Table 13.1. -/
def device (block inst : Nat) : W16 := mk 5 0 block 0 inst
/-- A DMA channel (R194). -/
def chan (c : Nat) : W16 := mk 4 (c / 8) 0 1 (c % 8)
/-- A DMA group (R194). -/
def group (q g : Nat) : W16 := mk 4 q 0 2 g
/-- A noise source (R265). -/
def noise (i : Nat) : W16 := mk 4 (i / 2) 0 3 (i % 2)
/-- A seeder (R265). -/
def seeder (q : Nat) : W16 := mk 4 q 0 4 0
/-- A code engine (R13). -/
def codeEngine (q e : Nat) : W16 := mk 2 q e 6 0
/-- A tamper source (chapter 12). -/
def tamper (t : Nat) : W16 := mk 5 0 12 0 t
/-- A fabric function of a local port (R329). -/
def fabric (port fn : Nat) : W16 := mk 6 port 0 0 fn
def level (s : W16) : Nat := s.toNat / 8192
def quad (s : W16) : Nat := s.toNat / 2048 % 4
def wale (s : W16) : Nat := s.toNat / 128 % 16
def engine (s : W16) : Nat := s.toNat / 16 % 8
def unit (s : W16) : Nat := s.toNat % 16
end Src

end Sys2Proof.Machine
end

