-- ==== Sys2Proof/Machine/Ops.lean ====
section
/-! DEFINITION. The named operations the commands share: reading and replacing units, interrupts and events, writing records and
releasing skeins, ending jobs, fencing, the zeroise line, halting and sealing, fault notes and tamper alarms. Each is a total
function on the block. -/
namespace Sys2Proof.Machine

/-- The outcome of a command: the block it leaves, the queue untouched. -/
def done (b : Block) (s : State) : Host.Outcome State Fault Refusal := .next { s with toBlock := b }

/-- The Detail of a note where the spec gives its kind none: open (log 26). -/
def openDetail (kind : Byte) : W32 := BitVec.ofNat 32 (Config.freeNat 26 kind.toNat)

/-! ### Units -/

/-- Wale i (global index, R12). -/
def Block.wale (b : Block) (i : Nat) : Wale := Tab.get {} b.wales i
/-- Change wale i. -/
def Block.modWale (b : Block) (i : Nat) (f : Wale → Wale) : Block := { b with wales := Tab.put b.wales i (f (b.wale i)) }
/-- Quadrant q. -/
def Block.quad (b : Block) (i : Nat) : Quad := Tab.get {} b.quads i
/-- Change quadrant q. -/
def Block.modQuad (b : Block) (i : Nat) (f : Quad → Quad) : Block := { b with quads := Tab.put b.quads i (f (b.quad i)) }
/-- DMA channel c. -/
def Block.chan (b : Block) (i : Nat) : Chan := Tab.get {} b.chans i
/-- Change a DMA channel. -/
def Block.modChan (b : Block) (i : Nat) (f : Chan → Chan) : Block := { b with chans := Tab.put b.chans i (f (b.chan i)) }
/-- Slice s. -/
def Block.slice (b : Block) (i : Nat) : Slice := Tab.get {} b.slices i
/-- Change a slice. -/
def Block.modSlice (b : Block) (i : Nat) (f : Slice → Slice) : Block := { b with slices := Tab.put b.slices i (f (b.slice i)) }
/-- Noise source i (2q + n). -/
def Block.source (b : Block) (i : Nat) : Source1 := Tab.get {} b.rng.sources i
/-- Change a noise source. -/
def Block.modSource (b : Block) (i : Nat) (f : Source1 → Source1) : Block :=
  { b with rng := { b.rng with sources := Tab.put b.rng.sources i (f (b.source i)) } }
/-- The seeder of quadrant q. -/
def Block.seeder (b : Block) (i : Nat) : Seeder := Tab.get {} b.rng.seeders i
/-- Change a seeder. -/
def Block.modSeeder (b : Block) (i : Nat) (f : Seeder → Seeder) : Block :=
  { b with rng := { b.rng with seeders := Tab.put b.rng.seeders i (f (b.seeder i)) } }
/-- The job with a given reference, if it is in the device. -/
def Block.job (b : Block) (id : Nat) : Option Job := b.jobs.find? (fun j => j.id == id)
/-- Change a job. -/
def Block.modJob (b : Block) (id : Nat) (f : Job → Job) : Block :=
  { b with jobs := b.jobs.map (fun j => if j.id = id then f j else j) }
/-- The key entry at a handle, tombstones included. -/
def Block.key (b : Block) (h : W32) : Option Key :=
  (b.kst.keys.find? (fun p => p.1 == h.toNat)).map (·.2)
/-- Replace or add a key entry. -/
def Block.putKey (b : Block) (h : W32) (k : Key) : Block :=
  { b with kst := { b.kst with keys := Tab.put b.kst.keys h.toNat k } }
/-- Change a key entry that exists. -/
def Block.modKey (b : Block) (h : W32) (f : Key → Key) : Block :=
  match b.key h with
  | some k => b.putKey h (f k)
  | none => b
/-- Remove a key entry. -/
def Block.dropKey (b : Block) (h : W32) : Block :=
  { b with kst := { b.kst with keys := Tab.drop b.kst.keys h.toNat } }
/-- The value of a battery-domain counter (R246). -/
def Block.counter (b : Block) (n : Nat) : Nat := Tab.get 0 b.bat.counters n
/-- Set a battery-domain counter; it never falls (R246). -/
def Block.raiseCounter (b : Block) (n v : Nat) : Block :=
  if b.counter n < v ∧ v < 2 ^ 64 then { b with bat := { b.bat with counters := Tab.put b.bat.counters n v } } else b
/-- Who holds a counter. -/
def Block.ctrOwner (b : Block) (n : Nat) : CtrOwner := Tab.get .none b.bat.owners n
/-- Give a counter to a holder. -/
def Block.setOwner (b : Block) (n : Nat) (o : CtrOwner) : Block :=
  { b with bat := { b.bat with owners := Tab.put b.bat.owners n o } }
/-- A change accepted and to be committed to the journal (R244). -/
def Block.change (b : Block) (c : Change) : Block := { b with kst := { b.kst with lag := b.kst.lag ++ [c] } }

/-- Nanoseconds from a moment to now, modulo 2^64 (R322). -/
def Block.elapsed (b : Block) (t : W64) : Nat := (b.now - t).toNat

/-- A wale's powered time: hours in any state but 0 or fenced (R367). -/
def Wale.powered (w : Wale) (ns : Nat) : Wale :=
  if w.st = .gated ∨ w.st = .fenced then w else
  let t := w.age.poweredNs + ns
  { w with age := { w.age with hours := w.age.hours + BitVec.ofNat 32 (t / 3600000000000), poweredNs := t % 3600000000000 } }

/-- BAT_RTC goes on by `d` nanoseconds: 32,768 counts in each second (R297). -/
def Battery.pass (x : Battery) (d : Nat) : Battery :=
  let t := x.rtcPhase + d * 32768
  { x with rtc := x.rtc + BitVec.ofNat 48 (t / 1000000000), rtcPhase := t % 1000000000 }

/-- The time base reaches a later moment; BAT_RTC goes on with it (R297), passing 2^64 sets WRAPPED (R322), and the powered hours of the wales go on
(R367). -/
def Block.setTime (b : Block) (e : W64) : Block :=
  let d := (e - b.now).toNat
  { b with now := e, wrapped := b.wrapped || decide (e.toNat < b.now.toNat), wales := b.wales.map (fun (p : Nat × Wale) => (p.1, p.2.powered d)),
           bat := b.bat.pass d }

/-- Bring the time base forward to `t + d` if that lies ahead of now by at most d (R322: intervals are taken modulo 2^64): what a
timer's expiry says of the time (log 7). -/
def Block.advanceTo (b : Block) (t : W64) (d : Nat) : Block :=
  if b.elapsed t < d then b.setTime (t + BitVec.ofNat 64 d) else b

/-- Add to a counter of R160. -/
def Ctr.add (c : Ctr) (n : Nat) : Ctr :=
  { ovf := c.ovf || decide (2 ^ 48 ≤ c.count.toNat + n), count := c.count + BitVec.ofNat 48 n }

/-- Has the dispatcher stopped: the device is halted (R286, R310) or sealed (R318), or the zeroise line has asserted since the start (R18)? -/
def Block.stopped (b : Block) : Bool := b.tam.halted || b.flt.halted || b.flt.sealed || b.tam.lineAt.isSome

/-! ### The host link, interrupts and events -/

/-- Something the device puts on the link or a pin. -/
def Block.emit (b : Block) (o : LinkOp) : Block := { b with link := o :: b.link }

/-- A frame sent on a Withy port takes the next number of its direction, which is its nonce (R325). -/
def Block.sendFrame (b : Block) (p : PortId) (what : String) (body : Bytes) : Block :=
  { b.emit (.withy p b.wty.ports[p].sent what body) with
    wty := { b.wty with ports := b.wty.ports.set p { b.wty.ports[p] with sent := b.wty.ports[p].sent + 1 } } }

/-- Send a device vector, or set its pending bit while it is masked (R169) or MSI-X is not enabled (log 122). -/
def Block.msix (b : Block) (v : Nat) : Block :=
  if b.host.msixOn && b.host.msixOpen.contains v then b.emit (.msix v (Tab.get 0 b.host.msixAddr v) (Tab.get 0 b.host.msixData v))
  else { b with host := { b.host with pba := v :: b.host.pba.filter (· != v) } }

/-- Send a slice's vector by its slice-relative index; an index at or above the count sends nothing (R169, R220). -/
def Block.sliceIrq (b : Block) (s : Nat) (i : Nat) : Block :=
  if i < (b.slice s).vecCount then b.msix ((b.slice s).vecBase + i) else b

/-- Set a bit of MBX_EVT_STATUS, with a message on a change of the enabled set from empty (R168). -/
def Block.event (b : Block) (i : Nat) : Block :=
  let st := b.host.evtStatus ||| (1#8 <<< i)
  let b' := { b with host := { b.host with evtStatus := st } }
  if b.host.evtStatus &&& b.host.evtEnable = 0 ∧ st &&& b.host.evtEnable ≠ 0 then b'.msix b.host.evtVector.toNat else b'

/-- A slice's change of state (R211). -/
def Block.sliceTo (b : Block) (s : Nat) (st : SliceSt) : Block :=
  (b.modSlice s (fun x => { x with st := st, since := b.now })).event 4

/-- The PASID a slice's accesses carry (R219), while the host enables PASIDs (R163, log 122). -/
def Block.pasid (b : Block) (s : Nat) : Option (BitVec 20) := if b.host.pasidOn then (b.slice s).pasid.getD none else none

/-- Host-link payload bytes of a slice, taken from its bucket (R204). -/
def Block.charge (b : Block) (s n : Nat) : Block := b.modSlice s (fun x => { x with bucket := x.bucket - n })

/-- A write to host memory under a slice's PASID. -/
def Block.hostWrite (b : Block) (s : Nat) (a : W64) (d : Bytes) : Block :=
  (b.emit (.write a d (b.pasid s) true)).charge s d.length

/-- Output data: writes split at the naturally aligned boundaries of the maximum payload size (R204), newest first in `link`. -/
def Block.outputWrites (b : Block) (s : Nat) : Nat → W64 → Bytes → Block
  | 0, _, _ => b
  | fuel + 1, a, d =>
    if d.isEmpty then b else
      let n := b.host.mps - a.toNat % b.host.mps
      Block.outputWrites ((b.emit (.write a (d.take n) (b.pasid s) false)).charge s (d.take n).length) s fuel
        (a + BitVec.ofNat 64 n) (d.drop n)

/-- Latch a ring error (R183, R184). -/
def Block.latchRing (b : Block) (s : Nat) (code : Byte) (isCq : Bool) (n : Fin 8) (index : W16) (addr : W64) : Block :=
  let e := (b.slice s).err
  if e.valid then b.modSlice s (fun x => { x with err := { x.err with ovf := true } })
  else
    let b := b.modSlice s (fun x => { x with err := { x.err with
      valid := true, code := code, cq := isCq, ring := n, index := index, addr := addr, time := b.now } })
    if e.irqEn && !e.mute then b.sliceIrq s e.vector.toNat else b

/-- Change submission ring n of a slice. -/
def Block.modSq (b : Block) (s : Nat) (n : Fin 8) (f : Sq → Sq) : Block :=
  b.modSlice s (fun x => { x with sq := x.sq.set n (f x.sq[n]) })
/-- Change completion ring n of a slice. -/
def Block.modCq (b : Block) (s : Nat) (n : Fin 8) (f : Cq → Cq) : Block :=
  b.modSlice s (fun x => { x with cq := x.cq.set n (f x.cq[n]) })

/-- Halt a submission ring on an error (R183). -/
def Block.haltSq (b : Block) (s : Nat) (n : Fin 8) (code : Byte) (index : W16) (addr : W64) : Block :=
  (b.modSq s n (fun q => { q with halted := true, busy := false })).latchRing s code false n index addr

/-- Halt a completion ring on an error (R183). -/
def Block.haltCq (b : Block) (s : Nat) (n : Fin 8) (code : Byte) (index : W16) (addr : W64) : Block :=
  (b.modCq s n (fun q => { q with halted := true })).latchRing s code true n index addr

/-! ### Completion records and skeins -/

/-- Send the vector of a completion ring, unless it awaits a rewrite (R220), and reset its count (R180). -/
def Block.announce (b : Block) (s : Nat) (n : Fin 8) : Block :=
  let c := (b.slice s).cq[n]
  let b := b.modCq s n (fun c => { c with ann := 0 })
  if c.mute then b else b.sliceIrq s c.vector.toNat

/-- Interrupt moderation after a record (R180): the count is reached, or the ring has become IDLE with a record unannounced. -/
def Block.moderate (b : Block) (s : Nat) (n : Fin 8) : Block :=
  let c := (b.slice s).cq[n]
  if c.irqEn && decide (0 < c.ann) && (decide (max 1 c.modCount.toNat ≤ c.ann) || c.a == 0) then b.announce s n else b

/-- Is everything of a slice at rest (R222)? -/
def Block.atRest (b : Block) (s : Nat) : Bool :=
  !(b.jobs.any (fun j => !j.dev && j.slice.val == s)) && !(b.slice s).mbx.busy

/-- A quiescing slice whose last item has ended becomes QUIESCED (R222). -/
def Block.checkRest (b : Block) (s : Nat) : Block :=
  if (b.slice s).st = .quiescing ∧ b.atRest s then b.sliceTo s .quiesced else b

/-! ### Mailboxes: the answer (R185, R186) -/

/-- A response: status, Detail and payload. -/
structure Reply where
  status : W16 := St.success
  detail : W32 := 0
  out : Bytes := []
deriving DecidableEq, Repr

/-- SUCCESS with a payload. -/
def Reply.ok (out : Bytes) : Reply := { out := out }
/-- A failure. -/
def Reply.fail (st : W16) (d : W32) : Reply := { status := st, detail := d }

/-- The mailbox of a request. -/
def Block.box (b : Block) (x : Option SliceId) : Mbx :=
  match x with
  | none => b.admin
  | some s => (b.slice s).mbx

/-- Change a mailbox. -/
def Block.modBox (b : Block) (x : Option SliceId) (f : Mbx → Mbx) : Block :=
  match x with
  | none => { b with admin := f b.admin }
  | some s => b.modSlice s (fun z => { z with mbx := f z.mbx })

/-- Table 7.13: the header of a response. -/
def responseHeader (r : Req) (code : W16) (y : Reply) : Bytes :=
  [3, (if r.dma then 3 else 1)] ++ le 2 code.toNat ++ le 2 r.seq.toNat ++ le 2 y.status.toNat ++ le 4 y.out.length ++ le 4 y.detail.toNat

/-- Does the slice's bucket hold `n` bytes (R204)? RATE 0 is unlimited. -/
def Block.tokens (b : Block) (s n : Nat) : Bool :=
  (b.slice s).quota.rate == 0 || decide ((n : Int) ≤ (b.slice s).bucket)

/-- The host reads of channels, gather lists and submission rings that are unanswered: each holds one of the 768 tags (R163). -/
def Block.readsOut (b : Block) : Nat :=
  b.chans.foldl (fun a p => match p.2.xfer with | some x => if x.target = 0 ∧ !x.write then a + x.asked.length else a | none => a) 0 +
    (b.jobs.filter (fun j => j.phase == .walking && j.walkAsked && !j.ended)).length +
    b.slices.foldl (fun a p => a + (p.2.sq.toList.filter (fun q => q.busy)).length) 0
/-- Is a tag free for a further host read (R163)? -/
def Block.tagFree (b : Block) : Bool := decide (b.readsOut < 768)

/-- A completion that no request awaits, or whose request has failed, is discarded and reported through AER: bit 16 of its status, and a message
unless it is masked (R199). -/
def Block.unexpected (b : Block) : Block :=
  let b := { b with host := { b.host with aerStatus := b.host.aerStatus ||| 0x10000 } }
  if b.host.aerMask.getLsbD 16 then b else b.emit .unexpected

/-- The writes of a DMA response, each up to the next maximum-payload boundary: a slice's carry its PASID and wait for tokens, the admin mailbox's
carry none (R186, R204). What is left is answered. -/
def Block.boxWrites (x : Option SliceId) : Nat → W64 → Bytes → Block → Block × W64 × Bytes
  | 0, a, d, b => (b, a, d)
  | n + 1, a, d, b =>
    let k := min (b.host.mps - a.toNat % b.host.mps) d.length
    if d.isEmpty then (b, a, d) else
    match x with
    | none => Block.boxWrites x n (a + BitVec.ofNat 64 k) (d.drop k) (b.emit (.write a (d.take k) none true))
    | some s => if !b.tokens s k then (b, a, d) else Block.boxWrites x n (a + BitVec.ofNat 64 k) (d.drop k) (b.hostWrite s a (d.take k))

/-- The reads of a DMA request's payload, held in the same way; what is left is answered. -/
def Block.boxReads (x : Option SliceId) : Nat → W64 → Nat → Block → Block × W64 × Nat
  | 0, a, l, b => (b, a, l)
  | n + 1, a, l, b =>
    let k := min (min 4096 b.host.mrrs) l
    if l = 0 then (b, a, l) else
    match x with
    | none => Block.boxReads x n (a + BitVec.ofNat 64 k) (l - k) (b.emit (.read a k none))
    | some s => if !b.tokens s k then (b, a, l) else
        Block.boxReads x n (a + BitVec.ofNat 64 k) (l - k) ((b.emit (.read a k (b.pasid s))).charge s k)

/-- DONE is set: ADMIN_DONE for the admin mailbox, VECTOR for a slice's. -/
def Block.signalDone (b : Block) (x : Option SliceId) : Block :=
  match x with
  | none => b.event 0
  | some s => if (b.slice s).mbx.irqEn then b.sliceIrq s (b.slice s).mbx.vector.toNat else b

/-- A wedged slice's mailbox answers nothing (R211). -/
def Block.muted (b : Block) (x : Option SliceId) : Bool := x.any (fun s => (b.slice s).st == .wedged)

/-- Write the rest of a DMA response; when all of it has gone the response frame overwrites the window, BUSY clears and DONE sets (R185). -/
def Block.sendReply (b : Block) (x : Option SliceId) (a : W64) (d frame : Bytes) : Block :=
  if b.muted x then b else
  let (b, a, d) := Block.boxWrites x (d.length + 1) a d b
  if !d.isEmpty then b.modBox x (fun m => { m with toWrite := some (a, d, frame) }) else
  let b := (b.modBox x (fun m => { m with
    busy := false, done := true, seq := BitVec.ofNat 16 (fld frame 4 2), cmd := none, code := 0, toRead := none, fetched := false, toWrite := none,
    window := m.window.writeAll 0 frame })).signalDone x
  match x with
  | none => b
  | some s => b.checkRest s

/-- Answer a request: BUSY until its response is out. -/
def Block.reply (b : Block) (r : Req) (code : W16) (y : Reply) : Block :=
  (b.modBox r.box (fun m => { m with busy := true, cmd := some r, code := code, toRead := none, toWrite := none })).sendReply r.box r.respAddr
    (if r.dma then y.out else []) (responseHeader r code y ++ (if r.dma then [] else y.out))

/-- A command in progress is answered. -/
def Block.complete (b : Block) (x : Option SliceId) (y : Reply) : Block :=
  match (b.box x).cmd with
  | some r => b.reply r (b.box x).code y
  | none => b

/-! ### Fences (R315, R422) -/

/-- The units that have a bit of their own in the fence map (Table 13.6). -/
inductive FUnit where
  | wale (i : Nat) | quad (q : Nat) | noise (i : Nat) | code (i : Nat) | chan (c : Nat) | group (i : Nat)
  | seeder (q : Nat) | rimPort (q : Nat) | ddr (c : Nat) | port (p : Nat)
deriving DecidableEq, Repr

/-- The unit whose bit a source number fences (R422), none where it names no fenceable unit. -/
def FUnit.ofSource (s : W16) : Option FUnit :=
  let q := Src.quad s; let w := Src.wale s; let e := Src.engine s; let u := Src.unit s
  match Src.level s with
  | 1 => if e < 7 ∧ (e < 3 ∨ u < 12) then some (.wale (16 * q + w)) else none
  | 2 => if u ≠ 0 then none else if e < 6 then some (.wale (16 * q + w))
         else if e = 6 ∧ w < 4 then some (.code (4 * q + w)) else none
  | 3 => if e = 0 ∧ u < 9 then some (.wale (16 * q + w)) else none
  | 4 => if w ≠ 0 then none else
         match e with
         | 0 => if u = 5 then some (.rimPort q) else if u < 7 then some (.quad q) else none
         | 1 => if u < 8 then some (.chan (8 * q + u)) else none
         | 2 => if u < 5 then some (.group (5 * q + u)) else none
         | 3 => if u < 2 then some (.noise (2 * q + u)) else none
         | 4 => if u = 0 then some (.seeder q) else none
         | _ => none
  | 6 => if w ≠ 0 ∨ e ≠ 0 ∨ u ≠ 0 then none else some (.port q)
  | 5 => if q ≠ 0 ∨ e ≠ 0 then none
         else if w = 7 ∧ u < 2 then some (.ddr u) else if w = 9 ∧ u < 4 then some (.port u) else none
  | _ => none

/-- The source number of a fenceable unit; a whole quadrant goes by its crossbar's (log 8). -/
def FUnit.source : FUnit → W16
  | .wale i => Src.waleUnit i 0
  | .quad q => Src.quadUnit q 0
  | .noise i => Src.noise i
  | .code i => Src.codeEngine (i / 4) (i % 4)
  | .chan c => Src.chan c
  | .group i => Src.group (i / 5) (i % 5)
  | .seeder q => Src.seeder q
  | .rimPort q => Src.quadUnit q 5
  | .ddr c => Src.device 7 c
  | .port p => Src.device 9 p

/-- Set or clear a bit. -/
def setBit {n : Nat} (v : BitVec n) (i : Nat) (on : Bool) : BitVec n :=
  if on then v ||| (1#n <<< i) else v &&& ~~~(1#n <<< i)

/-- A unit's bit in the fence map (Table 13.6). -/
def FenceMap.has (m : FenceMap) : FUnit → Bool
  | .wale i => m.wale.getLsbD i
  | .quad q => m.unit.getLsbD (24 + q)
  | .noise i => m.unit.getLsbD (16 + i)
  | .code i => m.unit.getLsbD i
  | .chan c => m.dma.getLsbD c
  | .group i => m.grp.getLsbD i
  | .seeder q => m.dev.getLsbD q
  | .rimPort q => m.dev.getLsbD (4 + q)
  | .ddr c => m.dev.getLsbD (8 + c)
  | .port p => m.dev.getLsbD (12 + p)

/-- The fence map with a unit's bit set or cleared. -/
def FenceMap.put (m : FenceMap) (u : FUnit) (on : Bool) : FenceMap :=
  match u with
  | .wale i => { m with wale := setBit m.wale i on }
  | .quad q => { m with unit := setBit m.unit (24 + q) on }
  | .noise i => { m with unit := setBit m.unit (16 + i) on }
  | .code i => { m with unit := setBit m.unit i on }
  | .chan c => { m with dma := setBit m.dma c on }
  | .group i => { m with grp := setBit m.grp i on }
  | .seeder q => { m with dev := setBit m.dev q on }
  | .rimPort q => { m with dev := setBit m.dev (4 + q) on }
  | .ddr c => { m with dev := setBit m.dev (8 + c) on }
  | .port p => { m with dev := setBit m.dev (12 + p) on }

/-- The inverted copy of the fence map (R301). -/
def FenceMap.inv (m : FenceMap) : FenceMap := ⟨~~~m.wale, ~~~m.unit, ~~~m.dma, ~~~m.grp, ~~~m.dev⟩

/-- Write the fence map and its shadow in one write (R301). -/
def Block.setFences (b : Block) (m : FenceMap) : Block := { b with flt := { b.flt with fence := m, shadow := m.inv } }

/-- Is wale i available: it exists and neither it nor its quadrant is fenced (R25, R26)? -/
def Block.waleAvail (b : Block) (i : Nat) : Bool := !b.flt.fence.has (.wale i) && !b.flt.fence.has (.quad (i / 16))
/-- Is noise source i available? -/
def Block.noiseAvail (b : Block) (i : Nat) : Bool := !b.flt.fence.has (.noise i) && !b.flt.fence.has (.quad (i / 2))
/-- Is code engine i available? -/
def Block.codeAvail (b : Block) (i : Nat) : Bool := !b.flt.fence.has (.code i) && !b.flt.fence.has (.quad (i / 4))
/-- Is quadrant q available? -/
def Block.quadAvail (b : Block) (q : Nat) : Bool := !b.flt.fence.has (.quad q)

/-- A bitmap of `n` bits from a predicate. -/
def bitmap (n : Nat) (p : Nat → Bool) : Nat := (List.range n).foldl (fun a i => if p i then a + 2 ^ i else a) 0

/-- FAM_WALE_AVAIL, both halves (R25). -/
def Block.availWales (b : Block) : Nat := bitmap 64 b.waleAvail
/-- FAM_UNIT_AVAIL (R25). -/
def Block.availUnits (b : Block) : Nat :=
  bitmap 16 b.codeAvail + 2 ^ 16 * bitmap 8 b.noiseAvail + 2 ^ 24 * bitmap 4 b.quadAvail

/-- FAM_AVAIL_GEN counts an update that changed an availability bit (R27). -/
def Block.countAvail (old b : Block) : Block :=
  if old.availWales = b.availWales ∧ old.availUnits = b.availUnits then b
  else { b with flt := { b.flt with gen := b.flt.gen + 1 } }

/-- Does a class-2 footprint leave room for the time-redundant copy (R95)? -/
def Entry.trFits (e : Entry) : Bool := decide (e.opmem * 1024 + e.maxOut ≤ 524288) && e.codePairs == 0

/-- Has a quadrant the unfenced wales a footprint needs: two for class 2 unless it may run time-redundantly? -/
def Block.walesFor (b : Block) (e : Entry) (q : Nat) : Bool :=
  let need := if e.wales ≤ 1 then e.wales else if b.dsp.cfg.getLsbD 0 && e.trFits then 1 else 2
  decide (need ≤ ((List.range 16).filter (fun w => b.waleAvail (16 * q + w))).length)

/-- Has a quadrant an unfenced code-engine pair with the wale pair it goes with (R90)? -/
def Block.pairFor (b : Block) (q : Nat) : Bool :=
  ((b.codeAvail (4 * q) && b.codeAvail (4 * q + 1)) || (b.codeAvail (4 * q + 2) && b.codeAvail (4 * q + 3))) &&
  decide (2 ≤ ((List.range 16).filter (fun w => b.waleAvail (16 * q + w))).length)

/-- What the device lacks to grant a footprint even with every unfenced unit free (R317, Table 13.5). -/
def Block.lacking (b : Block) (e : Entry) : Option W32 :=
  let qs := (List.range 4).filter b.quadAvail
  if e.wales ≠ 0 ∧ !(List.range 4).any (b.walesFor e) then some 1
  else if e.codePairs ≠ 0 ∧ !qs.any b.pairFor then some 2
  else if e.qmem ≠ 0 ∧ (qs.isEmpty ∨ 7168 < e.qmem) then some 3
  else none

/-- A reserved job keeps a quadrant only while that can still gather what the job needs; else it is reserved afresh (R317). -/
def Block.keepReserved (b : Block) : Block :=
  { b with dsp := { b.dsp with reserved := b.dsp.reserved.filter (fun r => match b.job r.2 with
      | some j => b.quadAvail r.1 && b.walesFor j.entry r.1 && (j.entry.codePairs == 0 || b.pairFor r.1)
      | none => false) } }

/-! ### Ready lists (R133 to R136) -/

/-- Does a job stand on a ready list: waiting to be granted, its gather lists perhaps still walked, or with a spilled part that waits to be
resumed (R152)? A skein member that failed at admission waits there too, as a job that needs no wale (R145). -/
def Job.listed (j : Job) : Bool := j.phase == .ready || j.phase == .walking || (j.phase == .spilled && !j.ended && j.spare != 0)

/-- A slice's list at a level: spilled jobs first (R152), among themselves in admission order (log 172), then the others in it. -/
def Block.listAt (b : Block) (lvl s : Nat) : List Job :=
  let l := b.jobs.filter (fun j => j.listed && j.level.val == lvl && j.list == s)
  l.filter (fun j => j.phase == .spilled) ++ l.filter (fun j => j.phase != .spilled)

/-- Insert into a rising list without repeats. -/
def insertNat (n : Nat) : List Nat → List Nat
  | [] => [n]
  | a :: r => if n = a then a :: r else if n < a then n :: a :: r else a :: insertNat n r

/-- The deficit of a slice at a level (R135). -/
def Block.deficit (b : Block) (lvl s : Nat) : Nat := Tab.get 0 b.dsp.deficit (lvl * 2048 + s)
/-- Set a deficit. -/
def Block.setDeficit (b : Block) (lvl s v : Nat) : Block :=
  { b with dsp := { b.dsp with deficit := Tab.put b.dsp.deficit (lvl * 2048 + s) v } }
/-- The round-robin pointer of a level. -/
def Block.pointer (b : Block) (lvl : Nat) : Pointer := Tab.get {} b.dsp.pointer lvl
/-- Set the pointer of a level. -/
def Block.setPointer (b : Block) (lvl : Nat) (p : Pointer) : Block := { b with dsp := { b.dsp with pointer := Tab.put b.dsp.pointer lvl p } }
/-- A list that has become empty holds no deficit, and the pointer moves off it (R135). -/
def Block.dryDeficit (b : Block) (lvl s : Nat) : Block :=
  if !(b.listAt lvl s).isEmpty then b else
  let b := b.setDeficit lvl s 0
  if (b.pointer lvl).slice = s then b.setPointer lvl { slice := s } else b

/-! ### What delivers entropy (R272) -/

/-- The HEALTHY sources of a quadrant. -/
def Block.healthy (b : Block) (q : Nat) : Nat :=
  ((List.range 2).filter (fun n => (b.source (2 * q + n)).st == .healthy)).length

/-- Is some source of the quadrant STARTING or SUSPECT? -/
def Block.reviving (b : Block) (q : Nat) : Bool :=
  (List.range 2).any (fun n => (b.source (2 * q + n)).st == .starting || (b.source (2 * q + n)).st == .suspect)

/-- Does a seeder deliver (R272)? -/
def Block.delivers (b : Block) (q : Nat) : Bool := (b.seeder q).st == .seeded || (b.seeder q).st == .relayed

/-! ### Configuration (Tables 6.2 and 6.3) -/

/-- POOL of a quadrant; above 16 acts as 16. -/
def Block.poolOf (b : Block) (q : QuadId) : Nat := min 16 (bits (b.dsp.warm[q]).toNat 4 0)
/-- GATE_DELAY in ns. -/
def Block.gateNs (b : Block) (q : QuadId) : Nat := bits (b.dsp.warm[q]).toNat 23 16 * 1000
/-- COLD_DELAY in ns. -/
def Block.coldNs (b : Block) (q : QuadId) : Nat := bits (b.dsp.warm[q]).toNat 15 8 * 16000
/-- PROMOTE in ns. -/
def Block.promoteNs (b : Block) : Nat := bits b.dsp.cfg.toNat 31 24 * 16000
/-- PREEMPT_WAIT in ns. -/
def Block.preemptNs (b : Block) : Nat := bits b.dsp.cfg.toNat 23 16 * 250
/-- PREEMPT_DELTA. -/
def Block.preemptDelta (b : Block) : Nat := bits b.dsp.cfg.toNat 15 12
/-- RESERVE in ns. -/
def Block.reserveNs (b : Block) : Nat := bits b.dsp.cfg.toNat 11 8 * 4000
/-- TR_ALLOW. -/
def Block.trAllow (b : Block) : Bool := b.dsp.cfg.getLsbD 0

/-- The quadrant of a wale. -/
def quadOf (w : WaleId) : QuadId := ⟨w.val / 16, by omega⟩

/-! ### What a job needs (R138 to R141) -/

/-- Does a job hold what its grant gave it? -/
def Job.granted (j : Job) : Bool :=
  !j.ended && (j.phase == .loading || j.phase == .running || j.phase == .comparing || j.phase == .output || j.phase == .spilled ||
    j.phase == .waiting)

/-- Does a wale hold a job, or wipe after one? -/
def Block.waleBusy (b : Block) (w : Nat) : Bool :=
  let x := b.wale w
  x.job.isSome || x.st == .running || x.st == .wiping || x.st == .spilling

/-- Does the dispatcher act at all: the device is ready, powered and not stopped (R286, R353)? -/
def Block.dispatches (b : Block) : Bool := b.boot.ready && b.boot.coreUp && !b.stopped && b.pwr.dev != .standby

/-- Does a manager's fence wait for a unit's job to end (R316)? Such a unit takes no further one; a quadrant still resumes the spilled jobs it holds
(log 144). -/
def Block.fenceDue (b : Block) (u : FUnit) : Bool := b.flt.fencesDue.any (fun s => FUnit.ofSource s == some u)

/-- A wale that holds nothing and may be granted or woken. -/
def Block.freeWale (b : Block) (i : Nat) : Bool :=
  let w := b.wale i
  w.job.isNone && b.waleAvail i && !b.fenceDue (.wale i) && (w.st == .warm || w.st == .clockGated || w.st == .gated)

/-- Does a job engage the leveller: masking order 1 or 2, or an S slot to load (R97, R80)? -/
def Job.levelled (j : Job) : Bool :=
  j.order != 0 || j.entry.secretIn || j.entry.draws || (j.entry.takesKey && j.desc.handle != 0)

/-- LEVEL_SET in force: the value of the clock the quadrant runs on. -/
def Block.levelSet (b : Block) (w : Nat) : Byte :=
  if (b.quad (w / 16)).onNet then (b.wale w).age.levelNet else (b.wale w).age.levelBin

/-- A code-engine pair of a quadrant that no granted job holds and that is not fenced (R90). -/
def Block.freePair (b : Block) (q : Nat) : Option (Fin 2) :=
  (List.finRange 2).find? (fun p =>
    b.codeAvail (4 * q + 2 * p.val) && b.codeAvail (4 * q + 2 * p.val + 1) &&
    !b.fenceDue (.code (4 * q + 2 * p.val)) && !b.fenceDue (.code (4 * q + 2 * p.val + 1)) &&
    !b.jobs.any (fun j => j.granted && j.quad == q && j.codePair == some p))

/-- KiB of shared memory of a quadrant that granted jobs hold; 7,168 are there outside the spill region (R91). -/
def Block.sharedUsed (b : Block) (q : Nat) : Nat :=
  (b.jobs.filter (fun j => j.granted && j.quad == q)).foldl (fun a j => a + j.entry.qmem) 0

/-- Wales a job charges to its slice's quota: 2k at a width k of 2 or more, from grant until its last part ends (R149); else those it holds. -/
def Job.charged (j : Job) : Nat := if 2 ≤ j.width then 2 * j.width else j.wales.length

/-- Does the slice's free quota cover a footprint's wales, memory and code engines (R217)? -/
def Block.quotaFree (b : Block) (j : Job) (wales : Nat) : Bool :=
  let l := b.jobs.filter (fun x => x.granted && x.inSlice j.slice && x.id != j.id)
  let q := (b.slice j.slice).quota
  j.dev || decide (l.foldl (fun a x => a + x.charged) 0 + j.charged + (if j.width ≤ 1 then wales else 0) ≤ q.wales) &&
  decide (l.foldl (fun a x => a + x.entry.qmem) 0 + j.entry.qmem ≤ q.qmem || j.entry.qmem == 0) &&
  decide (l.foldl (fun a x => a + x.entry.codePairs) 0 + j.entry.codePairs ≤ q.codePairs || j.entry.codePairs == 0)

/-- Is a job the head of its skein, or of none (R144)? -/
def Block.isHead (b : Block) (j : Job) : Bool :=
  match j.skein with
  | none => true
  | some k => (Tab.get {} b.dsp.skeins k).members.head? == some j.id

/-- Holding entries in use. -/
def Block.holdUsed (b : Block) : Nat := (b.jobs.filter (·.holding)).length
/-- Is a holding entry free to a slice? -/
def Block.holdFree (b : Block) (s : SliceId) : Bool :=
  decide ((b.jobs.filter (fun j => j.holding && j.inSlice s)).length < (b.slice s).quota.hold) && decide (b.holdUsed < 16384)

/-- Is a job's FENCE satisfied: every job admitted before it from its ring has its record written (R141)? -/
def Block.fenceMet (b : Block) (j : Job) : Bool :=
  !j.desc.fence || !b.jobs.any (fun x => decide (x.id < j.id) && x.inSlice j.slice && x.ring == j.ring && x.remote.isNone)

/-- The keys whose uses a job reserves: its handle's, and HANDLE2's for a combiner's second secret and a FROST nonce (R72, R242). A key to be
wrapped is not used but copied (log 126). -/
def Job.usedKeys (j : Job) : List W32 :=
  if !j.useHeld then [] else
  j.desc.handle :: (if !j.entry.customer && (j.op / 16 == 0x122 || j.op / 256 == 0x0C) then [(j.desc.inline >>> 32).setWidth 32] else [])

/-- Is every use of the job covered by a committed ceiling (R245) and, under a lease, by the lease (R339)? A key that expires at reset has
no ceiling in the journal. -/
def Block.usesCovered (b : Block) (j : Job) : Bool :=
  j.usedKeys.all (fun h => match b.key h with
    | some k => (k.expire || decide (k.useCount.toNat < k.ceiling)) && (!k.underLease || decide (0 < k.lease))
    | none => true) &&
  (!(j.op == 0x1030 || j.op == 0x1031) || decide ((b.slice j.slice).sealCtr < (b.slice j.slice).sealCeil))

/-- Does a job need a holding entry that no one can give it: it is no head, holds none, and none is free to its slice (R144)? -/
def Block.entryLacks (b : Block) (j : Job) : Bool := j.phase == .ready && !b.isHead j && !j.holding && !b.holdFree j.slice

/-- Is a customer job's opcode still registered (R130)? -/
def Block.registered (b : Block) (j : Job) : Bool := !j.entry.customer || b.boot.custEntries.any (fun e => e.opcode == j.desc.opcode)
/-- Are the keys that a job was admitted with still there (R251)? -/
def Block.keyThere (b : Block) (j : Job) : Bool :=
  (j.keyObj.typ == 0 || (b.key j.desc.handle).isSome) && (j.keyTwo.typ == 0 || (b.key ((j.desc.inline >>> 32).setWidth 32)).isSome)

/-- Does a KEY_DELETE wait: for an earlier KEY_EVICT of its key, or for an earlier KEY_LOAD of its slice, whose object names its key only once it
has been read (R251, log 143)? -/
def Block.deleteWaits (b : Block) (j : Job) : Bool :=
  j.op == 0x1020 && b.jobs.any (fun x => decide (x.id < j.id) && x.inSlice j.slice && !x.ended &&
    (x.op == 0x1032 || (x.op == 0x1031 && x.desc.handle == j.desc.handle)))

/-- May a job start as far as order goes: its list walked, its holding entry, its FENCE? A quiescing slice starts only spilled jobs
(R148); a failed skein member needs nothing more than these (R145). -/
def Block.startable (b : Block) (j : Job) : Bool :=
  (j.phase == .spilled ||
    (j.phase == .ready && !b.entryLacks j && b.fenceMet j && !b.deleteWaits j && (j.ended || (b.usesCovered j && b.registered j && b.keyThere j)))) &&
  ((b.slice j.slice).st == .active || (j.phase == .spilled && (b.slice j.slice).st == .quiescing) || j.remote.isSome || j.dev)

/-! ### The warm pool (R153) -/

/-- Start to wake a wale; a stopped PLL starts with it (R351). -/
def Block.wake (b : Block) (i : Nat) : Block :=
  let b := b.modWale i (fun w => { w with waking := true })
  b.modQuad (i / 16) (fun q => { q with pllRun := true })

/-- Idle unfenced wales of a quadrant in state 2 or on their way there. -/
def Block.warmCount (b : Block) (q : Nat) : Nat :=
  ((List.range 16).filter (fun k => b.freeWale (16 * q + k) && ((b.wale (16 * q + k)).st == .warm || (b.wale (16 * q + k)).waking))).length

/-- Could a quadrant run a ready job, were its wales awake: every condition of Table 6.1 but those of the wales themselves? -/
def Block.couldRun (b : Block) (q : Nat) (j : Job) : Bool :=
  j.listed && !j.ended && j.entry.wales != 0 && b.startable j &&
  (if j.phase == .spilled then j.quad == q && (b.delivers q || (List.range 16).any (fun k => (b.wale (16 * q + k)).drbgSeeded))
   else !b.fenceDue (.quad q) && (!j.entry.draws || b.delivers q)) &&
  b.quotaFree j 1 && (j.phase == .spilled || ((j.entry.codePairs == 0 || (b.freePair q).isSome) &&
    (j.entry.qmem == 0 || decide (b.sharedUsed q + j.entry.qmem ≤ 7168))))

/-- The wales that the ready jobs a quadrant could run need. -/
def Block.demand (b : Block) (q : Nat) : Nat := (b.jobs.filter (b.couldRun q)).foldl (fun a j => a + j.entry.wales) 0

/-- Wake wales that satisfy a condition, from state 1 before state 0, lowest index first; fuel bounds the number. -/
def Block.wakeSome (p : Wale → Bool) (q : Nat) : Nat → Block → Block
  | 0, b => b
  | n + 1, b =>
    let l := ((List.range 16).map (16 * q + ·)).filter (fun i => b.freeWale i && !(b.wale i).waking && p (b.wale i))
    match (l.filter (fun i => (b.wale i).st == .clockGated) ++ l.filter (fun i => (b.wale i).st == .gated)).head? with
    | some i => Block.wakeSome p q n (b.wake i)
    | none => b

/-- Wales with a seeded DRBG that the spilled jobs of a quadrant wait for, beyond those in state 2 or on their way there: while the seeder does not
deliver they resume on no other (R276). -/
def Block.seededDemand (b : Block) (q : Nat) : Nat :=
  if b.delivers q then 0 else
  ((b.jobs.filter (fun j => j.phase == .spilled && b.couldRun q j)).foldl (fun a j => a + j.entry.wales) 0) -
  ((List.range 16).filter (fun k => let w := b.wale (16 * q + k); b.freeWale (16 * q + k) && w.drbgSeeded && (w.st == .warm || w.waking))).length

/-- Keep the pool of every quadrant, and wake for what is ready (R153). -/
def Block.refill (b : Block) : Block :=
  if !b.dispatches then b else
  (List.finRange 4).foldl (fun (b : Block) (q : QuadId) =>
    if b.quadAvail q.val then
      let b := Block.wakeSome (fun w => w.drbgSeeded) q (b.seededDemand q) b
      Block.wakeSome (fun _ => true) q (min 16 (max (b.poolOf q) (b.demand q)) - b.warmCount q) b
    else b) b

/-! ### Records -/

/-- Return what a job still reserves: its counter (R246). The other reservations are counted from the jobs themselves. -/
def Block.releaseCtr (b : Block) (j : Job) : Block :=
  match j.reservedCtr with
  | some n => if b.ctrOwner n = .reserved j.id then b.setOwner n .none else b
  | none => b

/-- Take a job out of its skein; the skein closes with its last member (R142). -/
def Block.leaveSkein (b : Block) (j : Job) : Block :=
  match j.skein with
  | none => b
  | some k =>
    let sk := Tab.get {} b.dsp.skeins k
    let m := sk.members.filter (· != j.id)
    { b with dsp := { b.dsp with skeins := if m.isEmpty then Tab.drop b.dsp.skeins k else Tab.put b.dsp.skeins k { sk with members := m } } }

/-- Write a job's completion record (R173, R179, R181) and let the job leave the device. A halted completion ring takes no
record: it is discarded and counted (R183). -/
def Block.writeRecord (b : Block) (j : Job) : Block :=
  let s := j.slice.val
  let n := j.cq
  let c := (b.slice s).cq[n]
  let b := b.releaseCtr j
  let b :=
    if c.halted then
      b.modSlice s (fun x => { x with err := { x.err with
        lost := if x.err.lost = 0xFFFFFFFF then x.err.lost else x.err.lost + 1 } })
    else
      let b := b.hostWrite s (c.base + BitVec.ofNat 64 (32 * c.tail)) (recordBytes j b.now)
      let b := b.modCq s n (fun c => { c with
        tail := (c.tail + 1) % 2 ^ c.log2.toNat,
        firstAt := if c.irqEn && j.desc.irq && c.ann == 0 then b.now else c.firstAt,
        ann := if c.irqEn && j.desc.irq then c.ann + 1 else c.ann })
      b.modSlice s (fun x => { x with ctr := { x.ctr with done := x.ctr.done.add 1 } })
  let b := b.modSlice s (fun x => { x with ctr := { x.ctr with
    held := if j.phase = .held ∧ j.holding then x.ctr.held.add (b.elapsed j.heldAt) else x.ctr.held } })
  let b := b.modSq s j.ring (fun q => { q with open_ := q.open_ - 1 })
  let b := b.modCq s n (fun c => { c with a := c.a - 1 })
  let b := { b with jobs := b.jobs.filter (fun x => x.id != j.id) }
  let b := (b.leaveSkein j).moderate s n
  (b.checkRest s).refill

/-- Write the records of the oldest members of a skein that have finished, in sequence order (R144). -/
def Block.releaseFrom : List Nat → Block → Block
  | [], b => b
  | id :: r, b =>
    match b.job id with
    | some j => if j.phase = .held then Block.releaseFrom r (b.writeRecord j) else b
    | none => Block.releaseFrom r b

/-- A wedged slice's own job: nothing of it progresses (Table 9.1). -/
def Block.stuck (b : Block) (j : Job) : Bool := !j.dev && j.remote.isNone && (b.slice j.slice).st == .wedged

/-- A job has its final result: its record passes to the ring, or waits in skein order (R144, R145). One that a note ended waits for the end of
that note's merge window, within which an earlier note may arrive (R311, R312). -/
def Block.finish (b : Block) (id : Nat) : Block :=
  match b.job id with
  | none => b
  | some j =>
    if b.stuck j || j.noted.isSome then b else
    if j.dev then
      { b with jobs := b.jobs.filter (fun x => x.id != id) }.complete none
        (if j.result.status = St.success then .ok (le 4 j.result.detail.toNat ++ j.result.out) else .fail j.result.status j.result.detail)
    else
    match j.remote with
    | some (p, rid) =>
      ({ b with jobs := b.jobs.filter (fun x => x.id != id) }.sendFrame p "result" (le 8 rid ++ le 2 j.result.status.toNat ++ le 4 j.result.detail.toNat ++ j.result.out)).checkRest j.slice
    | none =>
    match j.skein with
    | none => b.writeRecord { j with phase := .output }
    | some k =>
      let b := b.modJob id (fun j => { j with phase := .held, heldAt := b.now })
      let sk := Tab.get {} b.dsp.skeins k
      if sk.members.head? = some id then Block.releaseFrom sk.members b else b

/-! ### Quadrant shared memory (R90, R91, R102) -/

/-- The 4 KiB pages of a quadrant that granted jobs and spilled images hold. -/
def Block.pagesHeld (b : Block) (q : Nat) : List Nat :=
  (b.jobs.filter (fun j => j.quad == q)).flatMap (·.pages) ++ (b.quad q).spills.flatMap (·.pages)
/-- The first `n` free pages of a quadrant from page `lo` on: 0 to 1,791 serve jobs, 1,792 to 2,047 are the spill region (R91). -/
def Block.takePages (b : Block) (q lo hi n : Nat) : List Nat :=
  (((List.range (hi - lo)).map (lo + ·)).filter (fun p => !(b.pagesHeld q).contains p)).take n
/-- Wipe pages: they read zero and their tags become P (R98). -/
def Quad.wipePages (z : Quad) (l : List Nat) : Quad :=
  { z with mem := z.mem.filter (fun c => !l.contains (c.1 / 4096)), memS := z.memS.filter (fun p => !l.contains p) }
/-- Write a byte string over pages in order; the pages it touches become S where it is secret. -/
def Quad.fill (z : Quad) (s : Bool) : List Nat → Bytes → Quad
  | [], _ => z
  | p :: r, d =>
    if d.isEmpty then z else
    Quad.fill { z with mem := z.mem.writeAll (p * 4096) (d.take 4096), memS := if s && !z.memS.contains p then p :: z.memS else z.memS } s r (d.drop 4096)
/-- Shared memory, spilled images and code engines of a quadrant give up what they hold of a job (R98, R102). -/
def Quad.dropJob (z : Quad) (j : Job) : Quad :=
  let l := (z.spills.filter (fun x => x.job == j.id)).flatMap (·.pages)
  { z.wipePages (j.pages ++ l) with
    spills := z.spills.filter (fun x => x.job != j.id), codeHeld := z.codeHeld.map (fun o => if o = some j.id then none else o) }

/-- Is a wale idle with its wipe complete, so that its status fields may change (R76)? -/
def Wale.atRest (w : Wale) : Bool := w.job.isNone && (w.st == .warm || w.st == .clockGated || w.st == .gated)
/-- Pending slot lengths of a quadrant take effect on every idle wale that has no spilled job of its own (R76). -/
def Block.settleSlots (b : Block) (q : Nat) : Block :=
  { b with wales := b.wales.map (fun (p : Nat × Wale) => (p.1,
      if p.1 / 16 = q ∧ p.2.atRest ∧ !(b.quad q).spills.any (fun y => y.home == p.1)
      then { p.2 with slotLen := p.2.slotPend.getD p.2.slotLen, slotPend := none } else p.2)) }

/-! ### Ending jobs -/

/-- Begin the wipe of a wale (R98, R99): slots, tags and micro-state are cleared; the control stores, WAL_CFG and the DRBG stay. -/
def Wale.startWipe (w : Wale) : Wale :=
  { w with st := .wiping, job := none, part := 0, opmem := [], sTags := [], micro := {}, trapWanted := false, second := false }

/-- Wipe every wale a job holds (R98). -/
def Block.wipeAll (ws : List WaleId) (b : Block) : Block := ws.foldl (fun (b : Block) (w : WaleId) => b.modWale w Wale.startWipe) b

/-- Return the uses a job had reserved and not consumed (R242). -/
def Block.returnUse (b : Block) (j : Job) : Block :=
  j.usedKeys.foldl (fun b h => b.modKey h (fun k => { k with reserved := k.reserved - 1 })) b

/-- Count the wait of a job that leaves its ready list (Table 6.7). -/
def Block.countWait (b : Block) (j : Job) : Block :=
  if j.dev then b else b.modSlice j.slice (fun x => { x with ctr := { x.ctr with wait := x.ctr.wait.add (b.elapsed j.readySince) } })

/-- A job that has not been granted leaves its ready list with a status: its record is issued at once, or in its place in its skein
(R148). -/
def Block.failReady (b : Block) (j : Job) (st : W16) (d : W32) : Block :=
  let b := b.returnUse j
  let b := b.countWait j
  let b := b.modJob j.id (fun j => { j with
    result := { status := st, detail := d }, ended := true, phase := .waiting, useHeld := false, reservedKst := 0, walks := [] })
  (b.dryDeficit j.level j.list).finish j.id

/-- Put a DMA record into its quadrant's queue of 64, or keep it in the channel until space frees (R203). -/
def Block.pushRecord (b : Block) (c : Nat) (r : DmaRec) : Block :=
  if (b.quad (c / 8)).records.length < 64 then b.modQuad (c / 8) (fun q => { q with records := q.records ++ [r] })
  else b.modChan c (fun x => { x with kept := some r })

/-- The DMA record of a transfer that ends now (Table 8.9). -/
def Block.recordOf (b : Block) (c : Nat) (x : Xfer) : DmaRec :=
  { ts := b.now, source := Src.chan c, cause := x.cause, write := x.write, target := x.target, gather := x.gather,
    lastBeat := x.lastBeat,
    got := x.count,
    addr := if x.cause = 0 then x.addr else x.failAddr, slice := x.slice, jobSeq := x.jobSeq, buf := x.buf, job := x.job }

/-- The ATS invalidations that waited for the output of a channel are completed (R197). -/
def Block.endInvals (b : Block) (c : Nat) : Block :=
  let due := b.host.invals.filter (fun i => i.2.2 == c)
  let left := b.host.invals.filter (fun i => i.2.2 != c)
  due.foldl (fun (b : Block) i => if left.any (fun k => k.1 == i.1 && k.2.1 == i.2.1) then b else b.emit (.invalidateDone i.1 i.2.1))
    { b with host := { b.host with invals := left } }

/-- Something that kept a quadrant from being quiet has ended: it has been quiet since now at the earliest (R351). -/
def Block.touchQuiet (b : Block) (q : Nat) : Block := b.modQuad q (fun z => { z with quietSince := b.now })

/-- A transfer has ended: its record is written and the channel is free (R198, R201). -/
def Block.closeXfer (b : Block) (c : Nat) (x : Xfer) : Block :=
  (((b.modChan c (fun ch => { ch with xfer := none, halted := false })).pushRecord c (b.recordOf c x)).endInvals c).touchQuiet (c / 8)

/-- Stop the transfers of a job: nothing more is issued, and a transfer with nothing outstanding ends (R101). -/
def Block.stopXfers (b : Block) (id : Nat) : Block :=
  (List.range 32).foldl (fun b c =>
    match (b.chan c).xfer with
    | some x =>
      if x.job = id then
        let x := { x with pieces := [] }
        if x.asked.isEmpty then b.closeXfer c x else b.modChan c (fun ch => { ch with xfer := some x })
      else b
    | none => b) b

/-- A granted job ends without output (R15, R101): engines stopped, wales wiping, spill pages wiped; a spilled one leaves its ready list. Its
record waits for the DMA record of every transfer still open (R200). -/
def Block.endGranted (b : Block) (j : Job) (st : W16) (d : W32) : Block :=
  let b := if j.listed then b.countWait j else b
  let b := ((Block.wipeAll j.wales b).stopXfers j.id).modQuad j.quad (fun q => q.dropJob j)
  let b := (b.settleSlots j.quad).touchQuiet j.quad
  let b := { b with kst := { b.kst with waits := b.kst.waits.filter (· != j.id) } }
  let b := match j.forwardTo with
    | some p => b.sendFrame p "abort" (le 8 j.id)
    | none => b
  let b := b.modJob j.id (fun j => { j with
    result := { status := st, detail := d }, ended := true, wales := [], pages := [], phase := .waiting, input := [],
    codePair := none, reservedKst := 0, forwardTo := none, chan := none, passes := 0, spare := 0 })
  let b := if j.listed then b.dryDeficit j.level j.list else b
  if j.dmaOpen = 0 then b.finish j.id else b

/-- End a job with a status other than SUCCESS. A job that has already been ended keeps its status (R311), but for a failed skein member still
on its ready list (R148, log 114); one whose output transfer has begun completes it (R101). -/
def Block.failJob (b : Block) (id : Nat) (st : W16) (d : W32) : Block :=
  match b.job id with
  | none => b
  | some j =>
    if j.ended ∧ j.phase ≠ .ready then b else
    match j.phase with
    | .walking | .ready => b.failReady j st d
    | .output => if j.begun then b else b.endGranted j st d
    | .held => b
    | _ => b.endGranted j st d

/-- End a job even where its output transfer has begun, as long as no byte of it has gone to the host: what the crossbar does to the job of a
requester it fences, and the zeroise line to what it sweeps (R158, R159, R289). Once a host write has been issued the transfer completes: R289 is the
one case in which a failed job leaves bytes in host memory (R15, R101, log 153). -/
def Block.failNow (b : Block) (id : Nat) (st : W16) (d : W32) : Block :=
  match b.job id with
  | none => b
  | some j => if j.phase = .output ∧ !j.ended ∧ !j.sent then b.endGranted j st d else b.failJob id st d

/-- The jobs that satisfy a condition, in admission order. -/
def Block.jobsWhere (b : Block) (p : Job → Bool) : List Nat := (b.jobs.filter p).map (·.id)

/-- Does one note come before another: by time stamp, modulo 2^64, then by source (R20, R322)? -/
def Note.before (a c : W64 × W16) : Bool := (a.1 - c.1).msb || (a.1 == c.1 && decide (a.2 < c.2))

/-- A note ends a job (R311): a job that a later note of the same merge window has ended takes the earlier one's status. -/
def Block.failNoted (b : Block) (id : Nat) (n : W64 × W16) (st : W16) (d : W32) : Block :=
  match b.job id with
  | none => b
  | some j =>
    if j.ended ∧ j.phase ≠ .ready then
      (if j.noted.any (fun m => Note.before n m) then b.modJob id (fun j => { j with result := { status := st, detail := d }, noted := some n }) else b)
    else
      let b := (b.modJob id (fun j => { j with noted := some n })).failJob id st d
      if (b.job id).any (·.ended) then b else b.modJob id (fun j => { j with noted := none })

/-- The jobs whose notes have left their merge windows have their records written. -/
def Block.releaseNoted (b : Block) : Block :=
  let ids := b.jobsWhere (fun j => j.noted.any (fun n => !b.flt.merging.any (fun m => m.ts == n.1 && m.source == n.2)))
  ids.foldl (fun b i =>
    let b := b.modJob i (fun j => { j with noted := none })
    match b.job i with
    | some j => if j.ended ∧ j.dmaOpen = 0 then b.finish i else b
    | none => b) b

/-- End several jobs. -/
def Block.failJobs (ids : List Nat) (st : W16) (d : W32) (b : Block) : Block := ids.foldl (fun b i => b.failJob i st d) b

/-! ### What a fence flushes (R199, R317) -/

/-- Has the quadrant of a spilled job the unfenced wales that its share needs (R152): a pair, or one for a time-redundant run? -/
def Block.roomToResume (b : Block) (j : Job) : Bool :=
  decide ((if j.timeRed ∨ j.entry.wales < 2 then 1 else 2) ≤ ((List.range 16).filter (fun w => b.waleAvail (16 * j.quad + w))).length)

/-- Admitted jobs that a fence has made ungrantable leave with RESOURCE_FENCED (R317). -/
def Block.flushFenced (b : Block) : Block :=
  let ready := b.jobs.filter (fun j => !j.ended && (j.phase == .ready || j.phase == .walking))
  let b := ready.foldl (fun b j => match b.lacking j.entry with
    | some d => b.failJob j.id St.resourceFenced d
    | none => b) b
  let b := Block.failJobs (b.jobsWhere (fun j => j.phase == .spilled && !b.quadAvail j.quad)) St.resourceFenced 5 b
  Block.failJobs (b.jobsWhere (fun j => j.phase == .spilled && !b.roomToResume j)) St.resourceFenced 1 b

/-- Where a job's retained public key or object number points (R206): the object it reads from DDR5. -/
def Job.awaits (j : Job) : Option Nat :=
  if j.op / 256 = 8 ∧ (j.op / 16 % 16 = 4 ∨ (j.op / 16 % 16 = 2 ∧ !j.desc.inline.getLsbD 0)) then j.keyObj.pkObject
  else if j.op = 0x1032 ∧ j.desc.inAddr.toNat / 2 ^ 62 = 1 then some (j.desc.inAddr.toNat % 2 ^ 32) else none

/-- Admitted jobs whose object lies on a fenced DDR5 channel leave with RESOURCE_FENCED, Detail 4, and so does a granted one that has not begun to
read it: the channel takes no new transfer (R199, R310, R317, Table 13.5, log 154). -/
def Block.flushDdr (b : Block) : Block :=
  Block.failJobs (b.jobsWhere (fun j => !j.ended &&
    (j.phase == .ready || j.phase == .walking || (j.phase == .loading && !j.haveObj && j.dmaOpen == 0)) &&
    (match j.awaits with
     | some n => b.ddr.objects.any (fun o => o.slice == j.slice && o.number.toNat == n && b.flt.fence.has (.ddr o.chan))
     | none => false))) St.resourceFenced 4 b

/-! ### Voltage targets and the rail (R355 to R358, R362 to R368) -/

/-- The highest target a wale may be given: 0.835 V, and once AVS is lost the last read rail less 15 mV (R355, R358). -/
def Block.reach (b : Block) : Nat := if b.pwr.avsLost then min 835 (b.pwr.lastRail - 15) else 835

/-- The fastest bin a quadrant runs at or is changing to: the targets of a bin that rises go first, those of one that falls follow (R356). -/
def Block.planBin (b : Block) (q : Nat) : Nat :=
  let z := b.quad q
  min z.bin.val (min (z.binWant.getD z.bin).val (z.binTo.getD z.bin).val)

/-- The target the plan gives a wale at a bin (R355, R368); after AVS_LOST it rises no further than `reach`. -/
def Block.targetAt (b : Block) (w bin : Nat) : Nat :=
  let a := (b.wale w).age
  let t := min 835 (Config.vnew w bin + a.offset + (if a.cold then 20 else 0))
  if b.pwr.avsLost then min t (max a.target b.reach) else t

/-- What the rail must be: Vunc, and 15 mV above every target, in use or planned, of an unfenced wale, rounded up to 5 mV (R355). -/
def Block.railNeed (b : Block) : Nat :=
  let top := ((List.range 64).filter b.waleAvail).foldl (fun m i => max m (max (b.wale i).age.target ((b.wale i).age.planned.getD 0))) 0
  min 850 (max 650 (roundUp (max Config.vunc (top + 15)) 5))

/-- Command the next step of the rail, at most 10 mV, where it is not where it must be and no step is in progress (R356). -/
def Block.moveRail (b : Block) : Block :=
  if !b.boot.rimUp || b.pwr.avsLost then b else
  let want := b.railNeed
  if b.pwr.moving ∨ b.pwr.rail = want then { b with pwr := { b.pwr with railWant := want } } else
  let v := if b.pwr.rail < want then min want (b.pwr.rail + 10) else max want (b.pwr.rail - 10)
  { b with pwr := { b.pwr with railWant := want, rail := v, moving := true, commandedAt := b.now } }.emit (.pmbus v)

/-- Plan the target of an unfenced wale for its quadrant's bin. -/
def Block.planWale (b : Block) (w : Nat) : Block :=
  if !b.waleAvail w then b else
  let t := b.targetAt w (b.planBin (w / 16))
  b.modWale w (fun x => { x with age := { x.age with planned := if t = x.age.target then none else some t } })

/-- Plan the targets of a quadrant, and the rail with them. -/
def Block.planQuad (b : Block) (q : Nat) : Block := ((List.range 16).foldl (fun (b : Block) k => b.planWale (16 * q + k)) b).moveRail

/-- Has the rail reached what a planned target needs, so that the wale changes to it at its next idle moment (R356)? -/
def Block.railReady (b : Block) (i : Nat) : Bool :=
  let a := (b.wale i).age
  match a.planned with
  | some t => decide (t ≤ a.target) || (!b.pwr.moving && decide (t + 15 ≤ b.pwr.rail))
  | none => false

/-- Does an idle wale take no grant: its target changes, its leveller is calibrated, or it is being measured (R356, R361, R362)? -/
def Block.tuning (b : Block) (i : Nat) : Bool := (b.wale i).age.running || (b.wale i).age.calibrating || b.railReady i

/-- The fence record of a wale, where AGE_MARGIN fenced it (R365). -/
def Block.marginFence (b : Block) (w : Nat) : Bool :=
  b.flt.fence.has (.wale w) && (b.flt.recs.find? (fun p => p.1 == (FUnit.source (.wale w)).toNat)).any (fun p => p.2.kind == 0x0E)

/-- Is a wale idle, its wipe ended? One under an AGE_MARGIN fence counts, its header powered for a run alone (R362, R366). -/
def Block.idle (b : Block) (w : Nat) : Bool :=
  let x := b.wale w
  x.job.isNone && (x.st == .warm || x.st == .clockGated || x.st == .gated || (x.st == .fenced && b.marginFence w)) && !x.age.calibrating

/-- Does Tj of a wale allow a run (R362): between 0 °C and 110 °C? -/
def Block.runTj (b : Block) (w : WaleId) : Bool := decide (0 ≤ b.pwr.tj.wales[w]) && decide (b.pwr.tj.wales[w] ≤ 1100)

/-- Take up the ageing runs that are due, one wale of each quadrant at a time, lowest number first; a run refused on temperature is deferred
(R362). -/
def Block.startRuns (b : Block) : Block :=
  if !b.boot.rimUp || b.pwr.dev == .standby then b else
  let b := { b with wales := b.wales.map (fun (p : Nat × Wale) =>
    (p.1, if p.2.age.runWanted && b.idle p.1 then { p.2 with age := { p.2.age with deferred := !b.runTj (Fin.ofNat 64 p.1) } } else p.2)) }
  (List.range 4).foldl (fun (b : Block) (q : Nat) =>
    let l := (List.range 16).map (16 * q + ·)
    if l.any (fun i => (b.wale i).age.running) then b else
    match l.find? (fun i => (b.wale i).age.runWanted && b.idle i && b.runTj (Fin.ofNat 64 i)) with
    | some i => b.modWale i (fun x => { x with age := { x.age with running := true } })
    | none => b) b

/-! ### Entropy (R264 to R268, R271 to R273, R277) -/

/-- Is SRC_ENABLE set for a source (Table 11.12)? -/
def Block.sourceOn (b : Block) (i : Nat) : Bool := b.rng.cfg.getLsbD (8 + i)

/-- Discard the held blocks made from a source's samples (R267). -/
def Block.discardHeld (b : Block) (i : Nat) : Block :=
  { b with rng := { b.rng with held := Tab.put b.rng.held (i / 2) ((Tab.get [] b.rng.held (i / 2)).filter (fun h => !h.sources.contains i)) } }

/-- A fenced source delivers nothing: FENCED, or OFF while its enable bit is 0; CODE is held at 512 and its held blocks are gone (R264, R267, R268). -/
def Block.restSource (b : Block) (i : Nat) : Block :=
  (b.discardHeld i).modSource i (fun x => { x with
    st := if b.sourceOn i then .fenced else .off, since := b.now, code := 512, quiet := 0, rail := 0 })

/-- Are 384 fresh bits ready at a conditioner (R271)? -/
def Block.hasSeed (b : Block) (q : Nat) : Bool := decide (3 ≤ Tab.get 0 b.rng.blocks q)
/-- Take 128-bit blocks from a conditioner. -/
def Block.takeBlocks (b : Block) (q n : Nat) : Block :=
  { b with rng := { b.rng with blocks := Tab.put b.rng.blocks q (Tab.get 0 b.rng.blocks q - n) } }
/-- A reseed has landed at a seeder (Table 11.13). -/
def Block.reseeded (b : Block) (q : Nat) : Block :=
  b.modSeeder q (fun x => { x with reseeds := x.reseeds + 1, since := 0, lastReseed := b.now })

/-- The donor of a quadrant: the lowest-numbered other quadrant whose seeder is SEEDED, with RELAY at 1 (R273). -/
def Block.donorFor (b : Block) (q : Nat) : Option (Fin 4) :=
  if b.rng.cfg.getLsbD 0 then (List.finRange 4).find? (fun d => d.val != q && (b.seeder d).st == .seeded) else none

/-- A donor reseeds from its own noise and gives a 48-byte relay seed to the seeder of a quadrant, which reseeds from it or begins its
instantiation; until the donor has 384 fresh bits no seed is given (R273, Table 11.13). A fenced seeder runs no known-answer test. -/
def Block.relaySeed (b : Block) (q : Nat) (d : Fin 4) : Block :=
  if !b.hasSeed d then b else
  let b := ((b.takeBlocks d 3).reseeded d).modSeeder d (fun x => { x with bytes := x.bytes + 48, since := 48 })
  let b := if (b.seeder q).seeded then b.reseeded q
    else if b.flt.fence.has (.seeder q) then b.modSeeder q (fun x => { x with seeded := true })
    else b.modSeeder q (fun x => { x with withheld := true, katAt := b.now })
  b.modSeeder q (fun x => { x with donor := some d, relays := if x.relays = 0xFFFFFFFF then x.relays else x.relays + 1 })

/-- A seeder reseeds from 384 fresh bits: its donor's while RELAYED, else its own. Without them there is no reseed yet (R271, R273). -/
def Block.reseedSeeder (b : Block) (q : Nat) : Block :=
  match (b.seeder q).st, b.donorFor q with
  | .relayed, some d => b.relaySeed q d
  | _, _ => if b.hasSeed q then (b.takeBlocks q 3).reseeded q else b

/-- The state Table 11.6 gives a seeder. With a HEALTHY source of its own and no fence it gives up a relay at once; from PAUSED or STOPPED it
becomes SEEDED at its next seed, not here (R421); one never instantiated stays in INIT until its known-answer test has passed (R281). -/
def Block.seederState (b : Block) (q : Nat) : SeedSt :=
  let sd := b.seeder q
  let fenced := b.flt.fence.has (.seeder q)
  if b.healthy q ≠ 0 ∧ !fenced then (if !sd.seeded then .init else if sd.st = .relayed then .seeded else sd.st)
  else if (b.donorFor q).isSome then (if sd.seeded || fenced then .relayed else .init)
  else if b.reviving q ∧ !fenced then (if sd.seeded then .paused else .init)
  else .stopped

/-- Settle a seeder: its state, and a relay seed where it begins to relay, instantiates from a donor, or changes donor. -/
def Block.settleSeeder (b : Block) (q : Nat) : Block :=
  let st := b.seederState q
  let own := b.healthy q ≠ 0 ∧ !b.flt.fence.has (.seeder q)
  let sd := b.seeder q
  let b := if st = sd.st then b else b.modSeeder q (fun x => { x with st := st, ts := b.now, donor := none })
  match b.donorFor q with
  | none => b
  | some d =>
    if own then b
    else if (st = .relayed ∧ (sd.st ≠ .relayed ∨ sd.donor ≠ some d)) ∨ (st = .init ∧ !sd.withheld) then b.relaySeed q d
    else b

/-- When every seeder is STOPPED, the ready jobs that draw complete with ENTROPY_UNAVAILABLE (R277); a granted FULL_ENTROPY job
whose quadrant has only OFF or FENCED sources ends with Detail 2 (R420). -/
def Block.flushEntropy (b : Block) : Block :=
  let b := if (List.range 4).all (fun q => (b.seeder q).st == .stopped) then
      Block.failJobs (b.jobsWhere (fun j => j.entry.draws && !j.ended && (j.phase == .ready || j.phase == .walking)))
        St.entropyUnavailable 1 b
    else b
  Block.failJobs (b.jobsWhere (fun j => (j.entry.opcode == 0x0F01 || j.entry.opcode == 0x3E01) && (j.phase == .running || j.phase == .loading) &&
    b.healthy j.quad == 0 && !b.reviving j.quad)) St.entropyUnavailable 2 b

/-- After a change of sources, fences or relay: settle every seeder, twice because a donor may settle after one it served, and what
waits on them. -/
def Block.settleEntropy (b : Block) : Block :=
  ([0, 1, 2, 3, 0, 1, 2, 3].foldl Block.settleSeeder b).flushEntropy

/-! ### Notes in their merge window -/

/-- A note as a raising rule gives it; `known` are the job's sequence and Tag where the unit keeps them itself (R203). -/
structure Raise where
  source : W16
  kind : Byte
  cls : Fin 5
  detail : W32
  addr : BitVec 48 := 0
  job : Option Nat := none
  slice : Option SliceId := none
  ago : Nat := 0
  known : Option (W16 × W32) := none

/-- The note with its time stamp, `ago` ns before it reaches the collector (R312), and the job's slice, sequence and Tag (Table 13.11). -/
def Block.noteOf (b : Block) (r : Raise) : Note :=
  let j := r.job.bind b.job
  { ts := b.now - BitVec.ofNat 64 r.ago, source := r.source, kind := r.kind, cls := r.cls, detail := r.detail, addr := r.addr,
    slice := match j, r.slice with
      | some j, _ => if j.dev then 0xFFFF else BitVec.ofNat 16 j.slice.val
      | none, some s => BitVec.ofNat 16 s.val
      | none, none => 0xFFFF,
    jobSeq := ((r.known.map (·.1)).orElse (fun _ => j.map (·.jobSeq))).getD 0, tag := ((r.known.map (·.2)).orElse (fun _ => j.map (·.desc.tag))).getD 0 }

/-- Count a note of its class, keep the worst, and hold it for its merge window (R312, R319). -/
def Block.takeNote (b : Block) (n : Note) : Block :=
  { b with flt := { b.flt with
      cnt := Tab.put b.flt.cnt n.cls (Ctr.add (Tab.get {} b.flt.cnt n.cls) 1),
      worst := if b.flt.worst < n.cls then n.cls else b.flt.worst,
      merging := b.flt.merging ++ [n] } }

/-! ### The links of the fabric (R325, R326, R332, R335) -/

/-- LOCKED and HOLDOVER; a change sets the TIME_BASE event (R322). -/
def Block.setLock (b : Block) (locked holdover : Bool) : Block :=
  let changed := b.timeLocked != locked || b.holdover != holdover
  let b := { b with timeLocked := locked, holdover := holdover }
  if changed then b.event 6 else b

/-- Port p. -/
def Block.port (b : Block) (p : PortId) : Port := b.wty.ports[p]
/-- Change a port. -/
def Block.modPort (b : Block) (p : PortId) (f : Port → Port) : Block :=
  { b with wty := { b.wty with ports := b.wty.ports.set p (f b.wty.ports[p]) } }
/-- Change the fabric's state. -/
def Block.modWty (b : Block) (f : Fabric → Fabric) : Block := { b with wty := f b.wty }

/-- Has this device joined the fabric? -/
def Block.joined (b : Block) : Bool := b.wty.number.isSome
/-- Its member number. -/
def Block.self (b : Block) : BitVec 12 := b.wty.number.getD 0

/-- The Detail of a note that concerns the far end of a link: its member number in [11:0], the rest open (R329, log 26). -/
def farEnd (kind : Byte) (peer : BitVec 12) : W32 := (openDetail kind &&& 0xFFFFF000) ||| peer.setWidth 32

/-- A fabric note of class F0, which has no reaction (Table 14.4). -/
def Block.fabricF0 (b : Block) (port fn : Nat) (kind : Byte) (detail : W32) : Block :=
  b.takeNote (b.noteOf { source := Src.fabric port fn, kind := kind, cls := 0, detail := detail })

/-- The UP link of this device: the port of role UP that is up. -/
def Block.upLink (b : Block) : Option PortId := (List.finRange 4).find? (fun p => (b.port p).role == .up && (b.port p).st == .up)

/-- Holdover begins (R332): LOCKED clears, the counter runs on its own reference, corrected by the last frequency offset measured. -/
def Block.enterHoldover (b : Block) : Block :=
  if b.holdover || b.wty.master || !b.joined then b
  else ((b.modWty (fun f => { f with holdSince := some b.now, good := 0, rate := f.freq })).setLock false true).fabricF0 0 1 0x25 (openDetail 0x25)

/-- The UP port is down: the lowest ALT port that is up serves as UP and the old one becomes ALT; with none the device is cut off (R335). -/
def Block.promote (b : Block) (old : PortId) : Block :=
  match (List.finRange 4).find? (fun p => (b.port p).role == .alt && (b.port p).st == .up) with
  | some p => (b.modPort old (fun x => { x with role := .alt, promoted := false })).modPort p (fun x => { x with role := .up, promoted := true })
  | none => b.enterHoldover

/-- A link is gone (R345): the jobs forwarded over it end with FABRIC_UNREACHABLE and the neighbour's number; those taken over it are
aborted. -/
def Block.dropForwards (b : Block) (p : PortId) : Block :=
  let out := b.jobsWhere (fun j => j.forwardTo == some p && !j.ended)
  let b := { b with jobs := b.jobs.map (fun (j : Job) => if j.forwardTo = some p then { j with forwardTo := none } else j) }
  let b := Block.failJobs out St.fabricUnreachable (b.wty.ports[p].peer.setWidth 32) b
  Block.failJobs (b.jobsWhere (fun j => j.remote.any (fun r => r.1 == p))) St.aborted 0 b

/-- A link that was up has gone (R324, R325, R329): it counts, its keys are dropped, and a LINK_DOWN note names the far end; the port trains again. -/
def Block.linkLost (b : Block) (p : PortId) : Block :=
  let x := b.port p
  ((b.dropForwards p).modPort p (fun x => { x with
    st := .training, lanes := 0, downs := if x.downs = 0xFF then x.downs else x.downs + 1, drops := 0, keys := [],
    downTimes := b.now :: x.downTimes.filter (fun t => decide (b.elapsed t ≤ 600000000000)) })).fabricF0 p 0 0x20 (farEnd 0x20 x.peer)

/-! ### Fencing -/

/-- A wale takes state 6 once it is idle and fenced. -/
def Block.settleFence (b : Block) (i : Nat) : Block :=
  if b.waleAvail i then b else
  match (b.wale i).st with
  | .gated | .clockGated | .warm => b.modWale i (fun w => { w with st := .fenced, waking := false })
  | _ => b

/-- Fence a unit for a note (R310, R315): the map and its shadow, the record, the copy to flash that is due, the availability
generation, and what becomes ungrantable. A second fence on a fenced unit changes nothing (R27). When the fence leaves all four
data groups of a quadrant fenced, the quadrant is fenced as a whole (R194). A quadrant's fence sets the quadrant's bit alone (log 147). -/
def Block.fenceUnit (b : Block) (u : FUnit) (n : Note) : Block :=
  if b.flt.fence.has u then b else
  let add (b : Block) (u : FUnit) : Block :=
    let b' := b.setFences (b.flt.fence.put u true)
    { b' with flt := { b'.flt with
        recs := Tab.put b'.flt.recs u.source.toNat ⟨u.source, n.source, n.kind, n.cls, n.detail, 0, n.ts, b.flt.boot, false⟩,
        copyDue := b'.flt.copyDue ++ [u.source] } }
  let b' := add b u
  let b' := match u with
    | .group i =>
      if (List.range 4).all (fun g => b'.flt.fence.has (.group (i / 5 * 5 + g))) && !b'.flt.fence.has (.quad (i / 5))
      then add b' (.quad (i / 5)) else b'
    | .port p =>
      let p : PortId := Fin.ofNat 4 p
      let up := (b'.port p).st == .up
      let b' := if up then b'.linkLost p else b'.dropForwards p
      let b' := b'.modPort p (fun x => { x with st := .fenced })
      if up && (b'.port p).role == .up then b'.promote p else b'
    | .noise i => (b'.restSource i).settleEntropy
    | .seeder _ => b'.settleEntropy
    | .ddr _ => b'.flushDdr
    | _ => b'
  let b' := (List.range 64).foldl Block.settleFence b'
  ((Block.countAvail b b').flushFenced).keepReserved.moveRail.refill

/-! ### Links that go down (R325, R326, R332, R341) -/

/-- A link that was up has gone: at its eighth time within 10 min the port is fenced (R326). -/
def Block.linkGone (b : Block) (p : PortId) : Block :=
  let peer := (b.port p).peer
  let b := b.linkLost p
  if (b.port p).downTimes.length < 8 then b else
  let n := b.noteOf { source := Src.fabric p 0, kind := 0x21, cls := 1, detail := farEnd 0x21 peer }
  (b.takeNote n).fenceUnit (.port p) n

/-- A link that is up goes down; where it was the UP port's, another is promoted. -/
def Block.linkDown (b : Block) (p : PortId) : Block :=
  let x := b.port p
  if x.st ≠ .up then b else
  let b := b.linkGone p
  if x.role = .up then b.promote p else b

/-- Every link drops at once (R341). -/
def Block.dropLinks (b : Block) : Block :=
  ((List.finRange 4).foldl (fun (b : Block) (p : PortId) => if (b.port p).st = .up then b.linkGone p else b) b).enterHoldover

/-! ### Halting, the zeroise line, sealing -/

/-- The jobs that wait for their journal commits have no record yet: they end with ABORTED (R288). -/
def Block.abortWaits (b : Block) (d : W32) : Block :=
  b.kst.waits.foldl (fun (b : Block) i => (b.modJob i (fun j => { j with result := { status := St.aborted, detail := d } })).finish i)
    { b with kst := { b.kst with waits := [] } }

/-- The dispatcher stops and every admitted job without a record ends with ABORTED (R288); at the zeroise line an output transfer is spared only
once its first host write has been issued (R289). Links drop after any notice (R341). -/
def Block.halt (b : Block) (d : W32) : Block :=
  let b := (b.jobsWhere (fun _ => true)).foldl (fun b i => if d = 4 then b.failNow i St.aborted d else b.failJob i St.aborted d) b
  let b := b.abortWaits d
  { b with tam := { b.tam with haltAt := some b.now } }.dropLinks

/-- The zeroise notice on every port that is UP (R341). -/
def Block.sendNotice (b : Block) (not : Option PortId) (sender : BitVec 12) (term : Nat) : Block :=
  (List.finRange 4).foldl (fun b p =>
    if b.wty.ports[p].st = .up ∧ some p ≠ not then b.sendFrame p "zeroise" (le 2 sender.toNat ++ le 8 term) else b) b

/-- The customer-open region of every wale reads zero and no customer entry is left (R132); stores not yet locked hold nothing (R104). -/
def Block.dropCustomer (b : Block) : Block :=
  { b with
    wales := b.wales.map (fun p => (p.1, if !p.2.csb.getLsbD 31 then p.2 else { p.2 with
      ustore := p.2.ustore.filter (fun e => decide (e.1 < 0x3000)), nstore := p.2.nstore.filter (fun e => decide (e.1 < 0x600)) })),
    boot := { b.boot with custEntries := [], custImage := [] } }

/-- The catalogue generation advances (R189). -/
def Block.advanceCat (b : Block) : Block := { b with boot := { b.boot with catGen := b.boot.catGen + 1 } }.event 5

/-- The root key is lost: a sealing key that a migration brought, kept under it, goes too (R21, R235, R252). -/
def Block.dropCarried (b : Block) : Block :=
  let drop (t : Tab Slice) : Tab Slice := t.map (fun p => (p.1, { p.2 with carried := none, mig := { p.2.mig with secret := [] } }))
  { b with slices := drop b.slices, flash := { b.flash with slices := drop b.flash.slices } }

/-- The tombstones that EXPIRE_AT_RESET keys leave (R237). -/
def tombstones (t : Tab Key) : Tab Key :=
  (t.filter (fun p => p.2.expire || p.2.tombstone)).map (fun p => (p.1, { p.2 with tombstone := true, secret := [], pub := [] }))

/-- The jobs whose output transfer has issued its first host write: the slots and pages that hold it are swept once it ends (R289). -/
def Block.sending (b : Block) : List Job := b.jobs.filter (fun j => j.phase == .output && j.sent && !j.ended)

/-- The zeroise line (R18, R237, R252, R282, R289, R303, R306): the root key, every key entry, every battery counter but the device's own 64,
the operand and shared memories but for an output on its way, the micro-states, the seeders and the wale DRBGs are gone at once; the store sweeps;
one OTP step falls due if a root key was present (R303). -/
def Block.zeroiseLine (b : Block) : Block :=
  let had := b.bat.rootKey.isSome
  let sends (x : Wale) : Bool := x.job.any (fun id => b.sending.any (fun j => j.id == id))
  let pages (q : Nat) : List Nat := (b.sending.filter (fun j => j.quad == q)).flatMap (·.pages)
  let cust := !b.boot.custEntries.isEmpty
  let b := { b with
    bat := { b.bat with
      rootKey := none, zeroised := true, zeroPin := b.bat.zeroPin || had,
      counters := b.bat.counters.filter (fun e => decide (e.1 < 64)), owners := [], evicted := [] },
    otp := { b.otp with stepDue := b.otp.stepDue + (if had then 1 else 0) },
    kst := { b.kst with
      st := if b.kst.st = KstSt.closed then KstSt.closed else KstSt.sweeping, keys := tombstones b.kst.keys, lag := [], waits := [] },
    rng := { b.rng with
      seeders := b.rng.seeders.map (fun (p : Nat × Seeder) => (p.1, { p.2 with st := .init, seeded := false, withheld := false, donor := none, ts := b.now })),
      blocks := [], held := [] },
    wales := b.wales.map (fun (p : Nat × Wale) => (p.1,
      { p.2 with
        drbgSeeded := false, drbgWant := false, drbgUrgent := false, drbgSent := false, micro := {},
        opmem := if sends p.2 then p.2.opmem else [], sTags := if sends p.2 then p.2.sTags else [] })),
    quads := b.quads.map (fun (p : Nat × Quad) => (p.1,
      { p.2 with
        mem := p.2.mem.filter (fun c => (pages p.1).contains (c.1 / 4096)), memS := p.2.memS.filter (pages p.1).contains,
        spills := p.2.spills.map (fun (x : Spill) => { x with micro := {}, objects := [], sTags := [] }) })),
    tam := { b.tam with lineAt := some b.now } }
  let b := if cust then b.dropCustomer.advanceCat else b.dropCustomer
  b.dropCarried.sendNotice none (b.wty.number.getD 0) (b.counter 2)

/-- The seal (R318), taken once the sweep has ended: the power controller, the fault collector, the tamper domain and the battery domain go on,
the PCIe endpoint answers, and every other block is held in reset. -/
def Block.seal (b : Block) : Block :=
  { now := b.now, wrapped := b.wrapped, bat := b.bat, otp := b.otp, tam := b.tam, flt := { b.flt with sealed := true, sealing := false }
    rng := { draws := b.rng.draws }
    kst := { st := b.kst.st, keys := b.kst.keys, cursor := b.kst.cursor, commits := b.kst.commits }
    dsp := { next := b.dsp.next }
    wales := b.wales.map (fun (p : Nat × Wale) => (p.1, { ({} : Wale) with
      st := if p.2.st = .fenced then .fenced else .gated, age := p.2.age, csb := p.2.csb, csbShadow := p.2.csbShadow }))
    ddr := { objects := b.ddr.objects }
    host := { perst := b.host.perst, configured := b.host.configured }
    boot := { b.boot with
      coreUp := false, ready := false, rimUp := false, recovery := false, csLoaded := false, fencesDone := false, catGen := 0,
      custEntries := [], custImage := [], csBad := 0 }
    flash := b.flash, pwr := b.pwr, link := b.link }

/-! ### Fault notes (R309 to R314) -/

/-- The reaction of a class (Table 13.3); a TAMPER note has none (R310). The job a note fails is failed by the rule that raises it. -/
def Block.react (b : Block) (n : Note) : Block :=
  if n.kind = 0x0F then b else
  match n.cls with
  | 1 => match FUnit.ofSource n.source with
    | some u => b.fenceUnit u n
    | none => b
  | 3 => { b with flt := { b.flt with halted := true } }.halt 3
  | 4 =>
    let b := { b with flt := { b.flt with halted := true, sealing := true }, bat := { b.bat with sealRecord := some n } }.zeroiseLine
    b.halt 4
  | _ => b

/-- The thresholds of Table 13.4: how many notes of a kind within how many ns. -/
def escalation (k : Byte) : Option (Nat × Nat) :=
  let h := 3600000000000
  if k = 0x01 then some (64, 24 * h) else if k = 0x02 then some (2, 24 * h) else if k = 0x05 then some (3, h)
  else if k = 0x03 then some (3, 24 * h) else if k = 0x07 then some (2, 24 * h) else none

/-- The unit a repeated error of a kind is counted for (Table 13.4): the memory itself for a corrected error, else the wale for a unit of a wale. -/
def countedUnit (k : Byte) (s : W16) : W16 :=
  match FUnit.ofSource s with
  | some (.wale i) => if k = 0x01 then s else Src.waleUnit i 0
  | _ => s

/-- Is a note of this kind from this source one that Table 13.4 counts? -/
def countable (k : Byte) (s : W16) : Bool :=
  let wale := match FUnit.ofSource s with | some (.wale _) => true | _ => false
  let shared := Src.level s == 4 && Src.engine s == 0 && Src.unit s == 1
  if k = 0x01 then (Src.level s == 3 && Src.unit s == 3) || shared || (Src.level s == 5 && Src.wale s == 2)
  else if k = 0x02 then wale || shared else wale

/-- How many notes of a kind a unit has had within the window (R314). -/
def Block.countNotes (b : Block) (u : W16) (k : Byte) (win : Nat) : Nat :=
  (b.flt.counted.filter (fun c => c.1 == u && c.2.1 == k && decide (b.elapsed c.2.2 ≤ win))).length

/-- A CS_PARITY fence that reached the threshold is not lifted automatically (Table 13.4). -/
def Block.holdParity (b : Block) (u : W16) : Block :=
  { b with flt := { b.flt with recs := b.flt.recs.map (fun (p : Nat × FenceRec) =>
      (p.1, if FUnit.ofSource p.2.unit = FUnit.ofSource u ∧ p.2.kind = 0x03 then { p.2 with held := true } else p.2)) } }

/-- Raise a fault note: count, log, react by class, and escalate a unit that reaches its threshold (R310, R314). -/
def Block.raise (b : Block) (r : Raise) : Block :=
  let n := b.noteOf r
  let b := (b.takeNote n).react n
  match escalation r.kind with
  | none => b
  | some (lim, win) =>
    let u := countedUnit r.kind r.source
    if !countable r.kind r.source then b else
    let b := { b with flt := { b.flt with counted := (u, r.kind, b.now) :: b.flt.counted } }
    if b.countNotes u r.kind win = lim then
      let e : Note := { n with source := u, kind := 0x13, cls := 1, detail := r.kind.setWidth 32, addr := 0, slice := 0xFFFF, jobSeq := 0, tag := 0 }
      let b := (b.takeNote e).react e
      if r.kind = 0x03 then b.holdParity u else b
    else b

/-- A note without job or slice. -/
def Block.note (b : Block) (source : W16) (kind : Byte) (cls : Fin 5) (detail : W32) : Block :=
  b.raise { source := source, kind := kind, cls := cls, detail := detail }

/-! ### Tamper alarms (R286 to R290) -/

/-- Append an event record to the main log of 256 records (R304). -/
def Block.logEvent (b : Block) (source : W16) (conf eff : Resp) (detail : W32) (flags : Byte) : Block :=
  let e : Event := ⟨b.now, b.bat.rtc, source, conf, eff, detail, b.bat.seq + 1, flags⟩
  { b with bat := { b.bat with seq := b.bat.seq + 1 }, tam := { b.tam with log := (e :: b.tam.log).take 256, batch := 0 } }

/-- The configured response of a source. -/
def Block.respOf (b : Block) (t : Nat) : Resp := (b.tam.policy.resp[t]?).getD .log

/-- The higher of two responses. -/
def Resp.max (a b : Resp) : Resp := if a.code < b.code then b else a

/-- What a response does in this lifecycle: in FACTORY, ZEROISE and ZEROISE_SEAL act as HALT (R290). -/
def Block.actual (b : Block) (r : Resp) : Resp :=
  if b.otp.lifecycle = .factory ∧ 2 < r.code then .halt else r

/-- The response in force once an alarm asks for another. -/
def Resp.after (l : Option Resp) (r : Resp) : Resp := l.elim r (fun o => Resp.max o r)

/-- A record among those of one time stamp, in the order of their sources (R287). -/
def insertEvent (e : Event) : List Event → List Event
  | [] => [e]
  | x :: r => if e.source.toNat < x.source.toNat then e :: x :: r else x :: insertEvent e r

/-- Records of one time stamp in their order, numbered on from n, each with the response in force after it (R287, R304). -/
def combine (act : Resp → Resp) : Option Resp → W32 → List Event → List Event
  | _, _, [] => []
  | l, n, e :: r =>
    let eff := Resp.after l (act e.conf)
    { e with eff := eff, seq := n + 1 } :: combine act (some eff) (n + 1) r

/-- A log, newest first, with a record more: the newest `batch` records are of its own time stamp, and it takes its place among them by its source.
`before` is the response in force before them, and `seq` the number of the newest record. -/
def enterEvent (act : Resp → Resp) (before : Option Resp) (batch : Nat) (seq : W32) (e : Event) (log : List Event) : List Event :=
  (combine act before (seq - BitVec.ofNat 32 batch) (insertEvent e (log.take batch).reverse)).reverse ++ log.drop batch

/-- The hottest Tj. -/
def Tjs.hottest (t : Tjs) : Int := (t.wales.toList ++ t.nets.toList).foldl max (max t.rim t.kst)

/-- The class of a TAMPER note (Table 12.2). -/
def Resp.cls : Resp → Fin 5
  | .log => 0 | .alert => 0 | .halt => 3 | .zeroise => 3 | .zeroiseSeal => 4

/-- Take a response (Table 12.2). -/
def Block.respond (b : Block) (r : Resp) : Block :=
  let b := if 1 ≤ r.code then { b with tam := { b.tam with alarmN := true } } else b
  let b := if r.code = 4 then { b with flt := { b.flt with sealing := true } } else b
  let b := if 3 ≤ r.code then b.zeroiseLine else b
  if 2 ≤ r.code then { b with tam := { b.tam with halted := true } }.halt (if 3 ≤ r.code then 4 else 3) else b

/-- A source raises its alarm on main power (R286, R287): sticky flag, event record in the order of time stamp and source, TAMPER event, note, and
the higher response; a note that seals the device is kept as its seal record (R318). A fused source never does (R300). -/
def Block.tamperAlarm (b : Block) (t : TamperId) (detail : W32) : Block :=
  if b.otp.fused.getLsbD t then b else
  let conf := b.respOf t
  let act := b.actual conf
  let old := b.tam.level
  let first := !b.tam.any
  let force := if first then none else some old
  let eff := Resp.after force act
  let same := decide (0 < b.tam.batch) && b.tam.log.head?.any (fun e => e.ts == b.now)
  let batch := if same then b.tam.batch else 0
  let before := if same then b.tam.before else force
  let e : Event := ⟨b.now, b.bat.rtc, Src.tamper t, conf, eff, detail, 0, 0⟩
  let b := { b with
    bat := { b.bat with sticky := setBit b.bat.sticky t true, seq := b.bat.seq + 1 },
    tam := { b.tam with
      active := setBit b.tam.active t true, any := true, level := eff, details := Tab.put b.tam.details t detail,
      batch := batch + 1, before := before, log := (enterEvent b.actual before batch b.bat.seq e b.tam.log).take 256 } }.event 3
  let n := b.noteOf { source := Src.tamper t, kind := 0x0F, cls := conf.cls, detail := detail }
  let b := b.note (Src.tamper t) 0x0F conf.cls detail
  if first || decide (old.code < eff.code) then
    { b with bat := { b.bat with sealRecord := if eff.code = 4 then some n else b.bat.sealRecord } }.respond eff
  else b

/-! ### Fences that wait (R316) -/

/-- Does a fenceable unit hold a job or a transfer of one? A data group holds the transfers it serves, and group 4 those by a gather list. -/
def Block.unitHolds (b : Block) : FUnit → Bool
  | .wale i => b.waleBusy i
  | .quad q => (List.range 16).any (fun w => b.waleBusy (16 * q + w)) || !(b.quad q).spills.isEmpty ||
      (List.range 8).any (fun c => (b.chan (8 * q + c)).xfer.isSome)
  | .code i => b.jobs.any (fun j => j.granted && j.quad == i / 4 && j.codePair.any (fun p => p.val == i % 4 / 2))
  | .chan c => (b.chan c).xfer.isSome
  | .group i => (List.range 8).any (fun c => (b.chan (8 * (i / 5) + c)).xfer.any (fun x => if i % 5 = 4 then x.gather else x.group.val == i % 5))
  | .ddr c => (List.range 32).any (fun k => (b.chan k).xfer.any (fun x => x.target.toNat == c + 1))
  | _ => false

/-- The fences that waited take effect on the units that no longer hold a job, and an FLT_FENCE in progress is answered (R316). -/
def Block.takeFences (b : Block) : Block :=
  b.flt.fencesDue.foldl (fun (b : Block) (src : W16) =>
    match FUnit.ofSource src with
    | none => b
    | some u =>
      if b.unitHolds u then b else
      let b := { b with flt := { b.flt with fencesDue := b.flt.fencesDue.filter (· != src) } }.note src 0x16 1 (openDetail 0x16)
      if b.admin.busy ∧ b.admin.code = 0x0084 then b.complete none (.ok []) else b) b

/-! ### The tick (R297, R322, R330 to R333, R343) -/

/-- What a port that is up sends at its time: a sync frame every microsecond, on every port but a standby link an advertisement of the idle wales
every 10 µs, and towards the master a keep-alive every 100 µs; at whole multiples of the time base (log 10). -/
def Block.sendPeriodic (b : Block) (p : PortId) : Block :=
  let x := b.port p
  if x.st ≠ .up then b else
  let at_ (n : Nat) : Bool := b.now.toNat % n == 0
  let b := if at_ 1000 then b.sendFrame p "sync" (le 8 b.now.toNat) else b
  let b := if at_ 10000 && x.role != .alt then
    b.sendFrame p "advertisement" (le 2 ((List.range 64).filter b.freeWale).length) else b
  if at_ 100000 && b.joined && !b.wty.master && x.role == .up then b.sendFrame p "keepalive" (le 2 b.self.toNat) else b

/-- One tick of the time base while no command waits (DESIGN CHOICE, log 10): one nanosecond, which the steering of a member lengthens or leaves out
once its rate has gathered as much (R330, R331). A fence that waited for a job which has ended takes effect (R316). Without the core domain only the battery domain's clock goes on. -/
def Block.tick (b : Block) : Block :=
  if !b.boot.coreUp then (if b.boot.aonUp || b.bat.supplied then { b with bat := b.bat.pass 1 } else b) else
  let g := b.wty.phase + b.wty.rate
  let n : Nat := if 1000000000 ≤ g then 2 else if g ≤ -1000000000 then 0 else 1
  let b := b.modWty (fun f => { f with phase := g + 1000000000 - 1000000000 * (n : Int) })
  if n = 0 then b else (List.finRange 4).foldl Block.sendPeriodic (b.setTime (b.now + BitVec.ofNat 64 n)).takeFences

/-! ### Drawing -/

/-- The next `n` free bytes (log 3). -/
def Block.anyBytes (b : Block) (n : Nat) : Bytes := (List.range n).map (fun i => Config.freeByte (b.rng.draws + i))
/-- Draw `n` bytes of the random stream (R34): free values, and while the factory pattern is applied known answers that follow from it (R283, log 3). -/
def Block.draw (b : Block) (n : Nat) : Bytes :=
  match b.rng.pattern with
  | none => b.anyBytes n
  | some p => (List.range n).map (fun i => Config.patternByte p (b.rng.draws - b.rng.patternFrom + i))
/-- The stream after `n` bytes were drawn. -/
def Block.drew (b : Block) (n : Nat) : Block := { b with rng := { b.rng with draws := b.rng.draws + n } }
/-- Conditioned output of `n` 128-bit blocks (R280); of the factory pattern every block is the same (R283). -/
def Block.conditioned (b : Block) (n : Nat) : Bytes :=
  match b.rng.pattern with
  | none => b.anyBytes (16 * n)
  | some p => (List.range n).flatMap (fun _ => algBytes .conditioned 0 [le 8 p.toNat] 16)

/-- Does a seeder serve work it has taken on: it has been instantiated and no known-answer run withholds its output (R271, R275, R281)? -/
def Block.serves (b : Block) (q : Nat) : Bool := (b.seeder q).seeded && (b.seeder q).st != .init && !(b.seeder q).withheld

/-- One request, of at most 64 KiB: the seeder first takes the reseed that its 64 KiB of output call for, while it delivers (R271, R275). -/
def Block.seedRequest (b : Block) (q n : Nat) : Block :=
  let b := if b.delivers q && decide (65536 < (b.seeder q).since + n) then b.reseedSeeder q else b
  (b.drew n).modSeeder q (fun z => { z with bytes := z.bytes + BitVec.ofNat 64 n, since := z.since + n })

/-- The seeder of a quadrant delivers `n` bytes, in requests of at most 64 KiB, counted at it (R271, R274, Table 11.13). -/
def Block.seedDraw (b : Block) (q n : Nat) : Block :=
  (List.range (n / 65536 + 1)).foldl (fun (b : Block) (k : Nat) => b.seedRequest q (min 65536 (n - 65536 * k))) b

/-- A seeder serves up to `n` of the wale DRBGs that wait at it: those of rank 3 first, then those of rank 4, first come first served within a
rank (R274, Table 11.7). -/
def Block.serveSeeds (q : Nat) : Nat → Block → Block
  | 0, b => b
  | n + 1, b =>
    let l : List WaleId := (b.seeder q).queue.filter (fun (w : WaleId) => (b.wale w).drbgWant)
    if !b.serves q then b else
    match (l.find? (fun (w : WaleId) => (b.wale w).drbgUrgent)).orElse (fun _ => l.head?) with
    | none => b
    | some w =>
      Block.serveSeeds q n (((b.modSeeder q (fun z => { z with queue := l.filter (· != w) })).seedDraw q 48).modWale w (fun x => { x with
        drbgWant := false, drbgSent := true }))
/-- A seeder serves every wale DRBG that waits, as it does before a reseed at a wake that came after them or the software port (Table 11.7). -/
def Block.serveRanks (b : Block) (q : Nat) : Block := Block.serveSeeds q (b.seeder q).queue.length b

/-- A value the device itself draws: from the lowest-numbered quadrant whose seeder delivers (log 3). -/
def Block.drawDevice (b : Block) (n : Nat) : Option (Bytes × Block) :=
  match (List.range 4).find? b.delivers with
  | some q => some (b.draw n, b.seedDraw q n)
  | none => none

end Sys2Proof.Machine
end

