-- ==== Sys2Proof/Machine/Catalogue.lean ====
section
/-! DEFINITION. The catalogue of firmware 3.x (R2, R189, R414, Table 7.17): sizes of the schemes' strings, the maker entries by
opcode, the Adsor mirror (R418) and the entries of a customer image (R131). -/
namespace Sys2Proof.Machine

/-- The nth of a list of numbers, 0 past its end. -/
def pick (l : List Nat) (i : Nat) : Nat := l[i]?.getD 0

/-! ### Sizes (Tables 2.3, 2.6, 2.9, 2.12, 2.14, 3.3, 3.4, 3.10) -/
def kemEk : Nat → Nat := pick [800, 1184, 1568]
def kemDk : Nat → Nat := pick [1632, 2400, 3168]
def kemC : Nat → Nat := pick [768, 1088, 1568]
def dsaPk : Nat → Nat := pick [1312, 1952, 2592]
def dsaSk : Nat → Nat := pick [2560, 4032, 4896]
def dsaSig : Nat → Nat := pick [2420, 3309, 4627]
def fnPk : Nat → Nat := pick [897, 1793]
def fnSk : Nat → Nat := pick [1281, 2305]
def fnSig : Nat → Nat := pick [666, 1280]
def slhN (s : Nat) : Nat := pick [16, 16, 24, 24, 32, 32] (s / 2)
def slhPk (s : Nat) : Nat := 2 * slhN s
def slhSk (s : Nat) : Nat := 4 * slhN s
def slhSig (s : Nat) : Nat := pick [7856, 17088, 16224, 35664, 29792, 49856] (s / 2)
def hqcPk : Nat → Nat := pick [2249, 4522, 7245]
def hqcSk : Nat → Nat := pick [2305, 4586, 7317]
def hqcC : Nat → Nat := pick [4433, 8978, 14421]
def mcePk (s : Nat) : Nat := pick [261120, 524160, 1044992, 1047319, 1357824] (s / 2)
def mceSk (s : Nat) : Nat := pick [6492, 13608, 13932, 13948, 14120] (s / 2)
def mceC (s : Nat) : Nat := pick [96, 156, 208, 194, 208] (s / 2)
/-- Table 2.3: digest length of a PH_ID; 0 for an unlisted one. -/
def phLen : Nat → Nat := pick [0, 32, 48, 64, 32, 32, 48, 64, 32, 64]
/-- Coordinate length of a NIST curve. -/
def nistL : Nat → Nat := pick [32, 48, 66]
def edPkLen : Nat → Nat := pick [32, 57]
def edSigLen : Nat → Nat := pick [64, 114]
def xLen : Nat → Nat := pick [32, 56]
/-- FROST (RFC 9591): scalar and element lengths by suite (log 9). -/
def frostScalar : Nat → Nat := pick [32, 32, 57]
def frostPoint : Nat → Nat := pick [32, 33, 57]
def frostSigLen (s : Nat) : Nat := frostPoint s + frostScalar s

/-- The mean latency the catalogue gives an opcode, in ns, where the spec states one (Tables 2.7, 2.10, 2.12, 2.15, 3.3, 3.4, 3.11,
10.8, 17.5). -/
def latencyOf (op : Nat) : Option Nat :=
  let k := op / 16 % 16; let s := op % 16
  match op / 256 with
  | 0x01 => match k with
    | 0 | 1 => some (pick [380, 520, 680] s) | 2 => some (pick [420, 550, 720] s) | _ => some (pick [700, 950, 1250] s)
  | 0x02 => match k with
    | 0 | 1 => some (pick [8000, 12000, 17000] s) | 2 | 4 | 6 => some (pick [19000, 31000, 35000] s)
    | _ => some (pick [2100, 3000, 4300] s)
  | 0x03 =>
    let i := 2 * (s / 2) + (1 - s % 2)
    match k with
    | 0 | 1 => some (pick [660000, 1060000, 10000, 16000, 950000, 1520000, 14000, 22000, 620000, 1000000, 37000, 59000] i)
    | 2 | 4 => some (pick [3600000, 5800000, 190000, 300000, 6600000, 10600000, 310000, 500000, 5800000, 9300000, 620000, 990000] i)
    | _ => some (pick [8500, 14000, 26000, 42000, 12500, 20000, 38000, 60000, 18000, 29000, 38000, 61000] i)
  | 0x04 => match k with
    | 0 => some (pick [4200000, 11500000] s) | 2 | 4 => some (pick [125000, 260000] s) | _ => some (pick [1100, 2200] s)
  | 0x07 => match k with
    | 0 => some (pick [5000, 11000, 20000] s) | 2 => some (pick [8000, 18000, 32000] s) | _ => some (pick [12500, 28000, 50000] s)
  | 0x08 => match k with
    | 0 => some (let t := pick [1200000, 3000000, 7300000, 7600000, 10500000] (s / 2); if s % 2 = 1 then t * 7 / 10 else t)
    | 2 => some (pick [9000, 15000, 27000, 27000, 34000] (s / 2)) | 3 => some (pick [30000, 55000, 94000, 98000, 110000] (s / 2))
    | _ => some (2000 + mcePk s * 1000 / 65536)
  | 0x0A => match k with
    | 0 | 4 => some (pick [18000, 28000, 60000] s) | 2 => some (pick [20000, 30000, 62000] s)
    | 3 => some (pick [22000, 40000, 85000] s) | _ => none
  | 0x0B => match k with
    | 0 | 1 => some (pick [4500, 13000] s) | 2 | 4 | 6 => some (pick [5000, 15000] s) | 3 | 5 | 7 => some (pick [9000, 28000] s)
    | _ => some (pick [4000, 12000] s)
  | 0x10 => if op = 0x1000 then some 600 else if op = 0x1040 ∨ op = 0x1042 then some 2500
            else if op = 0x1020 ∨ op = 0x1021 ∨ op = 0x1022 ∨ op = 0x1023 ∨ op = 0x1041 ∨ op = 0x1060 then some 300 else none
  | 0x12 => match k with
    | 1 => some (pick [6000, 27000, 18000] s) | 2 => some (pick [7000, 31500, 21000] s) | _ => none
  | _ => if op = 0x0540 ∨ op = 0x0660 then some 300 else none

/-- The latency class of Table 7.17. -/
def latClassOf (ns : Nat) : Fin 8 :=
  if ns ≤ 1000 then 0 else if ns ≤ 4000 then 1 else if ns ≤ 16000 then 2 else if ns ≤ 64000 then 3
  else if ns ≤ 256000 then 4 else if ns ≤ 1000000 then 5 else if ns ≤ 16000000 then 6 else 7

/-- Finish an entry from its opcode: latency (a free value where the spec states none, log 4), latency class, cost (R134) and the
preemptible flag (R123). -/
def finishEntry (op : Nat) (e : Entry) : Entry :=
  let ns := (latencyOf op).getD (Config.freeNat 1 op)
  { e with
    opcode := BitVec.ofNat 16 op, latency := ns, latClass := latClassOf ns,
    cost := max 1 ((ns * e.wales + 999) / 1000), preemptible := decide (0 < e.wales) && e.codePairs == 0 }

/-- The largest u32: what an entry whose input ends with a streamed message reports (R413). -/
def streamed : Nat := 0xFFFFFFFF

/-- A secret operation on a wale pair, class 2 (R33, R57). -/
def pairEntry (opmem maxIn maxOut : Nat) (key par : Bool := false) (order : Fin 3 := 0) : Entry :=
  { takesKey := key, draws := true, takesParam := par, cls := 2, order := order, wales := 2, opmem := opmem, maxIn := maxIn, maxOut := maxOut }
/-- A public operation of class 1 on one wale. -/
def checkEntry (opmem maxIn : Nat) (par : Bool := false) : Entry :=
  { takesKey := true, takesParam := par, cls := 1, wales := 1, opmem := opmem, maxIn := maxIn }
/-- An operation of class 0 on one wale. -/
def plainEntry (opmem maxIn maxOut : Nat) (key par draws : Bool := false) : Entry :=
  { takesKey := key, takesParam := par, draws := draws, cls := 0, wales := 1, opmem := opmem, maxIn := maxIn, maxOut := maxOut }
/-- An operation of the key store: empty footprint, class 0. -/
def storeEntry (maxIn maxOut : Nat) (key : Bool := true) : Entry := { takesKey := key, maxIn := maxIn, maxOut := maxOut }

/-- The maker entry of a native opcode, before `finishEntry` (the opcode tables of chapters 02, 03, 04, 10, 11, 14; operand memory of
Table 4.10). -/
def makerShape (op : Nat) : Option Entry :=
  let k := op / 16 % 16; let s := op % 16
  match op / 256 with
  | 0x01 => if 2 < s then none else
    let m := pick [8, 12, 16] s
    match k with
    | 0 => some (pairEntry m 0 (kemEk s) false true 1)
    | 1 => some { pairEntry m 64 (kemEk s) false true 1 with secretIn := true }
    | 2 => some (pairEntry m (kemEk s) (kemC s + 32) true false 1)
    | 3 => some (pairEntry m (kemC s) 32 true false 1)
    | _ => none
  | 0x02 => if 2 < s then none else
    match k with
    | 0 => some (pairEntry (pick [32, 40, 48] s) 0 (dsaPk s) false true 1)
    | 1 => some { pairEntry (pick [32, 40, 48] s) 32 (dsaPk s) false true 1 with secretIn := true }
    | 2 => some (pairEntry (pick [36, 48, 64] s) streamed (dsaSig s) true true 1)
    | 4 => some (pairEntry (pick [36, 48, 64] s) 64 (dsaSig s) true true 1)
    | 6 => some (pairEntry (pick [36, 48, 64] s) 64 (dsaSig s) true false 1)
    | 3 => some (checkEntry (pick [24, 32, 40] s) streamed true)
    | 5 => some (checkEntry (pick [24, 32, 40] s) (dsaPk s + dsaSig s + 64) true)
    | 7 => some (checkEntry (pick [24, 32, 40] s) (dsaPk s + dsaSig s + 64))
    | _ => none
  | 0x03 => if 11 < s then none else
    match k with
    | 0 => some (pairEntry 64 0 (slhPk s) false true)
    | 1 => some { pairEntry 64 (3 * slhN s) (slhPk s) false true with secretIn := true }
    | 2 => some { pairEntry 64 streamed (slhSig s) true true with coop := true }
    | 3 => some (checkEntry 32 streamed true)
    | 4 => some { pairEntry 64 64 (slhSig s) true true with coop := true }
    | 5 => some (checkEntry 32 (slhPk s + slhSig s + 64) true)
    | _ => none
  | 0x04 => if 1 < s then none else
    match k with
    | 0 => some (pairEntry (pick [96, 192] s) 0 (fnPk s) false true 1)
    | 2 => some (pairEntry (pick [64, 128] s) streamed (fnSig s) true true 1)
    | 3 => some (checkEntry (pick [16, 32] s) streamed true)
    | 4 => some (pairEntry (pick [64, 128] s) 64 (fnSig s) true true 1)
    | 5 => some (checkEntry (pick [16, 32] s) (fnPk s + fnSig s + 64) true)
    | _ => none
  | 0x05 => match op with
    | 0x0500 => some { pairEntry 64 64 60 false true with coop := true }
    | 0x0510 => some (pairEntry 48 streamed (Config.freeNat 2 op) true true)
    | 0x0520 | 0x0530 => some (checkEntry 32 streamed true)
    | 0x0540 => some (storeEntry 0 32)
    | _ => none
  | 0x06 => match op with
    | 0x0600 | 0x0610 => some { pairEntry 64 4 68 false true with coop := op == 0x0600 }
    | 0x0620 | 0x0630 => some (pairEntry 48 streamed (Config.freeNat 2 op) true true)
    | 0x0640 | 0x0650 => some (checkEntry 32 streamed true)
    | 0x0660 => some (storeEntry 0 32)
    | _ => none
  | 0x07 => if 2 < s then none else
    let e (i o : Nat) (key par : Bool) : Entry := { pairEntry 48 i o key par with codePairs := 1, qmem := 64 }
    match k with
    | 0 => some (e 0 (hqcPk s) false true)
    | 2 => some (e (hqcPk s) (hqcC s + 64) true false)
    | 3 => some (e (hqcC s) 64 true false)
    | _ => none
  | 0x08 => if 9 < s then none else
    match k with
    | 0 => some { pairEntry 96 0 (mcePk s) false true with codePairs := 1, qmem := pick [512, 1024, 1792, 1792, 2048] (s / 2) }
    | 2 => some { pairEntry 16 (mcePk s) (mceC s + 32) true with codePairs := 1, qmem := pick [256, 512, 1024, 1024, 1536] (s / 2) }
    | 3 => some { pairEntry 48 (mceC s) 32 true with codePairs := 1, qmem := 64 }
    | 4 => some { plainEntry 16 0 (mcePk s) true with qmem := pick [256, 512, 1024, 1024, 1536] (s / 2) }
    | _ => none
  | 0x09 => match op with
    | 0x0900 => some (pairEntry 64 8 2052 false true)
    | 0x0920 => some (pairEntry 32 64 2048 true)
    | 0x0930 => some (checkEntry 16 (2052 + 2048 + 64))
    | 0x0940 => some (plainEntry 16 (2052 + 2048) 2048 true false true)
    | 0x0950 => some (pairEntry 32 2048 2048 true true)
    | 0x0960 => some (plainEntry 16 (2052 + 2048) 2048 true)
    | _ => none
  | 0x0A => if 2 < s then none else
    match k with
    | 0 => some (pairEntry 8 0 (1 + 2 * nistL s) false true)
    | 2 => some (pairEntry 8 64 (2 * nistL s) true)
    | 3 => some (checkEntry 8 (1 + 4 * nistL s + 64))
    | 4 => some (pairEntry 8 (1 + 2 * nistL s) (nistL s) true)
    | 6 => some (checkEntry 8 (1 + 2 * nistL s))
    | _ => none
  | 0x0B => if 1 < s then none else
    match k with
    | 0 => some (pairEntry 8 0 (edPkLen s) false true)
    | 1 => some (pairEntry 8 0 (xLen s) false true)
    | 2 => some (pairEntry 8 streamed (edSigLen s) true true)
    | 3 => some (checkEntry 8 streamed true)
    | 4 => if s = 0 then some (pairEntry 8 streamed (edSigLen s) true true) else none
    | 5 => if s = 0 then some (checkEntry 8 streamed true) else none
    | 6 => some (pairEntry 8 64 (edSigLen s) true true)
    | 7 => some (checkEntry 8 (edPkLen s + edSigLen s + 64) true)
    | 8 => some (pairEntry 8 (xLen s) (xLen s) true)
    | _ => none
  | 0x0C => match op with
    | 0x0C00 => some (pairEntry 32 0 0 true)
    | 0x0C10 => some (pairEntry 32 32768 512 true)
    | _ => none
  | 0x0D => match op with
    | 0x0D00 | 0x0D11 | 0x0D20 => some (pairEntry 32 32768 512 true)
    | 0x0D10 => some (pairEntry 32 32768 0 true)
    | 0x0D30 | 0x0D32 => some (pairEntry 32 0 8208 true)
    | 0x0D31 | 0x0D33 => some { pairEntry 32 8208 0 true true with secretIn := true }
    | 0x0D40 | 0x0D50 => some { pairEntry 144 65536 (65536 + 28) true true with secretIn := true }
    | 0x0D41 | 0x0D51 => some { pairEntry 144 (65536 + 28) 65536 true true with secretIn := true }
    | _ => none
  | 0x0E => if op = 0x0E00 ∨ 0x0E09 < op then none else some (plainEntry 8 0x1000000 (phLen s))
  | 0x0F => match op with
    | 0x0F00 => some { storeEntry 0 65536 false with draws := true }
    | 0x0F01 => some { storeEntry 0 4096 false with draws := true }
    | _ => none
  | 0x10 => match op with
    | 0x1000 => some (pairEntry 16 0 0 false true)
    | 0x1010 => some { pairEntry 32 16384 0 false true with secretIn := true }
    | 0x1011 => some { checkEntry 16 16384 true with takesKey := false }
    | 0x1020 => some (storeEntry 0 0)
    | 0x1021 => some (storeEntry 0 64)
    | 0x1022 => some (storeEntry 0 8192)
    | 0x1023 => some (storeEntry 64 0)
    | 0x1030 | 0x1031 => some { pairEntry 32 0 16384 true with ddr5 := true }
    | 0x1032 => some { pairEntry 32 16384 0 with ddr5 := true }
    | 0x1040 | 0x1042 => some (storeEntry 0 0 false)
    | 0x1041 => some (storeEntry 0 8 false)
    | 0x1050 => some (storeEntry 0 0 false)
    | 0x1060 => some (storeEntry 128 0 false)
    | _ => none
  | 0x11 => match op with
    | 0x1100 | 0x1101 | 0x1102 | 0x1105 => some (plainEntry 16 6144 2048)
    | 0x1103 => some (plainEntry 16 6144 2048)
    | 0x1104 => some (plainEntry 16 4096 2048)
    | 0x1110 => some (plainEntry 16 8194 4097 false true)
    | 0x1111 => some (plainEntry 16 6145 4097 false true)
    | _ => none
  | 0x12 => if 2 < s then none else
    match k with
    | 0 => some (pairEntry 32 2 (frostPoint s + 64 * (4 + frostPoint s)) false true)
    | 1 => some (pairEntry 16 0 (2 * frostPoint s) true)
    | 2 => some (pairEntry 16 streamed (frostScalar s) true)
    | 3 => some { checkEntry 32 streamed with maxOut := frostSigLen s }
    | 4 => some (checkEntry 16 streamed)
    | 5 => some { checkEntry 32 streamed with maxOut := frostSigLen s }
    | 6 => some (storeEntry 4 0)
    | _ => none
  | _ => none

/-- The maker entry of a native opcode. -/
def maker (op : Nat) : Option Entry := (makerShape op).map (finishEntry op)

/-- The catalogue entry in force of an opcode: maker, Adsor mirror (R418) or customer (R131); none before the catalogue is installed. -/
def Block.entryOf (b : Block) (op : Nat) : Option Entry :=
  if !b.boot.csLoaded then none
  else if 0x3000 ≤ op ∧ op < 0x4000 then
    (maker (native op)).map (fun e => { e with opcode := BitVec.ofNat 16 op, adsor := true, coop := false })
  else if 0x2000 ≤ op ∧ op < 0x3000 then b.boot.custEntries.find? (fun e => e.opcode.toNat == op)
  else maker op

/-- The entries a mailbox may see, in ascending opcode order (R189, R418): all for the admin mailbox, and for a slice those it may
issue (R3). -/
def Block.visible (b : Block) (box : Option SliceId) : List Entry :=
  let nat := (List.range 0x1300).filterMap b.entryOf
  let cust := (List.range 0x1000).filterMap (fun i => b.entryOf (0x2000 + i))
  let ads := (List.range 0x1000).filterMap (fun i => b.entryOf (0x3000 + i))
  match box with
  | none => nat ++ cust ++ ads
  | some s => if (b.slice s).adsor then ads else nat ++ cust

/-- The flags of a catalogue entry (Table 7.17). -/
def Entry.flags (e : Entry) : Nat :=
  b1 e.takesKey + 2 * b1 e.draws + 4 * b1 e.secretIn + 8 * b1 e.preemptible + 16 * b1 e.coop + 32 * b1 e.customer +
  64 * b1 e.rimAssist + 128 * b1 e.adsor + 256 * b1 e.takesParam

/-- Table 7.17: the 32 bytes of a catalogue entry. -/
def entryBytes (e : Entry) : Bytes :=
  le 2 e.opcode.toNat ++ le 2 e.flags ++ le 1 e.cls.val ++ le 1 e.latClass.val ++ le 1 e.order.val ++ le 1 e.wales ++
  le 1 e.codePairs ++ [0] ++ le 2 e.opmem ++ le 4 e.qmem ++ le 4 e.cost ++ le 4 e.maxIn ++ le 4 e.maxOut ++ le 4 e.latency

end Sys2Proof.Machine
end

