-- ==== Sys2Proof/Machine/Keys.lean ====
section
/-! DEFINITION. The key store's operations (chapter 10): handles, space, the check of a key handle (R31), templates (R240, R241),
creation and deletion. -/
namespace Sys2Proof.Machine

/-! ### Types (Tables 10.2 and 10.3) -/

/-- The usages a type may carry. -/
def permitted (t : Nat) : Nat :=
  match t / 256 with
  | 0x01 | 0x07 | 0x08 => 0x200C
  | 0x02 | 0x03 | 0x04 => 0x2003
  | 0x05 | 0x06 => 0x0003
  | 0x09 => 0x200F
  | 0x0A => 0x2013
  | 0x0B => if t % 256 < 0x10 then 0x2003 else 0x2010
  | 0x0C => 0x20E0
  | 0x0D => match t % 256 with
    | 0 => 0x3060 | 1 | 2 => 0x2C00 | 3 => 0x2300 | _ => 0
  | 0x12 => match t / 16 % 16 with
    | 0 | 1 => 0x2003 | 2 => 0x0003 | _ => 0
  | _ => 0

/-- Is a type listed in Table 10.2? -/
def typeListed (t : Nat) : Bool :=
  let s := t % 256
  match t / 256 with
  | 0x01 | 0x02 | 0x07 | 0x0A => decide (s < 3)
  | 0x03 => decide (s < 12)
  | 0x04 | 0x06 => decide (s < 2)
  | 0x05 | 0x09 | 0x0C => s == 0
  | 0x08 => decide (s < 10)
  | 0x0B => s == 0 || s == 1 || s == 0x10 || s == 0x11
  | 0x0D => decide (s < 4)
  | 0x12 => decide (s % 16 < 3) && decide (s / 16 < 3)
  | _ => false

/-- A stateful hash-based type. -/
def statefulType (t : Nat) : Bool := t / 256 == 5 || t / 256 == 6
/-- A type whose masking order is meaningful. -/
def latticeType (t : Nat) : Bool := t / 256 == 1 || t / 256 == 2 || t / 256 == 4

/-- The secret half's length in bytes, where the tables state it (Tables 2.6, 2.9, 2.12, 2.14, 3.3, 3.4, 10.6). -/
def secretLen (t keyLen : Nat) : Nat :=
  let s := t % 256
  match t / 256 with
  | 0x01 => kemDk s | 0x02 => dsaSk s | 0x03 => slhSk s | 0x04 => fnSk s | 0x07 => hqcSk s | 0x08 => mceSk s
  | 0x09 => 4 + keyLen / 8
  | 0x0A => nistL s
  | 0x0B => if s < 0x10 then edPkLen s else xLen (s % 16)
  | 0x0C => keyLen
  | 0x0D => if s = 0 then keyLen else 32
  | 0x12 => if s < 0x10 then 0 else frostScalar (s % 16)
  | _ => 0

/-- The public half's length in bytes; 0 where the store holds none. -/
def publicLen (t keyLen : Nat) : Nat :=
  let s := t % 256
  match t / 256 with
  | 0x01 => kemEk s | 0x02 => dsaPk s | 0x03 => slhPk s | 0x04 => fnPk s | 0x07 => hqcPk s
  | 0x09 => keyLen / 8 + 4
  | 0x0A => 1 + 2 * nistL s
  | 0x0B => if s < 0x10 then edPkLen s else xLen (s % 16)
  | 0x05 => 60 | 0x06 => 68
  | _ => 0

/-! ### Handles and space (R235, R236, R417) -/

/-- The handle of an index of a slice. -/
def handleOf (s index : Nat) : W32 := BitVec.ofNat 32 (s * 2 ^ 21 + index)
/-- The handle of a device-scope index. -/
def devHandle (index : Nat) : W32 := BitVec.ofNat 32 (2 ^ 31 + index)
/-- Device scope? -/
def devScope (h : W32) : Bool := h.getLsbD 31
/-- Slice number of a handle. -/
def handleSlice (h : W32) : Nat := bits h.toNat 30 21

/-- Store space of an entry with material of n bytes (R235). -/
def entrySpace (n : Nat) : Nat := roundUp (128 + n) 64
/-- Store space of a key; a tombstone occupies none (R237). -/
def Key.space (k : Key) : Nat :=
  if k.tombstone then 0 else entrySpace (k.secret.length + k.pub.length) + (if k.stateful.isSome then 8192 else 0)

/-- Store space a slice's keys take. -/
def Block.keyUse (b : Block) (s : Nat) : Nat :=
  (b.kst.keys.filter (fun p => decide (p.1 / 2 ^ 21 = s))).foldl (fun a p => a + p.2.space) 0
/-- Store space its jobs have reserved (R417). -/
def Block.keyReserved (b : Block) (s : Nat) : Nat :=
  (b.jobs.filter (fun j => !j.dev && j.slice.val == s)).foldl (fun a j => a + j.reservedKst) 0
/-- Does `n` more bytes fit the slice's free KST reservation? -/
def Block.keyFits (b : Block) (s n : Nat) : Bool :=
  decide (b.keyUse s + b.keyReserved s + n ≤ (b.slice s).quota.kst * 1024)

/-- Store space the device-scope keys take. -/
def Block.deviceUse (b : Block) : Nat := (b.kst.keys.filter (fun x => x.1 / 2 ^ 21 == 1024)).foldl (fun a x => a + x.2.space) 0
/-- Does a new key of a job find room: in its slice's reservation, or in the 512 KiB of device scope (R235)? -/
def Block.roomFor (b : Block) (j : Job) (n : Nat) : Bool :=
  if j.dev then decide (b.deviceUse + n ≤ 512 * 1024) else b.keyFits j.slice n

/-- The numbers a slice's objects may carry: its own and, after a migration, its former ones (log 140). -/
def Block.knownAs (b : Block) (s : SliceId) : List Nat := s.val :: (b.slice s).aka
/-- The counter a slice's descriptor or object names: one of its own, or the one that stands for it since a migration (log 140). -/
def Block.ctrOf (b : Block) (s : SliceId) (n : Nat) : Nat := if b.ctrOwner n = .slice s then n else Tab.get n (b.slice s).ctrAka n

/-- Is an index of a slice free: no entry, or a tombstone? -/
def Block.indexFree (b : Block) (h : W32) : Bool :=
  match b.key h with
  | some k => k.tombstone
  | none => true

/-- The next free index from `i` on, wrapping from 0x1FFFFF to 1 (R236); the fuel is one more than the entries there are. -/
def Block.nextIndex (b : Block) (scope : Nat) : Nat → Nat → Nat
  | 0, i => i
  | n + 1, i =>
    let i := if 0x1FFFFF < i then 1 else i
    if b.indexFree (BitVec.ofNat 32 (scope * 2 ^ 21 + i)) then i else b.nextIndex scope n (i + 1)

/-- Assign the next handle of a scope: a slice number, or 1024 for device scope. -/
def Block.assign (b : Block) (scope : Nat) : Block × W32 :=
  let i := b.nextIndex scope (b.kst.keys.length + 1) (Tab.get 0 b.kst.cursor scope + 1)
  ({ b with kst := { b.kst with cursor := Tab.put b.kst.cursor scope i } }, BitVec.ofNat 32 (scope * 2 ^ 21 + i))

/-- Put a new or changed entry at a handle; a key that does not expire is a change of the journal (R244). -/
def Block.setKey (b : Block) (h : W32) (k : Key) : Block :=
  if k.expire then b.putKey h k else (b.putKey h k).change (.key h)

/-- Is a new key of a scope replicated: not a stateful or session key, a FROST nonce, a NO_MIGRATE or device-scope key (R339)? -/
def Block.replicates (b : Block) (scope : Nat) (k : Key) : Bool :=
  decide (scope < 1024) && (b.slice scope).replicated && k.stateful.isNone && !k.expire && !k.noMigrate

/-- Put a new entry at a handle with its first reservation ceiling (R245). -/
def Block.enterKey (b : Block) (scope : Nat) (h : W32) (k : Key) : Block :=
  b.setKey h { k with ceiling := k.useCount.toNat + 1024, replicated := b.replicates scope k }

/-- Create an entry in a scope. -/
def Block.createKey (b : Block) (scope : Nat) (k : Key) : Block × W32 :=
  let (b, h) := b.assign scope
  (b.enterKey scope h k, h)

/-- An AEAD type, whose 4-byte fixed field (R70) the entry keeps where a key pair keeps its public half. -/
def aeadType (t : Nat) : Bool := t == 0x0D01 || t == 0x0D02

/-- What a FROST key's entry keeps of its group: threshold, count and identifier, a byte each (log 18). -/
def Key.shareBytes (k : Key) : Bytes :=
  match k.share with | some (t, n, i) => le 1 t ++ le 1 n ++ le 1 i | none => []
/-- The material an object or an image carries of a key: both halves, and a FROST key's share (R228, R249). -/
def Key.material (k : Key) : Bytes := k.secret ++ k.pub ++ k.shareBytes
/-- Is a type one of a FROST group or share? -/
def frostKey (t : Nat) : Bool := t / 16 == 0x120 || t / 16 == 0x121
/-- What a wrap carries of a key: its secret half; of a FROST group or share also what its entry keeps of its group, in front (log 164). -/
def Key.wrapped (k : Key) : Bytes := if frostKey k.typ.toNat then k.shareBytes ++ k.secret ++ k.pub else k.secret
/-- How long a wrap's content is, as its type and its own first bytes tell: a FROST share or group carries its numbers and public key (log 164). -/
def wrappedLen (t keyLen : Nat) (m : Bytes) : Nat :=
  if frostKey t then 3 + secretLen t keyLen + (if t / 16 = 0x120 then frostPoint (t % 16) * (fld m 1 1 + 1) else 0) else secretLen t keyLen
/-- The key that a wrap's content describes. -/
def Key.unwrapped (k : Key) (m : Bytes) : Key :=
  let n := secretLen k.typ.toNat k.keyLen.toNat
  if frostKey k.typ.toNat then { k with secret := sub m 3 n, pub := m.drop (3 + n), share := some (fld m 0 1, fld m 1 1, fld m 2 1) }
  else { k with secret := m.take n }
/-- The key that an attribute record and material with a secret half of `n` bytes describe. -/
def Key.ofMaterial (k : Key) (m : Bytes) (n : Nat) : Key :=
  let r := m.drop n
  if frostKey k.typ.toNat then { k with secret := m.take n, pub := r.take (r.length - 3), share := some (fld r (r.length - 3) 1, fld r (r.length - 2) 1, fld r (r.length - 1) 1) }
  else { k with secret := m.take n, pub := r }

/-- The public half that leaves the device: none for a symmetric, generic or shared secret, a FROST share or nonce, or a Classic McEliece
key; of a FROST group the group public key without the verification shares (Table 10.5). -/
def Key.publicHalf (k : Key) : Bytes :=
  let t := k.typ.toNat
  if t / 256 = 0x0D ∨ t / 16 = 0x121 ∨ t / 16 = 0x122 then []
  else if t / 16 = 0x120 then k.pub.take (frostPoint (t % 16)) else k.pub

/-- Erase an entry; a stateful key's counter is released (R251). -/
def Block.eraseKey (b : Block) (h : W32) : Block :=
  match b.key h with
  | none => b
  | some k =>
    let b := if k.stateful.isSome then
        (if b.ctrOwner k.ctr.toNat = .key h then b.setOwner k.ctr.toNat .none else b) else b
    let b := b.dropKey h
    if k.expire then b else b.change (.key h)

/-- Turn every EXPIRE_AT_RESET key into a tombstone (R237). -/
def expireKeys (t : Tab Key) : Tab Key :=
  t.map (fun p => (p.1, if p.2.expire then { p.2 with tombstone := true, secret := [], pub := [] } else p.2))

/-! ### The check of a key handle (R31, R253) -/

/-- A bit of KST_POLICY. -/
def Block.allows (b : Block) (i : Nat) : Bool := b.kst.policy.getLsbD i
/-- MIN_ORDER. -/
def Block.minOrder (b : Block) : Nat := bits b.kst.policy.toNat 9 8

/-- What an operation asks of a key: the types it takes, a usage of which the key must carry one bit (0: none needed), and whether it
uses the secret half, so that a use counts (R242). -/
structure KeyNeed where
  typeOk : Nat → Bool
  usage : Nat := 0
  secret : Bool := false
  device : Bool := true
  expired : Bool := false
  state : Bool := false

/-- Where the count of uses sticks: the AEAD limit of R70 or 2^64 − 1, or the key's own limit where that is lower (R242). -/
def Key.useTop (k : Key) : Nat :=
  let top := if aeadType k.typ.toNat then 2 ^ 32 else 2 ^ 64 - 1
  if k.useLimit = 0 then top else min top k.useLimit.toNat

/-- Is the count of uses at its limit (R242, R70, R53)? -/
def Key.exhausted (k : Key) (need : KeyNeed) : Bool :=
  need.secret && (
    (k.useLimit != 0 && decide (k.useLimit.toNat ≤ k.useCount.toNat + k.reserved)) ||
    decide (2 ^ 64 - 1 ≤ k.useCount.toNat + k.reserved) ||
    (need.usage == 0x0400 && decide (2 ^ 32 ≤ k.useCount.toNat + k.reserved)) ||
    (match k.stateful with | some t => decide (2 ^ t.height ≤ t.u + k.reserved) | none => false))

/-- Is a device-scope key granted to a slice (R248)? -/
def Key.grantedTo (k : Key) (s : Nat) : Bool := k.grants.any (fun g => g == 0xFFFF || g.toNat == s)

/-- Is a handle's key visible to a slice (R236)? -/
def Block.visibleKey (b : Block) (s : Nat) (h : W32) : Option Key :=
  if devScope h then (b.key h).filter (fun k => k.grantedTo s)
  else if handleSlice h ≠ s then none else b.key h

/-- The checks of R31 in their order: the first that fails, or none. -/
def Block.keyCheck (b : Block) (s : Nat) (h : W32) (need : KeyNeed) : Option (W16 × W32) :=
  if b.kst.st ≠ .unlocked then some (St.keyState, 0) else
  match b.visibleKey s h with
  | none => some (St.keyNotFound, 0)
  | some k =>
    let u := k.usage.toNat
    firstFail [
      (!need.typeOk k.typ.toNat, St.keyUsage, 0),
      (need.usage != 0 && (BitVec.ofNat 16 need.usage &&& k.usage) == 0, St.keyUsage, 0),
      (devScope h && !need.device, St.keyUsage, 0),
      (devScope h && !b.allows 6, St.keyUsage, 0x86),
      (bit u 12 && !b.allows 4, St.keyUsage, 0x84),
      (bit u 13 && !b.allows 3, St.keyUsage, 0x83),
      (k.tombstone && !need.expired, St.keyExpired, 0),
      (k.exhausted need, St.keyExhausted, 0),
      (need.secret && !need.state && (match k.stateful with | some t => t.failed || t.migrating || t.cancelled | none => false),
        St.keyState, 0),
      (k.replicated && b.wty.cutOff, St.fabricUnreachable, b.wty.masterNo.setWidth 32),
      (need.secret && k.underLease && b.wty.lostMaster && decide (k.lease ≤ k.reserved), St.fabricUnreachable, b.wty.masterNo.setWidth 32)]

/-! ### Templates (R240, R241) -/

/-- The default template of a new slice (R241). -/
def firstTemplate : Bytes := attrBytes { usage := 0x0FFF, order := 1 }
/-- The session template of a new slice (R241). -/
def firstSession : Bytes := attrBytes { usage := 0x00E0 }

/-- The fields of a record that only the device sets, or that are reserved, are not zero (R240). -/
def deviceFields (r : Bytes) : Bool :=
  decide (3 < fld r 5 1) || fld r 6 1 != 0 || fld r 7 1 != 0 || fld r 0x10 8 != 0 ||
  (fld r 0x1C 4 != 0 && fld r 0x1C 4 != 0xFFFFFFFF) || !allZero (sub r 0x28 24)

/-- Is a key length in the type's range (R240)? -/
def keyLenOk (t n : Nat) : Bool :=
  if t = 0x0C00 ∨ t = 0x0D00 then decide (16 ≤ n) && decide (n ≤ 512)
  else if t = 0x0900 then n == 0 || (decide (2048 ≤ n) && decide (n ≤ 16384) && n % 64 == 0)
  else n == 0

/-- Is a masking order permitted for a type (R44, Table 10.4)? -/
def orderOk (t o : Nat) : Bool :=
  if t / 256 = 4 then decide (o ≤ 1) else if latticeType t then decide (o ≤ 2) else o == 0

/-- Does a template record fail R240 for a type? -/
def templateBad (r : Bytes) (t : Nat) : Bool :=
  let u := fld r 2 2
  deviceFields r || (fld r 0 2 != 0 && fld r 0 2 != t) || !typeListed t ||
  u == 0 || (BitVec.ofNat 16 u &&& ~~~(BitVec.ofNat 16 (permitted t))) != 0 ||
  (bit (fld r 5 1) 0 && bit u 13) ||
  decide (1024 < fld r 0x18 2) || !keyLenOk t (fld r 0x1A 2) || !orderOk t (fld r 4 1)

/-- The template a creating job uses: the record at its parameter address, or the slice's default with its usages reduced to the
type's and an order only where the type has one. -/
def Block.templateFor (b : Block) (s : Nat) (raw : Option Bytes) (t : Nat) : Bytes :=
  match raw with
  | some r => r
  | none =>
    let d := (b.slice s).defTemplate
    sub d 0 2 ++ le 2 (BitVec.ofNat 16 (fld d 2 2) &&& BitVec.ofNat 16 (permitted t)).toNat ++
    le 1 (if latticeType t then fld d 4 1 else 0) ++ d.drop 5

/-- The key a template describes: order 0 selects 1, granule 0 selects 1 (Table 10.4). -/
def templateKey (r : Bytes) (t : Nat) (origin : Byte) : Key :=
  let k := parseAttr r
  { k with
    typ := BitVec.ofNat 16 t, origin := origin, useCount := 0, ctr := 0xFFFFFFFF,
    order := if latticeType t ∧ k.order = 0 then 1 else k.order,
    granule := if k.granule = 0 then 1 else k.granule }

/-- The key a creating job makes from its template, without material, or how the template fails on decode (R240, R253, R44). -/
def Block.fromTemplate (b : Block) (s : Nat) (raw : Option Bytes) (t : Nat) (origin : Byte) : Except (W16 × W32) Key :=
  let r := b.templateFor s raw t
  match firstFail [
    (templateBad r t || (t / 256 == 4 && fld r 4 1 == 2), St.badParam, 0x44),
    (bit (fld r 2 2) 13 && !b.allows 3, St.keyUsage, 0x83),
    (bit (fld r 2 2) 12 && !b.allows 4, St.keyUsage, 0x84)] with
  | some e => .error e
  | none => .ok (templateKey r t origin)

/-- The session key of RESULT_TO_HANDLE (R241). -/
def Block.sessionKey (b : Block) (s : Nat) (material : Bytes) : Key :=
  let k := templateKey (b.slice s).sesTemplate 0x0C00 3
  { k with expire := true, keyLen := BitVec.ofNat 16 material.length, secret := material }

/-! ### What a successful job does to the store -/

/-- The objects whose pages are taken on a channel: those attached, and those that jobs still in the device are writing (R206). -/
def Block.ddrPlaced (b : Block) (c : Fin 2) : List DdrObject :=
  (b.ddr.objects ++ (b.ddr.writes.filter (fun w => b.jobs.any (fun j => j.id == w.1))).map (·.2)).filter (fun o => o.chan == c)
/-- Pages free on a channel: what is fitted, less retired pages and those in use. -/
def Block.ddrFree (b : Block) (c : Fin 2) : Nat :=
  b.ddr.fitted[c] * 256 - (b.ddr.retired[c]).length - (b.ddrPlaced c).foldl (fun a o => a + o.pages) 0
/-- The lowest run of `n` free consecutive pages of a channel: one that begins at the channel's start or behind a page that is not free. -/
def Block.freeRun (b : Block) (c : Fin 2) (n : Nat) : Option Nat :=
  let used := (b.ddrPlaced c).map (fun o => (o.page, o.pages)) ++ (b.ddr.retired[c]).map (fun p => (p, 1))
  let fits (p : Nat) : Bool := decide (p + n ≤ b.ddr.fitted[c] * 256) && used.all (fun u => decide (p + n ≤ u.1) || decide (u.1 + u.2 ≤ p))
  ((0 :: used.map (fun u => u.1 + u.2)).filter fits).foldl (fun a p => some (match a with | some x => min x p | none => p)) none
/-- Where a new object of a slice goes: in the channel with more free pages, else where a run of that length is free (R206, log 123). -/
def Block.placeObject (b : Block) (s : SliceId) (number len : Nat) : Option DdrObject :=
  let n := roundUp len 4096 / 4096
  let c : Fin 2 := if b.ddrFree 0 < b.ddrFree 1 then 1 else 0
  let at_ (c : Fin 2) : Option DdrObject := (b.freeRun c n).map (fun p => ⟨s, BitVec.ofNat 32 number, len, c, p, n⟩)
  (at_ c).orElse (fun _ => at_ (1 - c))
/-- A number that no object of the slice has and no granted job is to give (R206). -/
def Block.freshObject (b : Block) (s : SliceId) : Nat :=
  let taken n := b.ddr.objects.any (fun o => o.slice == s && o.number.toNat == n) || b.jobs.any (fun j => j.granted && j.inSlice s && j.ddrNo == n && j.ddrNeed != 0)
  let lo := (b.slice s).nextObject
  (((List.range (b.ddr.objects.length + b.jobs.length + 1)).map (lo + ·)).find? (fun n => !taken n)).getD lo
/-- DDR5 pages a slice's objects take. -/
def Block.ddrOf (b : Block) (s : Nat) : Nat := (b.ddr.objects.filter (fun o => o.slice.val == s)).foldl (fun a o => a + o.pages) 0

/-- Attach a new or replaced object to its slice; the old pages are freed (R206). -/
def Block.attach (b : Block) (o : DdrObject) : Block :=
  { b with ddr := { b.ddr with objects := b.ddr.objects.filter (fun p => !(p.slice == o.slice && p.number == o.number)) ++ [o] } }
/-- Attach what a job has written, every write of it acknowledged (R206). -/
def Block.attachWrite (b : Block) (id : Nat) : Block :=
  match b.ddr.writes.find? (fun w => w.1 == id) with
  | some w => { b with ddr := { b.ddr with writes := b.ddr.writes.filter (fun w => w.1 != id) } }.attach w.2
  | none => b

/-- The scope of the keys a job creates: its slice, or the device (R248). -/
def Job.scope (j : Job) : Nat := if j.dev then 1024 else j.slice.val

/-- Apply one effect; the answer is the job's Detail. -/
def Block.applyEffect (b : Block) (j : Job) (detail : W32) : Effect → Block × W32
  | .createKey k det =>
    let (b, h) := b.createKey j.scope k
    let b := match j.reservedCtr with
      | some n => if k.stateful.isSome then b.setOwner n (.key h) else b
      | none => b
    (b, if det then h else detail)
  | .keepPk h =>
    let h := if h = 0 then detail else h
    let b := (b.attachWrite j.id).modSlice j.slice (fun s => { s with nextObject := max s.nextObject (j.ddrNo + 1) })
    (match b.key h with
     | some k => b.setKey h { k with pkObject := some j.ddrNo }
     | none => b, detail)
  | .deleteKey h => (b.eraseKey h, detail)
  | .putKey h k => (b.enterKey j.scope h k, detail)
  | .loadKey h k =>
    let h := handleOf j.slice (h.toNat % 2 ^ 21)
    if h.toNat % 2 ^ 21 == 0 || !b.indexFree h then b.createKey j.slice k
    else (b.enterKey j.slice h k, h)
  | .restrict h k =>
    let b := b.putKey h k
    (if k.expire then b else b.change (.key h), detail)
  | .setTemplates d n =>
    ((b.modSlice j.slice (fun s => { s with defTemplate := d, sesTemplate := n })).change (.slice j.slice), detail)
  | .allocCtr n => ((b.setOwner n (.slice j.slice)).change (.slice j.slice), BitVec.ofNat 32 n)
  | .freeCtr n => (b.setOwner n .none, detail)
  | .bindCtr n => ({ b with bat := { b.bat with evicted := insertNat n b.bat.evicted } }, detail)
  | .storeObject => (b.attachWrite j.id, detail)
  | .sendShare h dest => (b.eraseKey h, dest)

/-- Is an effect a change under R244, which a replicated slice orders at the master (R338)? -/
def Effect.lasting : Effect → Bool
  | .createKey k _ => !k.expire
  | .putKey _ k | .loadKey _ k | .restrict _ k => !k.expire
  | .deleteKey _ | .setTemplates _ _ | .allocCtr _ | .freeCtr _ | .bindCtr _ | .sendShare _ _ => true
  | .keepPk _ | .storeObject => false

/-- Apply the effects of a result in order. -/
def Block.applyEffects (b : Block) (j : Job) : List Effect → W32 → Block × W32
  | [], d => (b, d)
  | e :: r, d => let (b, d) := b.applyEffect j d e; Block.applyEffects b j r d

/-- KEY_SUPPLIED (Tables 2.2, 3.1). -/
def Desc.supplied (d : Desc) : Bool := d.inline.getLsbD 0

/-- An LMS type code's function and height: four groups of heights 5 to 25 (codes 5 to 0x18; log 15). -/
def lmsType (t : Nat) : Option (Nat × Nat) := if 5 ≤ t ∧ t ≤ 0x18 then some ((t - 5) / 5, 5 * ((t - 5) % 5 + 1)) else none

/-- The length of a stateful public key, which follows from its codes: 60 or 52 bytes of HSS, 68 or 52 of XMSS (R50). -/
def statefulPkLen (t : Nat) (input : Bytes) : Nat :=
  let code := ofBe (input.take 4)
  let wide := if t = 0x500 then (((lmsType code).map (·.1)).getD 0) % 2 == 0
    else (decide (code ≤ 3) || (decide (0x10 ≤ code) && decide (code ≤ 0x12)) || (t == 0x601 && (decide (code ≤ 8) || (decide (0x29 ≤ code) && decide (code ≤ 0x30)))))
  if t = 0x500 then (if wide then 60 else 52) else (if wide then 68 else 52)

/-- The length of a supplied stateful public key, as its own codes tell it (R50): an HSS key has its number of levels in front. -/
def suppliedPkLen (op : Nat) (input : Bytes) : Nat :=
  if op = 0x0520 then statefulPkLen 0x500 (sub input 4 4)
  else if op = 0x0530 then statefulPkLen 0x500 (input.take 4) - 4
  else statefulPkLen (if op = 0x0640 then 0x600 else 0x601) (input.take 4)

end Sys2Proof.Machine
end

