-- ==== Sys2Proof/Machine/Sequencer.lean ====
section
/-! DEFINITION. The micro-sequencer (chapter 05): registers, flags and objects with their taints, operand-memory accesses, the control
stores and the operations their words spell, the checks at a fetch, machine checks, and the SEQ operations of Table 5.4 that need no job.
Values in operand memory are the unmasked values: shares are recombined (log 11). -/
namespace Sys2Proof.Machine

/-! ### Hash engines (R85) -/

/-- Block or rate length of a mode (Table 4.6; modes 1 to 8 are SHAKE128 to SHA-512, Table 5.8). -/
def HashEng.rate (h : HashEng) : Nat := [168, 168, 136, 136, 104, 72, 64, 128, 128].getD h.mode 168
/-- Keccak-f[1600] permutations a Keccak engine has made since its INIT: one for each whole block absorbed, one for the padded block, and one for each
further rate of output; none in a SHA-2 mode. -/
def HashEng.permutations (h : HashEng) : Nat :=
  if h.mode = 0 ∨ 5 < h.mode then 0 else h.data.length / h.rate + b1 h.padded + (h.out - 1) / h.rate

/-! ### Registers, flags, objects -/

/-- Bytes of a slot (Table 4.2). -/
def Wale.slotBytes (w : Wale) : Nat := 512 * 2 ^ w.slotLen.toNat
/-- Number of slots (Table 4.2). -/
def Wale.slots (w : Wale) : Nat := 1024 / 2 ^ w.slotLen.toNat
/-- The registers and flags with their taints. -/
def Micro.regs (m : Micro) : Vector W64 16 × BitVec 16 × BitVec 16 × BitVec 16 := (m.g, m.gTaint, m.f, m.fTaint)
/-- Those that the operations of the microword in issue read: as they stood when it began (R112). -/
def Wale.seen (w : Wale) : Vector W64 16 × BitVec 16 × BitVec 16 × BitVec 16 := w.micro.held.getD w.micro.regs
/-- General register. -/
def Wale.reg (w : Wale) (r : Reg) : W64 := w.seen.1[r]
/-- Its taint: true is S. -/
def Wale.regS (w : Wale) (r : Reg) : Bool := w.seen.2.1.getLsbD r
/-- Flag; F0 always reads 1 (R108). -/
def Wale.flag (w : Wale) (f : Reg) : Bool := f == 0 || w.seen.2.2.1.getLsbD f
/-- Its taint; F0 is P, being a constant. -/
def Wale.flagS (w : Wale) (f : Reg) : Bool := f != 0 && w.seen.2.2.2.getLsbD f
/-- Loop counter. -/
def Wale.loop (w : Wale) (l : Fin 4) : BitVec 16 := w.micro.l[l]

/-- Write a general register with its taint. -/
def Wale.setReg (w : Wale) (r : Reg) (v : W64) (s : Bool) : Wale :=
  { w with micro := { w.micro with g := w.micro.g.set r v, gTaint := setBit w.micro.gTaint r s } }
/-- Write a flag with its taint; F0 reads 1 and ignores writes (R108). -/
def Wale.setFlag (w : Wale) (f : Reg) (v s : Bool) : Wale :=
  if f = 0 then w else { w with micro := { w.micro with f := setBit w.micro.f f v, fTaint := setBit w.micro.fTaint f s } }
/-- Write a loop counter. -/
def Wale.setLoop (w : Wale) (l : Fin 4) (v : BitVec 16) : Wale :=
  { w with micro := { w.micro with l := w.micro.l.set l v } }
/-- The address of the next microword. -/
def Wale.setPc (w : Wale) (t : BitVec 14) : Wale := { w with micro := { w.micro with pc := t } }

/-- Fail with a machine check of the given Detail. -/
def check (bad : Bool) (detail : W32) : Except W32 Unit := if bad then .error detail else .ok ()

/-- The object a field names; one that is not valid is a machine check (Table 5.9). -/
def Wale.named (w : Wale) (o : Reg) : Except W32 Obj :=
  if (w.micro.o[o]).valid then .ok (w.micro.o[o]) else .error 0x10D

/-- Is slot n tagged S? -/
def Wale.slotS (w : Wale) (n : Nat) : Bool := w.sTags.contains n
/-- The slots that `len` bytes from offset `off` of an object touch. -/
def Wale.slotsOf (w : Wale) (o : Obj) (off len : Nat) : List Nat :=
  if len = 0 then [] else
    (List.range ((off + len - 1) / w.slotBytes + 1 - off / w.slotBytes)).map (fun i => o.base + off / w.slotBytes + i)
/-- Is any slot of those bytes tagged S? -/
def Wale.bytesS (w : Wale) (o : Obj) (off len : Nat) : Bool := (w.slotsOf o off len).any w.slotS
/-- Is any slot of an object tagged S? -/
def Wale.objS (w : Wale) (o : Obj) : Bool := w.bytesS o 0 (o.span * w.slotBytes)

/-- An access beyond the span of its object or the slot count is a machine check (R77). -/
def Wale.inSpan (w : Wale) (o : Obj) (off len : Nat) : Except W32 Unit :=
  check (decide (o.span * w.slotBytes < off + len) || decide (w.slots * w.slotBytes < o.base * w.slotBytes + off + len)) 0x106

/-- Bytes of an object. -/
def Wale.load (w : Wale) (o : Obj) (off len : Nat) : Bytes := w.opmem.readAll (o.base * w.slotBytes + off) len

/-- Tag slots S. -/
def addTags (t : List Nat) (l : List Nat) : List Nat := l.foldl (fun t i => if t.contains i then t else i :: t) t

/-- Store bytes into an object; S data makes every slot it touches S (R80). -/
def Wale.store (w : Wale) (o : Obj) (off : Nat) (d : Bytes) (s : Bool) : Wale :=
  { w with opmem := w.opmem.writeAll (o.base * w.slotBytes + off) d,
           sTags := if s then addTags w.sTags (w.slotsOf o off d.length) else w.sTags }

/-! ### The control stores (Table 5.1, R103 to R106) -/

/-- Parity of the low `n` bits of a stored word. -/
def parity (n : Nat) (v : Nat) : Bool := (List.range n).foldl (fun a i => xor a (v.testBit i)) false

/-- Even parity of a stored microword: 24 bits and bit 24 (R105). -/
def microParityOk (v : BitVec 25) : Bool := !parity 25 v.toNat
/-- Even parity of a stored nanoword: bits [191:0] in four groups, and bits [195:192] for [47:0] up to [191:144] (R105). -/
def nanoParityOk (v : BitVec 196) : Bool :=
  (List.range 4).all (fun k => parity 48 (v.toNat / 2 ^ (48 * k)) == v.getLsbD (192 + k))

/-- A microword with its parity bit. -/
def withMicroParity (v : Nat) : BitVec 25 := BitVec.ofNat 25 (v % 2 ^ 24 + 2 ^ 24 * b1 (parity 24 v))
/-- A nanoword with its four parity bits. -/
def withNanoParity (v : Nat) : BitVec 196 :=
  BitVec.ofNat 196 ((List.range 4).foldl (fun a k => a + 2 ^ (192 + k) * b1 (parity 48 (v / 2 ^ (48 * k)))) (v % 2 ^ 192))

/-- A microword of the maker image: the single WAIT_WORK of the idle routine, and what the image holds elsewhere (R103, log 135). -/
def makerMicro (a : Nat) : Nat := if a = 0 then 0xA80000 else (Config.makerMicro a).toNat
/-- A nanoword of the maker image. -/
def makerNano (a : Nat) : Nat := (Config.makerNano a).toNat

/-- What the microword store holds at an address. -/
def Wale.uword (w : Wale) (a : Nat) : BitVec 25 := Tab.get (if w.maker && decide (a < 0x3000) then withMicroParity (makerMicro a) else 0) w.ustore a
/-- What the nanoword store holds at an address. -/
def Wale.nword (w : Wale) (a : Nat) : BitVec 196 := Tab.get (if w.maker && decide (a < 0x600) then withNanoParity (makerNano a) else 0) w.nstore a
/-- The microword at the sequencer's address. -/
def Wale.here (w : Wale) : Nat := (w.uword w.micro.pc.toNat).toNat % 2 ^ 24

/-- A wale's stores take a write only once its LOCK is 1 (R104). -/
def Wale.writeStore (w : Wale) (f : Wale → Wale) : Wale := if w.csb.getLsbD 31 then f w else w

/-! ### What a microword spells (Tables 5.3 to 5.8) -/

/-- The lowest bit of the nanoword field an XSUB target names (Table 5.7). -/
def xsubLow (t : Nat) : Nat := [0, 114, 110, 106, 75, 71, 67, 46, 34, 30, 176, 150, 146, 142, 138, 168].getD t 0
/-- A nanoword with a target's field replaced by the microword's value; target 0 leaves it (R114). -/
def substitute (t x v : Nat) : Nat := if t = 0 then v else v - bits v (xsubLow t + 3) (xsubLow t) * 2 ^ xsubLow t + x * 2 ^ xsubLow t
/-- The nanoword a microword issues. -/
def Wale.nano (w : Wale) (m : Nat) : Nat :=
  let v := (w.nword (bits m 22 12)).toNat % 2 ^ 192
  substitute (bits v 19 16) (bits m 7 4) (substitute (bits v 23 20) (bits m 11 8) v)

/-- The register, flag or object number at a bit of a nanoword. -/
def regAt (v lo : Nat) : Reg := Fin.ofNat 16 (bits v (lo + 3) lo)

/-- The SALU field. -/
def saluOps (w : WaleId) (v : Nat) : List (Nx → Instr) :=
  let d := regAt v 150; let a := regAt v 146; let b := regAt v 142; let f := regAt v 138
  let i := BitVec.ofNat 10 (bits v 137 128); let o := regAt v 128
  match bits v 159 154 with
  | 0x01 => [.mov w d a] | 0x02 => [.movi w d i] | 0x03 => [.movs w d i]
  | 0x04 => [.add w d a b] | 0x05 => [.sub w d a b] | 0x06 => [.and w d a b] | 0x07 => [.or w d a b] | 0x08 => [.xor w d a b]
  | 0x09 => [.shl w d a b] | 0x0A => [.shr w d a b] | 0x0B => [.addi w d a i] | 0x0C => [.cmpeq w f a b] | 0x0D => [.cmplt w f a b]
  | 0x0E => [.sel w d f a b] | 0x10 => [.ldw w d o b] | 0x11 => [.stw w a o b] | 0x12 => [.objlen w d o]
  | _ => []

/-- The LAT field. -/
def latOps (w : WaleId) (v : Nat) : List (Nx → Instr) :=
  let l : LatF := ⟨BitVec.ofNat 2 (bits v 121 120), BitVec.ofNat 2 (bits v 119 118), regAt v 114, regAt v 110, regAt v 106, regAt v 102,
    regAt v 98, regAt v 94, regAt v 88⟩
  match bits v 127 122 with
  | 0x01 => [.ntt w l] | 0x02 => [.intt w l] | 0x03 => [.latAdd w l] | 0x04 => [.latSub w l] | 0x05 => [.mulp w l] | 0x06 => [.mulm w l]
  | 0x07 => [.basemul w l] | 0x08 => [.a2b w l] | 0x09 => [.b2a w l] | 0x0A => [.compress w l] | 0x0B => [.decompress w l] | 0x0C => [.cbd w l]
  | 0x0D => [.encode w l] | 0x0E => [.decode w l] | 0x0F => [.normchk w l] | 0x10 => [.remask w l] | 0x11 => [.uniform w l]
  | _ => []

/-- The HASH field. -/
def hashOps (w : WaleId) (v : Nat) : List (Nx → Instr) :=
  let h : HashF := ⟨BitVec.ofNat 4 (bits v 87 84), regAt v 75, regAt v 71, regAt v 67⟩
  let op := bits v 83 79
  if 1 ≤ op ∧ op ≤ 8 then [.init w h (Fin.ofNat 8 (op - 1))]
  else if op = 9 then [.absorb w h] else if op = 0xA then [.final w h] else if op = 0xB then [.squeeze w h] else []

/-- The BN field. -/
def bnOps (w : WaleId) (v : Nat) : List (Nx → Instr) :=
  let f : BnF := ⟨regAt v 46, regAt v 42, regAt v 38, regAt v 34, regAt v 30, regAt v 24⟩
  let op := bits v 55 50
  match op with
  | 1 => [.bnModAdd w f] | 2 => [.bnModSub w f] | 3 => [.bnModMul w f] | 4 => [.bnModRed w f] | 5 => [.bnModInv w f] | 6 => [.bnModExp w f]
  | 7 => [.bnPtAdd w f] | 8 => [.bnPtMul w f]
  | _ => if 0x20 ≤ op then [.bnSecret w (BitVec.ofNat 5 op) f] else []

/-- The PORT and CTRL fields (Table 5.6); KEY values 2 to 7 spell nothing the spec gives an effect (log 136). -/
def portOps (w : WaleId) (v : Nat) : List (Nx → Instr) :=
  let o := regAt v 176; let off := regAt v 172; let len := regAt v 168
  (if bits v 183 180 = 1 then [.emit w o off len] else []) ++ (if bits v 186 184 = 1 then [.draw w o off len] else []) ++
  (if bits v 189 187 = 1 then [.kstore w o] else [])

/-- The operations of an EXEC microword: one for each non-zero field, all reading what stood when the word began (R112), and what its NEXT
field adds. A word whose fields are all zero only continues. -/
def execOps (w : WaleId) (m v : Nat) : List Instr :=
  let ops := saluOps w v ++ latOps w v ++ hashOps w v ++ bnOps w v ++ portOps w v
  match bits m 1 0 with
  | 1 => ops.map (· .stay) ++ [.rpt w]
  | 2 => ops.map (· .stay) ++ [.ret w]
  | _ => match ops.reverse with
    | [] => [.snop w]
    | o :: r => r.reverse.map (· .stay) ++ [o .inc]

/-- The operation of a SEQ microword (Table 5.4). -/
def seqOp (w : WaleId) (m : Nat) : List Instr :=
  let a := regAt m 14; let t := BitVec.ofNat 14 m
  match bits m 22 18 with
  | 0x00 => [.snop w] | 0x01 => [.jmp w t] | 0x02 => [.call w t] | 0x03 => [.ret w] | 0x04 => [.bt w a t] | 0x05 => [.bf w a t]
  | 0x06 => [.ldli w (Fin.ofNat 4 a.val) t] | 0x07 => [.ldlg w (Fin.ofNat 4 t.toNat) a] | 0x08 => [.djnz w (Fin.ofNat 4 a.val) t]
  | 0x09 => [.jmpx w a t] | 0x0A => [.waitWork w] | 0x0B => [.release w a] | 0x0C => [.drain w] | 0x0D => [.dbt w a t true]
  | 0x0E => [.dslot w a]
  | _ => []

/-- The commands that the microword at a wale's address spells, in the order they issue. -/
def Wale.commands (x : Wale) (w : WaleId) : List Instr := if bit x.here 23 then seqOp w x.here else execOps w x.here (x.nano x.here)

/-- A command without the comparator's answer that a DBT brings. -/
def plainDbt : Instr → Instr
  | .dbt w f t _ => .dbt w f t true
  | c => c

/-- Is a command the one that the microword spells next? -/
def Wale.spells (x : Wale) (w : WaleId) (c : Instr) : Bool := (x.commands w)[x.micro.field]? == some (plainDbt c)

/-! ### Fetch and flow -/

/-- Does a microword hold a reserved OP, NEXT or SYNC value (R108)? -/
def microReserved (v : Nat) : Bool :=
  if bit v 23 then decide (14 < bits v 22 18) else decide (1 < bits v 3 2) || bits v 1 0 == 3

/-- Does a nanoword hold a reserved operation value, or the value 3 of q or n (R116, R112)? -/
def nanoReserved (v : Nat) : Bool :=
  let salu := bits v 159 154; let lat := bits v 127 122; let bn := bits v 55 50
  decide (0x12 < salu) || salu == 0x0F || decide (0x11 < lat) || (lat != 0 && (bits v 121 120 == 3 || bits v 119 118 == 3)) ||
  decide (0x0B < bits v 83 79) || (decide (8 < bn) && decide (bn < 0x20)) || decide (1 < bits v 186 184) || decide (1 < bits v 183 180)

/-- What the sequencer finds wrong with the microword at its address and the nanoword it names. -/
def Wale.fetchFault (w : Wale) : Option W32 :=
  let m := w.uword w.micro.pc.toNat
  let n := w.nword (bits m.toNat 22 12)
  if !microParityOk m then some 0x10A
  else if !bit m.toNat 23 && !nanoParityOk n then some 0x10B
  else if microReserved m.toNat || (!bit m.toNat 23 && nanoReserved n.toNat) then some 0x10C
  else none

/-- INC: the next address is the current one plus 1 (R107), inside the program's region (R109). -/
def Wale.next (w : Wale) : Except W32 Wale :=
  if w.micro.pc.toNat = (if w.micro.customer then 0x3FFF else 0x2FFF) then .error 0x107
  else .ok (w.setPc (w.micro.pc + 1))

/-- Continue at an address; a customer program stays in its region (R109). -/
def Wale.goto (w : Wale) (t : BitVec 14) : Except W32 Wale :=
  if w.micro.customer ∧ t.toNat < 0x3000 then .error 0x108 else .ok (w.setPc t)

/-- After a nanoword's last field the next microword follows; an earlier field leaves the address. -/
def Wale.after (nx : Nx) (w : Wale) : Except W32 Wale :=
  match nx with
  | .stay => .ok w
  | .inc => w.next

/-- The other wale of a pair. -/
def Block.partnerOf (b : Block) (w : WaleId) : Option WaleId :=
  if (b.wale w).paired then some (Fin.ofNat 64 (w.val / 16 * 16 + (b.wale w).partner)) else none

/-- The note of a machine check, which names the wale: F1 for a parity error and F2 otherwise (R105, R121). -/
def Block.checkNote (b : Block) (w : WaleId) (detail : W32) : Block :=
  let j := (b.wale w).job
  b.raise (if detail = 0x10A then { source := Src.waleUnit w 1, kind := 0x03, cls := 1, detail := detail, job := j }
    else if detail = 0x10B then { source := Src.waleUnit w 2, kind := 0x03, cls := 1, detail := detail, job := j }
    else { source := Src.waleUnit w 0, kind := 0x04, cls := 2, detail := detail, job := j })

/-- Does the partner of a lead take the check its lead takes? It runs the same words on the same data 16 cycles behind; its own stores decide
a parity error, and its slot length an access beyond a span (R121, log 137). -/
def Block.alsoChecks (b : Block) (w p : WaleId) (detail : W32) : Bool :=
  let x := b.wale w
  let y := b.wale p
  x.lead && y.st == .running && y.micro.released.isNone &&
  (if detail = 0x10A ∨ detail = 0x10B then y.fetchFault == some detail else detail != 0x106 || y.slotLen == x.slotLen)

/-- Take a machine check: the notes of the wales that take it, and the end of their job (R121). -/
def Block.machineCheck (b : Block) (w : WaleId) (detail : W32) : Block :=
  let b' := b.checkNote w detail
  let b' := match b.partnerOf w with
    | some p => if b.alsoChecks w p detail then b'.checkNote p detail else b'
    | none => b'
  match (b.wale w).job with
  | some id => b'.failJob id 0x0501 detail
  | none => b'

/-- Is it a wale's turn? In a pair the lead issues first and its partner the same operation behind it (R110), up to the word the lead traps at
(R123). -/
def Block.turn (b : Block) (w : WaleId) : Bool :=
  let x := b.wale w
  match b.partnerOf w with
  | none => true
  | some p =>
    let n := (b.wale p).micro.count
    if x.lead then n == x.micro.count else n == x.micro.count + 1 || x.trapAt.any (fun k => decide (x.micro.count < k))

/-- Does wale w issue microwords now? -/
def Block.issues (b : Block) (w : WaleId) : Bool := (b.wale w).st == .running && (b.wale w).micro.issuing && b.turn w

/-- A wale whose microword is in issue: its operations read what it began with. -/
def Wale.during (x : Wale) : Wale := { x with micro := { x.micro with held := some x.seen } }

/-- A wale that has issued one of a microword's operations; with the last the word has ended. -/
def Wale.issued (x : Wale) (last : Bool) : Wale :=
  { x with micro := { x.micro with
      field := if last then 0 else x.micro.field + 1, count := x.micro.count + 1, held := if last then none else x.micro.held } }

/-- Is the next operation the last of its microword? -/
def Wale.atLast (x : Wale) (w : WaleId) : Bool := decide ((x.commands w).length ≤ x.micro.field + 1)

/-- One operation of the microword a wale issues: nothing where the wale issues none, or its word spells another; else its fetch is checked, and
the operation changes the wale or takes a machine check. -/
def Block.micro (b : Block) (w : WaleId) (c : Instr) (f : Wale → Except W32 Wale) : Block :=
  if !b.issues w then b else
  let x := b.wale w
  match x.fetchFault with
  | some d => b.machineCheck w d
  | none =>
    if !x.spells w c then b else
    match f x.during with
    | .ok y => b.modWale w (fun _ => y.issued (x.atLast w))
    | .error d => b.machineCheck w d

/-! ### SEQ operations (Table 5.4, R107 to R109) -/

/-- Push a return address; a ninth entry is a machine check (R108). -/
def Wale.push (w : Wale) : Except W32 Wale :=
  if 8 ≤ w.micro.stack.length then .error 0x109
  else .ok { w with micro := { w.micro with stack := (w.micro.pc + 1) :: w.micro.stack } }

/-- Continue at the popped address; an empty stack is a machine check (R108). -/
def Wale.pop (w : Wale) : Except W32 Wale :=
  match w.micro.stack with
  | [] => .error 0x109
  | t :: r => Wale.goto { w with micro := { w.micro with stack := r } } t

/-- Branch to `t` where `c` holds. -/
def Wale.branch (w : Wale) (c : Bool) (t : BitVec 14) : Except W32 Wale := if c then w.goto t else w.next

/-- SNOP. -/
def execSnop (w : WaleId) (s : State) : Host.Outcome State Fault Refusal := done (s.toBlock.micro w (.snop w) Wale.next) s

/-- JMP. -/
def execJmp (w : WaleId) (t : BitVec 14) (s : State) : Host.Outcome State Fault Refusal :=
  done (s.toBlock.micro w (.jmp w t) (fun x => x.goto t)) s

/-- CALL. -/
def execCall (w : WaleId) (t : BitVec 14) (s : State) : Host.Outcome State Fault Refusal :=
  done (s.toBlock.micro w (.call w t) (fun x => do let x ← x.push; x.goto t)) s

/-- RET. -/
def execRet (w : WaleId) (s : State) : Host.Outcome State Fault Refusal := done (s.toBlock.micro w (.ret w) Wale.pop) s

/-- NEXT RPT: the word decrements L0 and issues again while the result is non-zero (R107). -/
def execRpt (w : WaleId) (s : State) : Host.Outcome State Fault Refusal :=
  done (s.toBlock.micro w (.rpt w) (fun x =>
    if (x.loop 0).toNat ≤ 1 then (x.setLoop 0 0).next else .ok (x.setLoop 0 (x.loop 0 - 1)))) s

/-- BT; a branch on an S flag is a machine check (R81). -/
def execBt (w : WaleId) (f : Reg) (t : BitVec 14) (s : State) : Host.Outcome State Fault Refusal :=
  done (s.toBlock.micro w (.bt w f t) (fun x => do check (x.flagS f) 0x101; x.branch (x.flag f) t)) s

/-- BF. -/
def execBf (w : WaleId) (f : Reg) (t : BitVec 14) (s : State) : Host.Outcome State Fault Refusal :=
  done (s.toBlock.micro w (.bf w f t) (fun x => do check (x.flagS f) 0x101; x.branch (!x.flag f) t)) s

/-- LDLI. -/
def execLdli (w : WaleId) (l : Fin 4) (imm : BitVec 14) (s : State) : Host.Outcome State Fault Refusal :=
  done (s.toBlock.micro w (.ldli w l imm) (fun x => (x.setLoop l (imm.setWidth 16)).next)) s

/-- LDLG; from an S register it is a machine check (R120). -/
def execLdlg (w : WaleId) (l : Fin 4) (g : Reg) (s : State) : Host.Outcome State Fault Refusal :=
  done (s.toBlock.micro w (.ldlg w l g) (fun x => do check (x.regS g) 0x101; (x.setLoop l ((x.reg g).setWidth 16)).next)) s

/-- DJNZ: a counter at 0 stays 0 and does not branch. -/
def execDjnz (w : WaleId) (l : Fin 4) (t : BitVec 14) (s : State) : Host.Outcome State Fault Refusal :=
  done (s.toBlock.micro w (.djnz w l t) (fun x =>
    if x.loop l = 0 then x.next else (x.setLoop l (x.loop l - 1)).branch (x.loop l - 1 != 0) t)) s

/-- JMPX: TARGET + G[5:0]; past 0x3FFF is a machine check (R109), on an S register too (R120). -/
def execJmpx (w : WaleId) (g : Reg) (t : BitVec 14) (s : State) : Host.Outcome State Fault Refusal :=
  done (s.toBlock.micro w (.jmpx w g t) (fun x => do
    check (x.regS g) 0x101
    check (decide (0x3FFF < t.toNat + (x.reg g).toNat % 64)) 0x107
    x.goto (t + ((x.reg g).setWidth 6).setWidth 14))) s

/-- DRAIN: every engine is idle at a command's boundary, so it only advances (R107). -/
def execDrain (w : WaleId) (s : State) : Host.Outcome State Fault Refusal := done (s.toBlock.micro w (.drain w) Wale.next) s

/-- DSLOT: the tag of every slot of the object becomes P (maker only, R82). -/
def execDslot (w : WaleId) (o : Reg) (s : State) : Host.Outcome State Fault Refusal :=
  done (s.toBlock.micro w (.dslot w o) (fun x =>
    if x.micro.customer then .ok x else do
    let ob ← x.named o
    Wale.next { x with sTags := x.sTags.filter (fun n => decide (n < ob.base) || decide (ob.base + ob.span ≤ n)) })) s

/-! ### The scrubber and the reload (R105) -/

/-- The scrubber reads a word of a wale in state 0, 1 or 2, `upset` naming a stored bit found inverted; a parity error fences the
wale. -/
def execCsScrub (w : WaleId) (nano : Bool) (addr : BitVec 14) (upset : Option (Fin 196)) (s : State) :
    Host.Outcome State Fault Refusal :=
  let b := s.toBlock
  let x := b.wale w
  done (
    if x.st ≠ .gated ∧ x.st ≠ .clockGated ∧ x.st ≠ .warm then b
    else if nano then
      let v : BitVec 196 := x.nword (addr.toNat % 2048) ^^^ (match upset with | some i => 1#196 <<< i.val | none => 0)
      let b := if upset.isSome then b.modWale w (fun x => { x with nstore := Tab.put x.nstore (addr.toNat % 2048) v }) else b
      if nanoParityOk v then b else b.machineCheck w 0x10B
    else
      let v : BitVec 25 := x.uword addr.toNat ^^^ (match upset with | some i => 1#25 <<< i.val | none => 0)
      let b := if upset.isSome then b.modWale w (fun x => { x with ustore := Tab.put x.ustore addr.toNat v }) else b
      if microParityOk v then b else b.machineCheck w 0x10A) s

/-- The counts of an image's header (Table 5.12). -/
def imgMicro (p : Bytes) : Nat := fld p 0xC 2
def imgNano (p : Bytes) : Nat := fld p 0xE 2
def imgEntries (p : Bytes) : Nat := fld p 0x14 2
/-- The first addresses. -/
def imgMicroAt (p : Bytes) : Nat := fld p 0x10 2
def imgNanoAt (p : Bytes) : Nat := fld p 0x12 2
/-- Microword i and nanoword i of an image. -/
def imgWord (p : Bytes) (i : Nat) : Nat := fld p (0x80 + 32 * imgEntries p + 4 * i) 4
def imgNanoword (p : Bytes) (i : Nat) : Nat := fld p (0x80 + 32 * imgEntries p + 4 * imgMicro p + 24 * i) 24

/-- Write an image into a wale's customer-open region; the rest of the region reads zero. No image leaves all of it zero. -/
def Wale.writeImage (x : Wale) (p : Bytes) : Wale := x.writeStore (fun x => { x with
  custOk := true,
  ustore := (List.range (imgMicro p)).foldl (fun t i => Tab.put t (imgMicroAt p + i) (withMicroParity (imgWord p i)))
    (x.ustore.filter (fun e => decide (e.1 < 0x3000))),
  nstore := (List.range (imgNano p)).foldl (fun t i => Tab.put t (imgNanoAt p + i) (withNanoParity (imgNanoword p i)))
    (x.nstore.filter (fun e => decide (e.1 < 0x600))) })

/-- Write the maker image. -/
def Wale.writeMaker (x : Wale) : Wale := x.writeStore (fun x => { x with
  maker := true, ustore := x.ustore.filter (fun e => decide (0x3000 ≤ e.1)), nstore := x.nstore.filter (fun e => decide (0x600 ≤ e.1)) })

/-- Can firmware write a wale's stores: neither its quadrant's Rim port nor the quadrant is fenced (R19, R159)? -/
def Block.storePort (b : Block) (w : Nat) : Bool := !b.flt.fence.has (.rimPort (w / 16)) && b.quadAvail (w / 16)

/-- Firmware sets the bounds and LOCK of a wale once after power-up (R104). -/
def Wale.lockStores (x : Wale) : Wale :=
  if x.csb.getLsbD 31 then x else { x with csb := 0x81803000, csbShadow := ~~~0x81803000 }

/-- Firmware writes both regions of a wale from the images it keeps in Rim SRAM (R105, R315). -/
def Block.reload (b : Block) (w : Nat) : Block :=
  if b.boot.csLoaded && b.storePort w then b.modWale w (fun x => (x.lockStores.writeMaker).writeImage b.boot.custImage) else b

/-- Write a wale's stores when they can be reached and lack an image: the bounds, LOCK and the maker image where a start could not write them
(R103, R104), the customer image once the wale is free (R130, step 5). -/
def Block.loadLate (b : Block) (w : Nat) : Block :=
  if !b.boot.csLoaded || !b.storePort w || !b.waleAvail w then b
  else if !(b.wale w).maker then b.reload w
  else if (b.wale w).atRest && !(b.wale w).custOk then b.modWale w (fun x => x.writeImage b.boot.custImage) else b

/-- A wale that a lifted fence returns comes back power-gated, its stores reloaded (R315) and its target planned (R356). -/
def Block.liftWale (b : Block) (w : Nat) : Block :=
  ((b.modWale w (fun x => if x.st = .fenced then { x with st := .gated } else x)).reload w).planWale w

/-- Lift a unit's fence: the map, its shadow, its record, the availability generation (R26, R27, R315). -/
def Block.unfence (b : Block) (u : FUnit) : Block :=
  let b' := b.setFences (b.flt.fence.put u false)
  let b' := { b' with flt := { b'.flt with recs := Tab.drop b'.flt.recs u.source.toNat, copyDue := b'.flt.copyDue ++ [u.source] } }
  let b' := match u with
    | .wale i => b'.liftWale i
    | .quad q => ((List.range 16).foldl (fun b i => if b.waleAvail (16 * q + i) then b.liftWale (16 * q + i) else b) b').modQuad q
        (fun z => { z with pllRun := true, pllLocked := true })
    | .port p => { b' with wty := { b'.wty with ports := b'.wty.ports.mapIdx (fun k x => if k = p then { x with st := if x.role = .off then .off else .training } else x) } }
    | .rimPort q => (List.range 16).foldl (fun (b : Block) i => b.loadLate (16 * q + i)) b'
    | _ => b'
  ((Block.countAvail b b').settleEntropy).moveRail.refill

/-- Firmware has reloaded both regions of a wale after a parity fence. With a good read-back the fence is lifted, unless the
escalation of R314 holds it. -/
def execCsReloadEnd (w : WaleId) (ok : Bool) (s : State) : Host.Outcome State Fault Refusal :=
  let b := s.toBlock
  let u : FUnit := .wale w.val
  done (
    match (b.flt.recs.find? (fun p => p.1 == u.source.toNat)).map (·.2) with
    | some r =>
      if r.kind ≠ 0x03 ∨ !b.flt.fence.has u then b
      else if !ok || !b.storePort w then b
      else
        let b := b.reload w
        if r.held then b else b.unfence u
    | none => b) s

end Sys2Proof.Machine
end

