-- ==== Sys2Proof/Machine/Dma.lean ====
section
/-! DEFINITION. DMA channels and the way of a job's bytes (chapter 08): its input and parameter transfers, its result after the
compare, its output transfers and its end. -/
namespace Sys2Proof.Machine

/-- The form of an address (Table 8.3). -/
def addrForm (a : W64) : Nat := a.toNat / 2 ^ 62

/-- The family of a native opcode. -/
def fam (op : Nat) : Nat := op / 256
/-- The operation nibble. -/
def opn (op : Nat) : Nat := op / 16 % 16
/-- The parameter set nibble. -/
def pset (op : Nat) : Nat := op % 16

/-- A secret lattice operation, which uses MASK_ORDER. -/
def maskOp (op : Nat) : Bool :=
  fam op == 1 || (fam op == 2 && (opn op == 0 || opn op == 1 || opn op == 2 || opn op == 4 || opn op == 6)) ||
  (fam op == 4 && (opn op == 0 || opn op == 2 || opn op == 4))
/-- An opcode that takes a key template at its parameter address (R239). -/
def templateOp (op : Nat) : Bool :=
  ((fam op == 1 || fam op == 2 || fam op == 3) && decide (opn op ≤ 1)) ||
  ((fam op == 4 || fam op == 7 || fam op == 8 || fam op == 0xA) && opn op == 0) || op == 0x0500 || op == 0x0600 || op == 0x0610 ||
  op == 0x0900 || op == 0x0950 || (fam op == 0xB && decide (opn op ≤ 1)) || op == 0x0D31 || op == 0x0D33 ||
  (fam op == 0x12 && opn op == 0) || op == 0x1000 || op == 0x1010 || op == 0x1011
/-- An opcode whose message is streamed (R413), the digest opcodes among them (R258). -/
def streamOp (op : Nat) : Bool :=
  match fam op with
  | 2 | 3 | 4 => opn op == 2 || opn op == 3
  | 5 => op == 0x0510 || op == 0x0520 || op == 0x0530
  | 6 => op == 0x0620 || op == 0x0630 || op == 0x0640 || op == 0x0650
  | 0xB => decide (2 ≤ opn op) && decide (opn op ≤ 5)
  | 0xE => true
  | 0x12 => decide (2 ≤ opn op) && decide (opn op ≤ 5)
  | _ => false
/-- How often an opcode hashes its message, and so fetches it (R413): twice where the standard's signature hashes it under a secret first
(log 121). -/
def hashings (op : Nat) : Nat :=
  if (fam op == 3 && opn op == 2) || (fam op == 0xB && (opn op == 2 || opn op == 4)) || (fam op == 0x12 && opn op != 4) then 2 else 1

/-- CTX_LEN of an inline parameter. -/
def ctxLen (d : Desc) : Nat := bits d.inline.toNat 15 8

/-- Does a native opcode take a context string of CTX_LEN bytes (R416)? -/
def ctxOp (op : Nat) : Bool :=
  let k := op / 16 % 16
  match op / 256 with
  | 0x02 => decide (2 ≤ k) && decide (k < 6)
  | 0x03 | 0x04 => decide (2 ≤ k)
  | 0x05 => op == 0x0510 || op == 0x0520 || op == 0x0530
  | 0x06 => op == 0x0620 || op == 0x0630 || op == 0x0640 || op == 0x0650
  | 0x0B => decide (2 ≤ k) && decide (k < 8)
  | _ => false

/-- The length P of the parameter block (R416). -/
def paramLen (e : Entry) (d : Desc) : Nat :=
  let op := native d.opcode.toNat
  if !e.takesParam then 0
  else if e.customer ∨ op / 16 = 0x0D4 ∨ op / 16 = 0x0D5 then d.aux
  else if op / 256 = 0x11 then 3 * bits d.inline.toNat 15 0 / 8
  else if ctxOp op then ctxLen d
  else if d.parAddr = 0 then 0 else 64

/-! ### Channels (R192 to R205) -/

/-- Does a data group of a channel's quadrant take a new transfer: not fenced, and no fence waits for it (R194, R316)? -/
def Block.groupOpen (b : Block) (c : Nat) (g : Fin 4) : Bool :=
  !b.flt.fence.has (.group (5 * (c / 8) + g)) && !b.fenceDue (.group (5 * (c / 8) + g))

/-- The data group that serves a channel's next transfer: its own, or the next open one in ascending order, wrapping from 3 to 0 (R194). -/
def Block.groupOf (b : Block) (c : Nat) : Option (Fin 4) :=
  let g : Fin 4 := Fin.ofNat 4 (c % 8 / 2)
  [g, g + 1, g + 2, g + 3].find? (b.groupOpen c)

/-- May a channel take a transfer: not fenced, its quadrant neither, and some data group open to serve it (R194)? -/
def Block.chanUsable (b : Block) (c : Nat) : Bool :=
  !b.flt.fence.has (.chan c) && b.quadAvail (c / 8) && (b.groupOf c).isSome

/-- Is a channel idle? -/
def Chan.idle (c : Chan) : Bool := c.xfer.isNone && !c.halted && c.kept.isNone

/-- Does a job other than `id` keep a channel for its inputs (R193)? -/
def Block.chanKept (b : Block) (id c : Nat) : Bool := b.jobs.any (fun j => j.chan == some c && j.id != id)

/-- Channels of a quadrant that a slice uses, draining ones and those kept for a next input counted (R205); those kept for job `id` are not. -/
def Block.chansOf (b : Block) (q s id : Nat) : Nat :=
  ((List.range 8).filter (fun k => match (b.chan (8 * q + k)).xfer with
    | some x => x.slice.val == s
    | none => b.jobs.any (fun j => j.chan == some (8 * q + k) && !j.dev && j.slice.val == s && j.id != id))).length

/-- The channel of a job's next transfer: the one its inputs move on, else the lowest-numbered idle channel of its quadrant that its slice may
use, while the quadrant's PLL runs (R193). -/
def Block.pickChan (b : Block) (j : Job) : Option Nat :=
  if !(b.quad j.quad).pllLocked then none else
  match j.chan.filter (fun c => (b.chan c).idle && b.chanUsable c) with
  | some c => some c
  | none =>
    if b.chansOf j.quad j.slice j.id < (b.slice j.slice).quota.channels then
      ((List.range 8).map (8 * j.quad + ·)).find? (fun c =>
        (b.chan c).idle && b.chanUsable c && !b.fenceDue (.chan c) && !b.chanKept j.id c)
    else none

/-- A transfer relocks a stopped PLL before it starts (R193, R351). -/
def Block.relock (b : Block) (q : Nat) : Block := if (b.quad q).pllLocked then b else b.modQuad q (fun z => { z with pllRun := true })

/-- What is left of address ranges behind their first `n` bytes. -/
def dropBytes : Nat → List (W64 × Nat) → List (W64 × Nat)
  | _, [] => []
  | n, (a, l) :: r => if l ≤ n then dropBytes (n - l) r else (a + BitVec.ofNat 64 n, l - n) :: r

/-- Put a transfer into a channel. -/
def Block.setXfer (b : Block) (c : Nat) (x : Xfer) : Block := b.modChan c (fun ch => { ch with xfer := some x })

/-- Issue requests of a channel's transfer while it may: reads of at most 4,096 bytes, the maximum read request and what is left of a
piece, 24 outstanding, with a tag of the 768 each (R163, R192, R204; log 151); writes up to the next maximum-payload boundary. Fuel bounds the requests. -/
def Block.issue (c : Nat) : Nat → Block → Block
  | 0, b => b
  | n + 1, b =>
    match (b.chan c).xfer with
    | none => b
    | some x =>
      if !x.translated || x.cause != 0 then b else
      match x.pieces with
      | [] => b
      | (a, l) :: r =>
        if l = 0 then Block.issue c n (b.setXfer c { x with pieces := r }) else
        let host := x.target == 0
        let rest k := if k < l then (a + BitVec.ofNat 64 k, l - k) :: r else r
        if x.write then
          if x.got.isEmpty then b.setXfer c { x with pieces := [], remain := 0 } else
          let k := min (if host then b.host.mps - a.toNat % b.host.mps else 4096) (min l x.got.length)
          if host && !b.tokens x.slice k then b else
          let b := if host then (b.emit (.write a (x.got.take k) (b.pasid x.slice) (!b.host.relaxed))).charge x.slice k else b
          let b := b.modJob x.job (fun j => { j with begun := true, sent := j.sent || host })
          Block.issue c n (b.setXfer c { x with
            got := x.got.drop k, pieces := rest k, remain := x.remain - k,
            count := if host then x.count + k else x.count, asked := if host then x.asked else x.asked ++ [(a, k)] })
        else if 24 ≤ x.asked.length then b else
          let k := min (min 4096 b.host.mrrs) l
          if host && !(b.tokens x.slice k && b.tagFree) then b else
          let b := if host then (b.emit (.read a k (b.pasid x.slice))).charge x.slice k else b
          Block.issue c n (b.setXfer c { x with pieces := rest k, remain := x.remain - k, asked := x.asked ++ [(a, k)] })

/-- Job status of a DMA cause (Table 8.6). -/
def causeStatus (c : Byte) : W16 :=
  if c = 0x07 then St.translationFault else if 0x20 ≤ c ∧ c ≤ 0x22 then St.dmaLoop else if c = 0x30 then St.unitFault else St.dmaError

/-- The Detail of a DMA failure (Table 8.7). -/
def dmaDetail (buf : Buf) (cause : Byte) (chan : Nat) (last : Bool) : W32 :=
  BitVec.ofNat 32 (Buf.code buf * 2 ^ 24 + cause.toNat * 2 ^ 16 + chan % 32 * 2 ^ 8 + b1 last)

/-- What a read has brought whole reaches its job: the parameter block, the input, a DDR5 object, or one fetch of a streamed message. -/
def Block.deliver (b : Block) (x : Xfer) : Block :=
  let d := fit x.len x.got
  if x.write then b else b.modJob x.job (fun j =>
    if x.stream then { j with passes := j.passes - 1, haveIn := true } else
    match x.buf with
    | .param => { j with param := d, havePar := true }
    | .input => { j with input := d, haveIn := true }
    | _ => { j with object := d, haveObj := true })

/-- The note of a failed transfer (R203): its source is the channel. Cause 0x30 fences the channel; cause 0x06 fences the DDR5 channel, which
R199's own note has done (log 120). -/
def Block.xferNote (b : Block) (c : Nat) (x : Xfer) : Block :=
  let r : Raise := { source := Src.chan c, kind := 0x09, cls := if x.cause == 0x06 || x.cause == 0x30 then 1 else 2,
                     detail := dmaDetail x.buf x.cause c x.lastBeat, addr := x.failAddr.setWidth 48, job := some x.job, slice := some x.slice,
                     known := some (x.jobSeq, x.tag) }
  if x.cause == 0x06 then b.takeNote (b.noteOf r) else b.raise r

/-- End a transfer that issues nothing more and has nothing outstanding: what a read brought goes to its job, and the record is
written; a failed one raises its note (R203). -/
def Block.settleXfer (b : Block) (c : Nat) : Block :=
  match (b.chan c).xfer with
  | none => b
  | some x =>
    if !x.asked.isEmpty || !x.pieces.isEmpty || (!x.translated && x.cause == 0) then b
    else if x.cause != 0 then (b.xferNote c x).closeXfer c x
    else (b.deliver x).closeXfer c x

/-- The address of a failing access, in the form of Table 8.3: the oldest request unanswered, else the first not issued. -/
def Xfer.failing (x : Xfer) : W64 :=
  if x.target ≠ 0 then x.addr else
  match x.asked, x.pieces with
  | (a, _) :: _, _ => a
  | [], (a, _) :: _ => a
  | [], [] => x.addr

/-- A channel counts an error and latches it if its latch is clear; else OVF is set (R202). -/
def Chan.latch (ch : Chan) (x : Xfer) (cause : Byte) (now : W64) : Chan :=
  let ch := { ch with count := if ch.count = 0xFFFFFFFF then ch.count else ch.count + 1 }
  if ch.valid then { ch with ovf := true }
  else { ch with valid := true, cause := cause, write := x.write, target := x.target, slice := x.slice, jobSeq := x.jobSeq,
                 addr := x.failing, time := now, remain := BitVec.ofNat 32 x.remain }

/-- An error of a transfer (R201): it stops issuing, HALTED is set, the latch takes the error, and the transfer drains; the first error is the
record's. `answered` says that the oldest request has had its response. -/
def Block.failXfer (b : Block) (c : Nat) (cause : Byte) (answered : Bool) : Block :=
  match (b.chan c).xfer with
  | none => b
  | some x =>
    let asked := if answered then x.asked.drop 1 else x.asked
    let x' := if x.cause ≠ 0 then { x with asked := asked } else
      { x with cause := cause, failAddr := x.failing, lastBeat := x.remain == 0, pieces := [], asked := asked, translated := true }
    (b.modChan c (fun ch => { ch.latch x cause b.now with xfer := some x', halted := true })).settleXfer c

/-- Go on with a channel's transfer. -/
def Block.resumeXfer (b : Block) (c : Nat) : Block :=
  match (b.chan c).xfer with
  | some x => (Block.issue c (x.remain + x.pieces.length + 1) b).settleXfer c
  | none => b

/-- Give a channel a transfer of a job. -/
def Block.startXfer (b : Block) (c : Nat) (x : Xfer) : Block :=
  let b := b.modJob x.job (fun j => { j with dmaOpen := j.dmaOpen + 1 })
  (b.setXfer c { x with translated := !b.host.ats || x.target != 0, group := (b.groupOf c).getD 0 }).resumeXfer c

/-- The address ranges of a buffer: its one range, or what its gather list gave. -/
def Job.ranges (j : Job) (buf : Buf) (a : W64) (len : Nat) : List (W64 × Nat) :=
  if addrForm a = 2 then Tab.get [] j.pieces (Buf.code buf) else [(a, len)]

/-- The DDR5 object a job reads: the retained public key, or the object its input address names. -/
def Job.objectNo (j : Job) : Nat := j.keyObj.pkObject.getD (j.desc.inAddr.toNat % 2 ^ 32)

/-- The object of a slice with a number. -/
def Block.ddrObject (b : Block) (s : SliceId) (n : Nat) : Option DdrObject :=
  b.ddr.objects.find? (fun o => o.slice == s && o.number.toNat == n)

/-- Are all inputs of a job but a streamed message in its slots (R118)? -/
def Job.inSlots (j : Job) : Bool := j.havePar && j.haveIn && j.haveObj

/-- The transfer a job's inputs need next: parameter block, input, DDR5 object (R193), a further fetch of its streamed message (R413). -/
def Block.nextRead (b : Block) (j : Job) : Option Xfer :=
  let base : Xfer := { job := j.id, buf := .param, slice := j.slice, jobSeq := j.jobSeq, tag := j.desc.tag }
  if !j.havePar then
    let n := paramLen j.entry j.desc
    some { base with addr := j.desc.parAddr, len := n, remain := n, pieces := j.ranges .param j.desc.parAddr n,
                     gather := addrForm j.desc.parAddr == 2 }
  else if !j.haveIn || j.passes != 0 then
    let skip := if j.input.isEmpty then 0 else j.fixed
    some { base with buf := .input, addr := j.desc.inAddr, len := j.desc.inLen - skip, remain := j.desc.inLen - skip, stream := j.passes != 0,
                     pieces := dropBytes skip (j.ranges .input j.desc.inAddr j.desc.inLen), gather := addrForm j.desc.inAddr == 2 }
  else if !j.haveObj then
    let o := b.ddrObject j.slice j.objectNo
    let n := (o.map (·.len)).getD 48
    some { base with buf := .ddrRead, addr := BitVec.ofNat 64 (2 ^ 62 + j.objectNo), len := n, remain := n,
                     pieces := [(BitVec.ofNat 64 ((o.map (·.page)).getD 0 * 4096), n)],
                     target := (o.map (fun o => BitVec.ofNat 3 (1 + o.chan.val))).getD 1 }
  else none

/-- Start a job's next input transfer where a channel is free to it; the job keeps the channel until its inputs are in (R193). -/
def Block.startRead (b : Block) (id : Nat) : Block :=
  match b.job id with
  | none => b
  | some j => match b.nextRead j with
    | none => b
    | some x => match b.pickChan j with
      | some c => (b.modJob id (fun j => { j with
          chan := some c, input := if x.stream then j.input.take j.fixed else j.input })).startXfer c x
      | none => b.relock j.quad

/-- Does a granted stateful signature wait: for a confirmed limit above its index, or for the tree its index lies in (R51, R54)? -/
def Block.awaitsIndex (b : Block) (j : Job) : Bool :=
  (j.op == 0x0510 || j.op == 0x0620 || j.op == 0x0630) &&
  (match (b.key j.desc.handle).bind (·.stateful) with
   | some t => decide (t.c ≤ j.oneTime) || decide (t.trees ≤ j.oneTime / 2 ^ t.bottom)
   | none => false)

/-- The masking order of a key generation whose template has come with the parameter block: no lower than the template's (R33, log 127). -/
def Job.genOrder (j : Job) : BitVec 2 :=
  if maskOp j.op && templateOp j.op && fam j.op != 4 && !j.param.isEmpty && !j.entry.customer
  then BitVec.ofNat 2 (max j.order.toNat (min 2 (fld j.param 4 1))) else j.order

/-- Put byte strings into the shared-memory pages of a job, each from a page of its own on; a page is S that holds a part of a secret one (R62, R80,
R90; the order is log 157). -/
def Quad.place (z : Quad) : List (Bool × Bytes) → List Nat → Quad
  | [], _ => z
  | (s, d) :: r, l => (z.fill s l d).place r (l.drop ((d.length + 4095) / 4096))

/-- The operands of a job that holds shared memory go into its pages: its secret key, its input, its parameter block and a DDR5 object. -/
def Block.placeOperands (b : Block) (j : Job) : Block :=
  if j.pages.isEmpty then b else
  b.modQuad j.quad (fun z => z.place
    [(true, if j.entry.takesKey then j.keyObj.secret else []), (j.entry.secretIn, j.input), (false, j.param), (false, j.object)] j.pages)

/-- All inputs are in the slots: the job runs, and its wales pass to state 3 (R118, R138). -/
def Block.beginRun (b : Block) (j : Job) : Block :=
  let b := b.placeOperands j
  let b := b.modJob j.id (fun j => { j with phase := .running, order := j.genOrder })
  j.wales.foldl (fun (b : Block) (w : WaleId) => b.modWale w (fun x => { x with st := .running, order := j.genOrder, runAt := b.now })) b

/-- A successful job has written all it writes: its effects on the store come about, its wales wipe, and its record follows, after
the commits it waits for (R244). -/
def Block.conclude (b : Block) (j : Job) : Block :=
  let (b, d) := b.applyEffects j j.result.effects j.result.detail
  let b := (((Block.wipeAll j.wales b).modQuad j.quad (fun q => q.dropJob j)).settleSlots j.quad).touchQuiet j.quad
  let mark := b.kst.commits + b.kst.lag.length
  let b := b.modJob j.id (fun j => { j with
    result := { j.result with detail := d }, ended := true, wales := [], pages := [], codePair := none, reservedKst := 0, phase := .waiting,
    mark := mark })
  if j.needsCommit ∧ b.kst.lag ≠ [] then { b with kst := { b.kst with waits := b.kst.waits ++ [j.id] } } else b.finish j.id

/-- The inputs of a job to be forwarded are in the origin's buffer: they cross the link with its descriptor (R344). -/
def Block.sendForward (b : Block) (j : Job) : Block :=
  match j.forwardTo with
  | some p => (b.modJob j.id (fun j => { j with phase := .forwarded })).sendFrame p "job" (le 8 j.id ++ le 2 j.slice.val ++ le 2 j.desc.opcode.toNat ++ le 4 j.desc.handle.toNat ++ le 8 j.desc.inline.toNat ++
        le 4 j.desc.aux ++ le 4 j.desc.outCap ++ le 4 j.input.length ++ j.input ++ j.param)
  | none => b

/-- Start the transfer of a job's new object into DDR5, to free pages (R206), or of its output to the host. -/
def Block.startWrite (b : Block) (j : Job) : Block :=
  match b.pickChan j with
  | none => b.relock j.quad
  | some c =>
    let base : Xfer := { job := j.id, buf := .output, write := true, slice := j.slice, jobSeq := j.jobSeq, tag := j.desc.tag }
    if j.needDdr then
      let n := j.result.ddr.length
      match b.placeObject j.slice j.ddrNo n with
      | none => b
      | some o =>
        let b := { b with ddr := { b.ddr with writes := b.ddr.writes.filter (fun (w : Nat × DdrObject) => w.1 != j.id && b.jobs.any (fun k => k.id == w.1)) ++ [(j.id, o)] } }
        (b.modJob j.id (fun j => { j with needDdr := false })).startXfer c
          { base with target := BitVec.ofNat 3 (1 + o.chan.val), addr := BitVec.ofNat 64 (2 ^ 62 + j.ddrNo), len := n, remain := n,
                      pieces := [(BitVec.ofNat 64 (o.page * 4096), n)], got := j.result.ddr }
    else
      let n := j.result.out.length
      (b.modJob j.id (fun j => { j with needOut := false })).startXfer c
        { base with addr := j.desc.outAddr, len := n, remain := n, pieces := j.ranges .output j.desc.outAddr n, got := j.result.out,
                    gather := addrForm j.desc.outAddr == 2 }

/-- Move a granted job on as far as its channels allow: it runs when its inputs are in its slots, and fetches a streamed message as it runs. -/
def Block.pump (b : Block) (id : Nat) : Block :=
  match b.job id with
  | none => b
  | some j =>
    if j.ended || b.stuck j then b else
    match j.phase with
    | .loading =>
      if !j.inSlots then (if j.dmaOpen != 0 then b else b.startRead id)
      else if j.dmaOpen != 0 && j.passes == 0 then b
      else if j.forwardTo.isSome then b.sendForward j
      else if j.wales.any (fun w => (b.wale w).waking) || b.awaitsIndex j then b
      else if j.passes != 0 && j.dmaOpen == 0 then (b.beginRun j).startRead id
      else b.beginRun j
    | .running => if j.passes != 0 && j.dmaOpen == 0 then b.startRead id else b
    | .output => if j.dmaOpen != 0 then b else if j.needDdr || j.needOut then b.startWrite j else b.conclude j
    | _ => b

/-- Move on every job of a quadrant, in admission order. -/
def Block.pumpQuad (b : Block) (q : Nat) : Block :=
  (b.jobsWhere (fun j => j.quad == q && (j.phase == .loading || j.phase == .output || (j.phase == .running && j.passes != 0)))).foldl Block.pump b

/-- The compare has passed, or the job is of class 0: a SUCCESS goes on to its output, any other status ends the job without output
(R15, R93). -/
def Block.passed (b : Block) (id : Nat) : Block :=
  match b.job id with
  | none => b
  | some j =>
    if j.result.status ≠ St.success then b.endGranted j j.result.status j.result.detail else
    if j.remote.isSome || j.dev then b.conclude j else
      (b.modJob id (fun j => { j with
        phase := .output, needDdr := !j.result.ddr.isEmpty, needOut := !j.result.out.isEmpty && addrForm j.desc.outAddr != 1 })).pump id

/-- A running job presents its result once its message has arrived whole: classes 1 and 2 to the comparators, class 0 straight on (R93, R96, R119,
R413). -/
def Block.present (b : Block) (id : Nat) (r : JobResult) : Block :=
  match b.job id with
  | none => b
  | some j =>
    if j.phase ≠ .running then b
    else if j.passes ≠ 0 then b.modJob id (fun j => { j with early := some r }) else
    let b := b.modJob id (fun j => { j with result := r, phase := .comparing, early := none })
    let b := if j.pages.isEmpty then b else b.modQuad j.quad (fun z => z.fill j.levelled j.pages r.out)
    if j.entry.cls = 0 then b.passed id else b

/-- The jobs whose message has now come whole present what their runs had released before (R119). -/
def Block.presentEarly (b : Block) : Block :=
  b.jobs.foldl (fun (b : Block) (j : Job) => match j.early with
    | some r => if j.passes = 0 then b.present j.id r else b
    | none => b) b

/-- The length of an input's fixed fields, as the input's own first bytes tell it: the member list of FABRIC_SIGN, a supplied stateful key with the
signature behind it; else the length known from the descriptor (R413, Table 14.6). -/
def Job.fixedOf (j : Job) (input : Bytes) : Nat :=
  if j.entry.customer then j.fixed
  else if j.op / 16 = 0x125 then min j.desc.inLen (4 + 8 * fld input 0 1)
  else if j.desc.supplied ∧ (j.op = 0x0520 ∨ j.op = 0x0530 ∨ j.op = 0x0640 ∨ j.op = 0x0650) then
    min j.desc.inLen (suppliedPkLen j.op input + j.desc.aux)
  else j.fixed

/-! ### The commands of a channel -/

/-- Place k of the window holds the last message byte whose number is k modulo 4,096 (log 121). -/
def windowBytes (m : Bytes) : Bytes :=
  (List.range (min 4096 m.length)).map (fun k => m.getD (m.length - 1 - (m.length - 1 - k) % 4096) 0)

/-- Bytes of a streamed message that arrive while the microprogram runs enter the window behind the fixed fields of O0 (R118, R413). -/
def Wale.window (x : Wale) (fixed pos : Nat) (d : Bytes) : Wale :=
  let o := x.micro.o[0]
  if !o.valid then x else
  { x with opmem := (List.range d.length).foldl (fun m i => Mem.write m (o.base * x.slotBytes + fixed + (pos + i) % 4096) (d.getD i 0)) x.opmem }

/-- Bytes of a stream reach the job: its fixed fields are in slots once their last byte has come, and the rest passes through the window. -/
def Block.streamIn (b : Block) (x : Xfer) (d : Bytes) : Block :=
  match b.job x.job with
  | none => b
  | some j =>
    let b := b.modJob j.id (fun j =>
      let all := j.input ++ d
      let n := if j.fixed ≤ all.length ∧ j.haveIn = false then j.fixedOf all else j.fixed
      { j with input := all, fixed := n, haveIn := j.haveIn || decide (n ≤ all.length) })
    j.wales.foldl (fun (b : Block) (w : WaleId) =>
      b.modWale w (fun y => if y.st = .running then y.window j.fixed (j.input.length - j.fixed) (d.drop (j.fixed - j.input.length)) else y)) b

/-- The page of a DDR5 channel that an access failed on is retired; the object that held it is deleted and its referrer shows it as absent
(R207). -/
def Block.retirePage (b : Block) (c : Fin 2) (page : Nat) : Block :=
  let b := { b with ddr := { b.ddr with retired := b.ddr.retired.set c (insertNat page (b.ddr.retired[c])) } }
  match b.ddr.objects.find? (fun o => o.chan == c && decide (o.page ≤ page) && decide (page < o.page + o.pages)) with
  | none => b
  | some o =>
    let hs := (b.kst.keys.filter (fun p => p.1 / 2 ^ 21 == o.slice.val && p.2.pkObject == some o.number.toNat)).map (·.1)
    hs.foldl (fun (b : Block) h => match b.key (BitVec.ofNat 32 h) with
      | some k => b.setKey (BitVec.ofNat 32 h) { k with pkObject := none }
      | none => b) { b with ddr := { b.ddr with objects := b.ddr.objects.filter (fun p => !(p.slice == o.slice && p.number == o.number)) } }

/-- An uncorrectable error of a transfer's oldest DDR5 access (R207): the page is retired, a note names the controller, cause 0x05. -/
def Block.ddrError (b : Block) (c : Nat) (x : Xfer) : Block :=
  let ch : Fin 2 := Fin.ofNat 2 (x.target.toNat - 1)
  let b := b.retirePage ch ((x.asked.headD (0, 0)).1.toNat / 4096)
  (b.raise { source := Src.device 7 ch.val, kind := 0x02, cls := 2, detail := openDetail 0x02, job := some x.job }).failXfer c 0x05 true

/-- A host read of a channel unanswered for 50 ms fails with cause 0x04; its answer will not come (R199). -/
def Block.chanTimeout (b : Block) (c : ChanId) : Block :=
  match (b.chan c).xfer with
  | none => b
  | some x => if x.write || x.asked.isEmpty || x.target != 0 then b else b.failXfer c 0x04 true

/-- DDR5_TIMEOUT: a DDR5 access unanswered for 10 µs fails with cause 0x06, and an F1 note fences the DDR5 channel, whose objects are out of
reach (R199). -/
def execDdr5Timeout (c : ChanId) (s : State) : Host.Outcome State Fault Refusal :=
  let b := s.toBlock
  done (match (b.chan c).xfer with
    | none => b
    | some x =>
      if x.asked.isEmpty || x.target == 0 then b else
      let b := b.raise { source := Src.device 7 (x.target.toNat - 1), kind := 0x09, cls := 1, detail := dmaDetail x.buf 0x06 c (x.remain == 0),
                         addr := x.failing.setWidth 48, job := some x.job, slice := some x.slice,
                         known := some (x.jobSeq, x.tag) }
      b.failXfer c 0x06 true) s

/-- DMA_WRITE_ACK: a DDR5 controller acknowledges a write; the last acknowledgement ends the transfer (R198). An error (`ok` false)
is an uncorrectable error of the access. -/
def execDmaWriteAck (c : ChanId) (ok : Bool) (s : State) : Host.Outcome State Fault Refusal :=
  let b := s.toBlock
  done (match (b.chan c).xfer with
    | none => b.unexpected
    | some x =>
      match x.asked with
      | [] => b.unexpected
      | (_, k) :: rest =>
        if !x.write then b.unexpected
        else if !ok then b.ddrError c x
        else (b.setXfer c { x with asked := rest, count := x.count + k }).resumeXfer c) s

/-- Records that channels kept while the queue was full enter it (R203). -/
def Block.drainKept (b : Block) (q : Nat) : Block :=
  (List.range 8).foldl (fun b k =>
    let c := 8 * q + k
    match (b.chan c).kept with
    | some r => if (b.quad q).records.length < 64 then
        (b.modChan c (fun x => { x with kept := none })).modQuad q (fun x => { x with records := x.records ++ [r] }) else b
    | none => b) b

/-- The dispatcher takes the oldest record of a quadrant. A cause fails the job (R201); a job whose transfers have all ended moves on, or
has its record written (R200). -/
def Block.consumeRecord (b : Block) (q : QuadId) : Block :=
  (match (b.quad q).records with
    | [] => b
    | r :: rest =>
      let b := (b.modQuad q (fun x => { x with records := rest })).drainKept q
      let b := b.modJob r.job (fun j => { j with dmaOpen := j.dmaOpen - 1 })
      let b := match b.job r.job with
        | none => b
        | some j =>
          if r.cause ≠ 0 ∧ !j.ended then
            b.endGranted j (causeStatus r.cause) (dmaDetail r.buf r.cause (8 * q.val + r.source.toNat % 8) r.lastBeat)
          else if j.ended then (if j.dmaOpen = 0 then b.finish j.id else b)
          else ((b.modJob j.id (fun j => if j.inSlots && j.passes == 0 then { j with chan := none } else j)).pump j.id).presentEarly
      b.pumpQuad q)

/-- Does a page lie in address ranges? -/
def pageIn (page : BitVec 52) (l : List (W64 × Nat)) : Bool :=
  l.any (fun p => p.2 != 0 && decide (p.1.toNat / 4096 ≤ page.toNat) && decide (page.toNat * 4096 < p.1.toNat + p.2))

/-- Is a page one of a transfer's output whose writes have begun and not all been issued? -/
def Block.outputBegun (b : Block) (c : Nat) (sl : SliceId) (page : BitVec 52) : Bool :=
  match (b.chan c).xfer with
  | some x => x.slice == sl && x.target == 0 && x.write && x.remain != x.len &&
      (match b.job x.job with | some j => pageIn page (j.ranges .output x.addr x.len) | none => false)
  | none => false

/-- The invalidations not yet completed: one may wait for several channels. -/
def HostIf.invalsOut (h : HostIf) : Nat :=
  (h.invals.foldl (fun (l : List (Nat × Nat)) i => if l.contains (i.1.val, i.2.1.toNat) then l else (i.1.val, i.2.1.toNat) :: l) []).length

/-- ATS_INVALIDATION: one that names a page of an output whose writes have begun is completed with the last write of that output; every other
is completed now, and what has still to access the page translates it again first (R197). A queue of 32 takes no further one (R163; log 167). -/
def execAtsInvalidation (sl : SliceId) (page : BitVec 52) (s : State) : Host.Outcome State Fault Refusal :=
  let b := s.toBlock
  let cs := (List.range 32).filter (fun c => b.outputBegun c sl page)
  let b := (List.range 32).foldl (fun b c =>
    match (b.chan c).xfer with
    | some x =>
      if x.slice = sl ∧ x.target = 0 ∧ pageIn page x.pieces ∧ !cs.contains c then b.setXfer c { x with translated := false } else b
    | none => b) b
  let b := { b with jobs := b.jobs.map (fun (j : Job) =>
    if j.inSlice sl ∧ j.phase = Phase.walking ∧ !j.walkAsked ∧ j.walkAt.toNat / 4096 = page.toNat then { j with walkTr := false } else j) }
  done (if 32 ≤ s.toBlock.host.invalsOut then s.toBlock else
    if cs.isEmpty then b.emit (.invalidateDone sl page)
    else { b with host := { b.host with invals := b.host.invals ++ cs.map (fun c => (sl, page, c)) } }) s

end Sys2Proof.Machine
end

