-- ==== Sys2Proof/Machine/Grants.lean ====
section
/-! DEFINITION. The dispatcher (chapter 06): ready lists, grants, the warm pool, promotion, reservation, preemption, spilling and
restoring, wakes and sleeps, the compare, quadrant PLLs and the crossbar's locks and rounds. -/
namespace Sys2Proof.Machine

/-! ### Ready lists (R133 to R136) -/

/-- The slices whose lists at a level are not empty, rising. -/
def Block.slicesAt (b : Block) (lvl : Nat) : List Nat :=
  (b.jobs.filter (fun j => j.listed && j.level.val == lvl)).foldl (fun l j => insertNat j.list l) []

/-- The slice after p in round-robin order. -/
def nextSlice (l : List Nat) (p : Nat) : Nat :=
  match l.find? (fun s => decide (p < s)) with
  | some s => s
  | none => l.headD 0

/-- The order in which a request visits the slices of a level: from the pointer where it rests on one of them, else from the next (R135). -/
def Block.visits (b : Block) (lvl : Nat) : List Nat :=
  let l := b.slicesAt lvl
  let p := b.pointer lvl
  if p.rests && l.contains p.slice then l.filter (fun s => decide (p.slice ≤ s)) ++ l.filter (fun s => decide (s < p.slice))
  else l.filter (fun s => decide (p.slice < s)) ++ l.filter (fun s => decide (s ≤ p.slice))

/-- The pointer of a level arrives at a slice: its deficit grows by its quantum, 64 × W. -/
def Block.arrive (b : Block) (lvl s : Nat) : Block :=
  (b.setPointer lvl { slice := s, rests := true }).setDeficit lvl s (b.deficit lvl s + 64 * (b.slice s).weight)

/-- Take a job from its list: its cost is subtracted from the deficit. -/
def Block.take (b : Block) (lvl : Nat) (j : Job) : Block × Option Nat :=
  (b.setDeficit lvl j.list (b.deficit lvl j.list - j.entry.cost), some j.id)

/-- Serve one request at a level from the slices given, each visited once (R135, R137): the job chosen, its cost taken. -/
def Block.serve (fit : Job → Bool) (lvl : Nat) : List Nat → Block → Block × Option Nat
  | [], b => (b.arrive lvl (nextSlice (b.slicesAt lvl) (b.pointer lvl).slice), none)
  | s :: r, b =>
    let b := if b.pointer lvl = { slice := s, rests := true } then b else b.arrive lvl s
    let first (s : Nat) := ((b.listAt lvl s).take 8).find? fit
    match first s with
    | some j => if j.entry.cost ≤ b.deficit lvl s then b.take lvl j else Block.serve fit lvl r b
    | none =>
      match ((b.visits lvl).drop 1).findSome? (fun s => (first s).filter (fun j => decide (j.entry.cost ≤ b.deficit lvl s))) with
      | some j => b.take lvl j
      | none => (b, none)

/-- A spilled job of a quiescing slice, which is resumed ahead of every other job of its level (R148, log 115). -/
def Block.urgent (b : Block) (fit : Job → Bool) (lvl : Nat) : Option Job :=
  b.jobs.find? (fun j => j.phase == .spilled && !j.ended && !j.dev && j.level.val == lvl && (b.slice j.slice).st == .quiescing && fit j)

/-- Serve one request from level `lvl` − 1 down to `lo` (R137). -/
def Block.serveFrom (fit : Job → Bool) (lo : Nat) : Nat → Block → Block × Option Nat
  | 0, b => (b, none)
  | lvl + 1, b =>
    if lvl < lo then (b, none) else
    match b.urgent fit lvl with
    | some j => (b, some j.id)
    | none =>
      if (b.slicesAt lvl).isEmpty then Block.serveFrom fit lo lvl b else
      match Block.serve fit lvl (b.visits lvl) b with
      | (b, some j) => (b, some j)
      | (b, none) => Block.serveFrom fit lo lvl b

/-! ### Where a job fits (R138 to R141) -/

/-- A place a job takes: the wale, its part, whether it leads, and its partner. -/
structure Seat where
  wale : Nat
  part : Nat
  lead : Bool
  partner : Option Nat
deriving DecidableEq, Repr

/-- How a job would be granted. -/
structure Plan where
  quad : Nat
  seats : List Seat
  timeRed : Bool := false
  width : Nat := 1
  codePair : Option (Fin 2) := none
deriving DecidableEq, Repr

/-- Free wales of a quadrant other than w in the order a partner is chosen: state 2, then 1, then 0, lowest number first (R138). -/
def Block.partners (b : Block) (q w : Nat) : List Nat :=
  let l := ((List.range 16).map (16 * q + ·)).filter (fun i => i != w && b.freeWale i && !b.tuning i)
  l.filter (fun i => (b.wale i).st == .warm) ++ l.filter (fun i => (b.wale i).st == .clockGated) ++ l.filter (fun i => (b.wale i).st == .gated)

/-- The part of a spilled job that may be restored: its copies are complete and no wale is restoring it. -/
def Block.sparePart (b : Block) (j : Job) : Option (Nat × List Spill) :=
  let l := (b.quad j.quad).spills.filter (fun x => x.job == j.id)
  match l.find? (fun x => !(List.range 64).any (fun i => (b.wale i).job == some j.id && (b.wale i).part == x.part)) with
  | some x => some (x.part, l.filter (fun y => y.part == x.part))
  | none => none

/-- Pair up wales, part numbers rising with the lead's number (R150). -/
def pairUp : List Nat → Nat → List Seat
  | a :: c :: r, n => ⟨a, n, true, some c⟩ :: ⟨c, n, false, some a⟩ :: pairUp r (n + 1)
  | _, _ => []

/-- May a wale take part in a job: its leveller is calibrated where the job engages it (R97), and it holds the customer image where the job
runs from it (R103, R130)? -/
def Block.takes (b : Block) (j : Job) (i : Nat) : Bool :=
  (!j.levelled || b.levelSet i != 0) && (!j.entry.customer || (b.wale i).custOk)

/-- May a job run time-redundantly (R95, R140)? -/
def Block.mayRepeat (b : Block) (j : Job) : Bool := j.entry.trFits && b.trAllow

/-- The conditions of Table 6.1 for a job and a wale but those of the partner, the code engines and the shared memory. -/
def Block.fitsElse (b : Block) (j : Job) (w : Nat) : Bool :=
  let q := w / 16
  let e := j.entry
  e.wales != 0 && b.startable j && !j.ended && b.takes j w &&
  if j.phase = .spilled then
    j.quad == q && (b.delivers q || (b.wale w).drbgSeeded) && (b.sparePart j).any (fun p => b.quotaFree j p.2.length)
  else !b.fenceDue (.quad q) && (!e.draws || b.delivers q) &&
    b.quotaFree j (if e.wales = 1 || (b.mayRepeat j && ((b.partners q w).filter (b.takes j)).isEmpty) then 1 else 2)

/-- How a job would be granted to wale w: every condition of Table 6.1. None where it does not fit. A partner that could not take the job, being
uncalibrated, retuned or without the customer image, is none (log 173). -/
def Block.plan (b : Block) (j : Job) (w : Nat) : Option Plan :=
  let q := w / 16
  let e := j.entry
  let ps := (b.partners q w).filter (b.takes j)
  if !b.fitsElse j w then none
  else if j.phase = .spilled then
    match b.sparePart j with
    | none => none
    | some (p, l) =>
      if l.length ≤ 1 then some { quad := q, seats := [⟨w, p, true, none⟩], timeRed := j.timeRed, width := j.width, codePair := j.codePair }
      else match ps.find? (fun i => b.delivers q || (b.wale i).drbgSeeded) with
        | some v => some { quad := q, seats := [⟨w, p, true, some v⟩, ⟨v, p, false, some w⟩], width := j.width, codePair := j.codePair }
        | none => none
  else
    let cp := if e.codePairs ≠ 0 then b.freePair q else none
    if (e.codePairs ≠ 0 ∧ cp = none) ∨ (e.qmem ≠ 0 ∧ 7168 < b.sharedUsed q + e.qmem) then none
    else if e.wales = 1 then some { quad := q, seats := [⟨w, 0, true, none⟩], codePair := cp }
    else
      let warm := w :: ps.filter (fun i => (b.wale i).st == .warm)
      let used := (b.jobs.filter (fun x => x.granted && x.inSlice j.slice)).foldl (fun a x => a + x.charged) 0
      let k := if e.coop && j.desc.coopOk then min 8 (min (warm.length / 2) (((b.slice j.slice).quota.wales - used) / 2)) else 1
      if 2 ≤ k then
        some { quad := q, seats := pairUp ((warm.take (2 * k)).foldl (fun l i => insertNat i l) []) 0, width := k, codePair := cp }
      else match ps with
        | v :: _ =>
          if b.quotaFree j 2 then some { quad := q, seats := [⟨w, 0, true, some v⟩, ⟨v, 0, false, some w⟩], codePair := cp } else none
        | [] => if b.mayRepeat j then some { quad := q, seats := [⟨w, 0, true, none⟩], timeRed := true } else none

/-- Does a quadrant serve a RANDOM or FULL_ENTROPY job: it is in service, and its seeder delivers what the job takes (R26, R280)? -/
def Block.servesEmpty (b : Block) (j : Job) (q : Nat) : Bool :=
  b.quadAvail q && !b.fenceDue (.quad q) && ((b.seeder q).st == .seeded || ((b.seeder q).st == .relayed && j.op == 0x0F00))

/-- Does a job with an empty footprint, or a failed skein member, start now (R145, R193, R280)? -/
def Block.startsEmpty (b : Block) (j : Job) : Bool :=
  (j.entry.wales == 0 || j.ended) && b.startable j &&
  (j.ended || !j.entry.draws || (List.range 4).any (b.servesEmpty j))

/-! ### Granting -/

/-- Seat a job on a wale: the wale keeps its state until the inputs are in its slots; one that restores is in state 5; one asleep
wakes first (R118, R125, R138). Its WAL_STAT fields are set here (log 148). -/
def Block.seat (b : Block) (j : Job) (resume tr : Bool) (x : Seat) : Block :=
  let asleep := (b.wale x.wale).st != .warm
  let b := b.modWale x.wale (fun w => { w with
    st := if resume && !asleep then .spilling else w.st,
    waking := asleep, job := some j.id, runSlice := if j.dev then none else some j.slice, part := x.part, lead := x.lead, paired := x.partner.isSome,
    partner := x.partner.getD 0 % 16, levelOn := j.levelled, order := j.order, rclass := BitVec.ofNat 2 j.entry.cls.val,
    timeRed := tr, touched := roundUp (j.entry.opmem * 1024 + (if tr then j.entry.maxOut else 0)) (512 * 2 ^ w.slotLen.toNat), grantedAt := b.now, runFrom := b.now, micro := {}, opmem := [],
    sTags := [], trapWanted := false, trapAt := none })
  if asleep then b.wake x.wale else b

/-- The inputs a granted job needs (R193, R195): none of length zero, and a DDR5 object where its input names one or its key's public
half lies there. -/
def Job.withNeeds (j : Job) : Job :=
  let pk := (j.op / 256 == 8) && (j.op / 16 % 16 == 4 || (j.op / 16 % 16 == 2 && !bit j.desc.inline.toNat 0))
  let ddr := addrForm j.desc.inAddr == 1 && j.desc.inLen != 0
  { j with
    haveIn := j.desc.inLen == 0 || ddr || j.remote.isSome || j.dev || (j.passes != 0 && j.fixed == 0)
    havePar := paramLen j.entry j.desc == 0 || j.remote.isSome || j.dev
    haveObj := !(pk || ddr) }

/-- An invocation of the sealing key, taken at grant: the job keeps the counter its nonce uses, and within 512 of the ceiling the next is to be
committed (R209, R245). -/
def Block.takeSeal (b : Block) (j : Job) : Block :=
  if j.entry.customer ∨ (j.op ≠ 0x1030 ∧ j.op ≠ 0x1031) then b else
  let n := (b.slice j.slice).sealCtr
  let b := (b.modJob j.id (fun x => { x with oneTime := n })).modSlice j.slice (fun x => { x with sealCtr := n + 1 })
  if (b.slice j.slice).sealCeil ≤ n + 513 ∧ !b.kst.lag.contains (.slice j.slice) then b.change (.slice j.slice) else b

/-- May a job's use raise the count? An open leaves the uses below the limit of R70 to the seals already admitted, so that no two share an IV. -/
def Key.countsUp (k : Key) (op : Nat) : Bool :=
  decide (k.useCount.toNat + (if op = 0x0D41 ∨ op = 0x0D51 then k.reserved - 1 else 0) < k.useTop)

/-- Consume the uses a job had reserved (R242, R51, R72): a stateful key gives its next index; within 512 of its ceiling a key's next
ceiling is to be committed (R245). -/
def Block.consumeUses (b : Block) (j : Job) : Block :=
  let b := match b.key j.desc.handle with
    | some k => if j.useHeld then b.modJob j.id (fun x => { x with
        oneTime := (match k.stateful with | some t => t.u | none => k.useCount.toNat) }) else b
    | none => b
  let b := j.usedKeys.foldl (fun (b : Block) (h : W32) =>
    let b := b.modKey h (fun k => { k with
      reserved := k.reserved - 1, lease := k.lease - 1, useCount := if k.countsUp j.op then k.useCount + 1 else k.useCount,
      stateful := k.stateful.map (fun t => { t with u := t.u + 1 }) })
    match b.key h with
    | some k => if !k.expire && decide (k.ceiling ≤ k.useCount.toNat + 512) then b.change (.key h) else b
    | none => b) b
  (b.modJob j.id (fun x => { x with useHeld := false })).takeSeal j

/-- Start a job as planned: its entry reserved, its wait counted, its wales seated, its first transfer begun. -/
def Block.startJob (b : Block) (j : Job) (p : Plan) : Block :=
  let resume := j.phase == .spilled
  let cold := p.seats.any (fun x => (b.wale x.wale).st == .gated && !(b.wale x.wale).waking)
  let parts := (p.seats.filter (·.lead)).length
  let coop := decide (1 < p.width) && !resume
  let b := { b with dsp := { b.dsp with
    grants := b.dsp.grants.add (max 1 parts),
    coldGrants := if cold then b.dsp.coldGrants.add 1 else b.dsp.coldGrants,
    trJobs := if p.timeRed && !resume then b.dsp.trJobs.add 1 else b.dsp.trJobs,
    coopPairs := if coop then b.dsp.coopPairs.add p.width else b.dsp.coopPairs,
    coopJobs := if coop then b.dsp.coopJobs.add 1 else b.dsp.coopJobs,
    reserved := b.dsp.reserved.filter (fun r => r.2 != j.id) } }
  let b := b.countWait j
  let b := p.seats.foldl (fun b x => b.seat j resume p.timeRed x) b
  let b := b.consumeUses j
  let seats := (List.finRange 64).filter (fun w => p.seats.any (fun x => x.wale == w.val))
  let head := b.isHead j
  let b := b.modJob j.id (fun j =>
    let j := { j with waited := b.elapsed j.levelAt, passedOver := none }
    if resume then { j with wales := j.wales ++ seats, spare := j.spare - 1 }
    else { j.withNeeds with
      passes := if p.timeRed then 2 * j.passes else j.passes
      ddrNo := if j.op = 0x1030 ∨ j.op = 0x1031 then j.desc.outAddr.toNat % 2 ^ 32 else b.freshObject j.slice
      phase := .loading, wales := seats, width := p.width, timeRed := p.timeRed, quad := p.quad, codePair := p.codePair,
      pages := b.takePages p.quad 0 1792 (roundUp j.entry.qmem 4 / 4), holding := !head, grantedAt := b.now })
  let b := b.modQuad p.quad (fun z => { z with codeHeld := z.codeHeld.mapIdx (fun e o => if p.codePair.any (fun c => e / 2 == c.val) then some j.id else o) })
  let b := b.dryDeficit j.level j.list
  (b.pump j.id).refill

/-- The quadrant an empty footprint uses (R193, R280). -/
def Block.emptyQuad (b : Block) (j : Job) : Nat :=
  if j.entry.draws then
    ((List.range 4).find? (b.servesEmpty j)).getD 0
  else
    let l := (List.range 4).filter (fun q => b.quadAvail q && !b.fenceDue (.quad q))
    match l.find? (fun q => (b.quad q).pllLocked) with
    | some q => q
    | none => (l.head?.orElse (fun _ => (List.range 4).find? b.quadAvail)).getD 0

/-- Start a job that needs no wale; a failed member's grant is counted, its wait ends, and its record is issued (R145). -/
def Block.startEmpty (b : Block) (j : Job) : Block :=
  if j.ended then
    let b := b.countWait j
    let b := { b with dsp := { b.dsp with grants := b.dsp.grants.add 1 } }
    let b := b.modJob j.id (fun x => { x with phase := .waiting, holding := !b.isHead j })
    (b.dryDeficit j.level j.list).finish j.id
  else b.startJob j { quad := b.emptyQuad j, seats := [] }

/-- The status of a job that leaves when it reaches the head of its ready list: a customer job whose opcode is no longer registered (R130), a
job whose key has been deleted (R251). -/
def Block.withdrawn (b : Block) (j : Job) : Option W16 :=
  if j.phase != .ready || j.ended then none
  else if !b.registered j then some St.badOpcode else if !b.keyThere j then some St.keyNotFound else none

/-- The withdrawn jobs that have reached the heads of their lists leave them. -/
def Block.dropWithdrawn (b : Block) : Block :=
  (b.jobs.filter (fun j => ((b.listAt j.level j.list).takeWhile (fun x => (b.withdrawn x).isSome)).any (fun x => x.id == j.id))).foldl
    (fun (b : Block) (j : Job) => match b.withdrawn j with
      | some st => b.failJob j.id st 0
      | none => b) b

/-- The reserved job of a quadrant, while it still waits (R139). -/
def Block.reservedJob (b : Block) (q : Nat) : Option Job :=
  ((b.dsp.reserved.find? (fun r => r.1 == q)).bind (fun r => b.job r.2)).filter (fun j => j.listed && !j.ended)

/-- The jobs a decision examined: the first eight of every list from level `lo` on, but those below the job chosen (R136, R137, log 116). -/
def Block.examined (b : Block) (lo : Nat) (g : Option Job) : List Job :=
  b.jobs.filter (fun j => j.listed && decide (lo ≤ j.level.val) && ((b.listAt j.level j.list).take 8).any (fun x => x.id == j.id) &&
    match g with
    | none => true
    | some g => decide (g.level < j.level) || (g.level == j.level &&
        (j.list != g.list || ((b.listAt g.level g.list).takeWhile (fun x => x.id != g.id)).any (fun x => x.id == j.id))))

/-- What a decision leaves of the jobs it examined and did not grant: one withheld only for want of a holding entry is counted (R144); one that
only a partner, code engines or shared memory kept from a wale has been passed over (R139). -/
def Block.passedBy (b : Block) (l : List Job) (fit rest : Job → Bool) : Block :=
  let b := if l.any (fun j => b.entryLacks j && fit { j with holding := true })
    then { b with dsp := { b.dsp with holdStalls := b.dsp.holdStalls.add 1 } } else b
  { b with jobs := b.jobs.map (fun (j : Job) =>
      if j.passedOver.isNone && l.any (fun x => x.id == j.id) && rest j && !fit j then { j with passedOver := some b.now } else j) }

/-- DDR5 pages that the granted jobs of a slice will add to its objects (R217). -/
def Block.ddrDue (b : Block) (s : SliceId) : Nat := (b.jobs.filter (fun j => j.granted && j.inSlice s)).foldl (fun a j => a + j.ddrNeed) 0

/-- Give a job to a wale; a new DDR5 object beyond the slice's free reservation fails it at grant (R217). -/
def Block.give (b : Block) (w : Nat) (id : Nat) : Block :=
  match b.job id with
  | none => b
  | some j =>
    if j.phase = .ready ∧ j.ddrNeed ≠ 0 ∧ (b.slice j.slice).quota.ddr5 * 256 < b.ddrOf j.slice + b.ddrDue j.slice + j.ddrNeed
    then b.failJob id St.quota 5 else
    match b.plan j w with
    | some p => b.startJob j p
    | none => b

/-- May wale w be granted a job: in WAIT_WORK, not fenced, not being retuned or measured, its quadrant's clock running, and neither limit of
R360 in force? -/
def Block.asks (b : Block) (w : WaleId) : Bool :=
  b.dispatches && b.freeWale w && !b.tuning w && (b.wale w).st == .warm && (b.quad (w.val / 16)).pllLocked &&
  !(b.quad (w.val / 16)).hold && !b.pwr.ioutHold

/-- The dispatcher's answer to a request of a wale (R137). A reserved job goes before a quiescing slice's spilled job of its level (log 171). -/
def Block.grantWale (b : Block) (w : WaleId) : Block :=
  if !b.asks w then b else
  let b := b.dropWithdrawn
  let fit (j : Job) : Bool := (b.plan j w).isSome
  let r := b.reservedJob (w.val / 16)
  match r.filter fit with
  | some r => b.give w r.id
  | none =>
    let lo := (r.map (fun r => r.level.val + 1)).getD 0
    let (b', id) := Block.serveFrom fit lo 8 b
    let b' := b'.passedBy (b.examined lo (id.bind b.job)) fit (fun j => b.fitsElse j w)
    match id with
    | some id => b'.give w id
    | none => b'

/-- The dispatcher starts a job that needs no wale. -/
def Block.grantEmpty (b : Block) : Block :=
  if !b.dispatches || b.pwr.ioutHold then b else
  let b := b.dropWithdrawn
  let (b', id) := Block.serveFrom b.startsEmpty 0 8 b
  let b' := b'.passedBy (b.examined 0 (id.bind b.job)) b.startsEmpty (fun _ => false)
  match id.bind b'.job with
  | some j => b'.startEmpty j
  | none => b'

/-- GRANT. -/
def execGrant (w : Option WaleId) (s : State) : Host.Outcome State Fault Refusal :=
  done (match w with
    | some w => s.toBlock.grantWale w
    | none => s.toBlock.grantEmpty) s

/-! ### Promotion, reservation, preemption -/

/-- PROMOTION: a full period at a level, below the slice's ceiling (R134). -/
def execPromotion (id : Nat) (s : State) : Host.Outcome State Fault Refusal :=
  let b := s.toBlock
  done (match b.job id with
    | none => b
    | some j =>
      let b' := b.advanceTo j.levelAt b.promoteNs
      if !j.listed || b.promoteNs == 0 || !decide (j.level < (b.slice j.slice).ceiling) then b
      else
        let lvl : Fin 8 := j.level + 1
        let b' := b'.dryDeficit lvl j.list
        let b' := b'.modJob id (fun j => { j with level := lvl, levelAt := b'.now })
        { b' with dsp := { b'.dsp with promotions := b'.dsp.promotions.add 1 } }.dryDeficit j.level j.list) s

/-- How much of what a job misses is free in a quadrant: code engines, shared memory in KiB or wales (R139), compared
across quadrants as the numbers they are (log 174). -/
def Block.missingFree (b : Block) (j : Job) (q : Nat) : Nat :=
  if j.entry.codePairs ≠ 0 ∧ b.freePair q = none then
    ((List.range 4).filter (fun e => b.codeAvail (4 * q + e) && !b.jobs.any (fun x => x.granted && x.quad == q && x.codePair.any (fun p => decide (p.val = e / 2))))).length
  else if 7168 < b.sharedUsed q + j.entry.qmem then 7168 - b.sharedUsed q
  else ((List.range 16).filter (fun k => b.freeWale (16 * q + k))).length

/-- Does some wale fit a job now? -/
def Block.anyFit (b : Block) (j : Job) : Bool := (List.finRange 64).any (fun w => b.asks w && (b.plan j w).isSome)

/-- RESERVATION: a job passed over for RESERVE for want of a partner, code engines or shared memory becomes the reserved job of the
quadrant with most of the missing resource free, ties to the lower number (R139); a spilled job only of its own quadrant. -/
def execReservation (id : Nat) (s : State) : Host.Outcome State Fault Refusal :=
  let b := s.toBlock
  done (match b.job id with
    | none => b
    | some j =>
      let qs := (List.range 4).filter (fun q => b.quadAvail q && (b.reservedJob q).isNone && (j.phase != .spilled || q == j.quad) &&
        (j.phase == .spilled || (!b.fenceDue (.quad q) && (!j.entry.draws || b.delivers q))))
      if !j.listed ∨ j.ended ∨ j.entry.wales = 0 ∨ b.anyFit j ∨ !(List.range 64).any (b.fitsElse j) ∨
         (List.range 4).any (fun q => (b.reservedJob q).any (fun r => r.id == id)) then b
      else match j.passedOver, qs with
        | some t, q0 :: r =>
          let q := r.foldl (fun a q => if b.missingFree j a < b.missingFree j q then q else a) q0
          let b := b.advanceTo t b.reserveNs
          { b with dsp := { b.dsp with reserved := Tab.put b.dsp.reserved q id } }
        | _, _ => b) s

/-- Is a preemption in progress in a quadrant? -/
def Block.preempting (b : Block) (q : Nat) : Bool :=
  (List.range 16).any (fun k => (b.wale (16 * q + k)).trapWanted || ((b.wale (16 * q + k)).st == .spilling &&
    !(b.quad q).spills.any (fun x => (b.wale (16 * q + k)).job == some x.job && (b.wale (16 * q + k)).part == x.part &&
      (b.wale (16 * q + k)).lead == x.lead)))

/-- The wales that run one part of a job. -/
def Block.partWales (b : Block) (id part : Nat) : List WaleId :=
  (List.finRange 64).filter (fun w => (b.wale w).job == some id && (b.wale w).part == part)

/-- Is the part that wale w leads a victim for job J (R151, conditions 2 to 5)? -/
def Block.victim (b : Block) (j : Job) (w : WaleId) : Option Job :=
  let x := b.wale w
  match x.job.bind b.job with
  | none => none
  | some v =>
    let ws := b.partWales v.id x.part
    let q := w.val / 16
    let room := (b.quad q).spills.foldl (fun a y => a + 4096 * y.pages.length) 0
    let free := (ws.foldl (fun (b : Block) (i : WaleId) => b.modWale i (fun y => { y with st := .warm, job := none })) b).modJob v.id
      (fun z => { z with wales := z.wales.filter (fun i => !ws.contains i) })
    if x.st == .running && x.lead && (v.phase == .running || v.phase == .spilled) && x.micro.released.isNone && v.entry.preemptible && v.codePair.isNone &&
       decide (v.level.val + b.preemptDelta ≤ j.level.val) && !b.preempting q && decide (10000 ≤ b.elapsed x.grantedAt) &&
       decide (ws.foldl (fun (a : Nat) (i : WaleId) => a + roundUp ((b.wale i).touched + 8192) 4096) room ≤ 1048576) &&
       free.freeWale w && !free.tuning w && (free.plan j w).any (fun p => decide (min 2 p.seats.length ≤ ws.length))
    then some v else none

/-- PREEMPTION: the lowest level, then the fewest touched bytes, a pair's being its lead's (log 170), then the lower wale index is asked to trap
(R151). -/
def execPreemption (id : Nat) (s : State) : Host.Outcome State Fault Refusal :=
  let b := s.toBlock
  done (match b.job id with
    | none => b
    | some j =>
      if !j.listed || j.ended || j.entry.wales == 0 || b.preemptDelta == 0 || b.anyFit j || !b.dispatches then b else
      let b := b.advanceTo j.readySince b.preemptNs
      let key (w : WaleId) : Nat × Nat := (((b.victim j w).map (·.level.val)).getD 8, (b.wale w).touched)
      let better (a c : WaleId) : Bool := decide ((key c).1 < (key a).1) || ((key c).1 == (key a).1 && decide ((key c).2 < (key a).2))
      match (List.finRange 64).filter (fun w => (b.victim j w).isSome) with
      | [] => b
      | w :: r =>
        let w := r.foldl (fun a c => if better a c then c else a) w
        { b with dsp := { b.dsp with preempts := b.dsp.preempts.add 1 } }.modWale w (fun x => { x with trapWanted := true })) s

/-- The wale clock of a quadrant in kHz: its bin's, or the network output while it is derated (Table 15.1, R349). -/
def Block.waleKhz (b : Block) (q : Nat) : Nat := if (b.quad q).onNet then 1200000 else 1600000 - 100000 * (b.quad q).bin.val
/-- Wale cycles a wale has run since `runAt` (R122). -/
def Block.cyclesRun (b : Block) (w : WaleId) : Nat := (b.wale w).micro.cycles + b.elapsed (b.wale w).runAt * b.waleKhz (w.val / 16) / 1000000

/-- MICRO_TRAP: at a microword boundary, but not from RELEASE on, the wale enters state 5; the lead chooses the microword and its partner traps
at the same one (R123, R102). -/
def execMicroTrap (w : WaleId) (s : State) : Host.Outcome State Fault Refusal :=
  let b := s.toBlock
  let x := b.wale w
  done (match x.job.bind b.job with
    | none => b
    | some j =>
      if !x.trapWanted || x.st != .running || x.micro.field != 0 || x.micro.released.isSome || x.micro.presented.isSome ||
         !(j.phase == .running || j.phase == .spilled) || x.trapAt.any (fun n => n != x.micro.count) then b else
      let b := b.modWale w (fun y => { y with st := .spilling, trapWanted := false, trapAt := none,
                                              micro := { y.micro with cycles := b.cyclesRun w } })
      let b := if x.lead && x.paired then b.modWale (w.val / 16 * 16 + x.partner) (fun y => { y with trapWanted := true, trapAt := some x.micro.count })
        else b
      b.modJob j.id (fun j => { j with phase := .spilled })) s

/-- The byte position within the current block or rate (Table 5.11). -/
def HashEng.position (h : HashEng) : Nat := (if h.padded then h.out else h.data.length) % h.rate

/-- The trap frame of a wale (Table 5.11). Its hash shares and its big-number engine hold what their engines' standards give (log 2). -/
def Wale.frame (x : Wale) : Bytes :=
  let m := x.micro
  let img (o : Obj) : Nat := o.len % 2 ^ 20 + o.base * x.slotBytes % 2 ^ 20 * 2 ^ 20 + b1 (x.objS o) * 2 ^ 40 + b1 o.valid * 2 ^ 41
  le 2 m.pc.toNat ++ le 1 m.stack.length ++
  le 1 (x.order.toNat + 4 * x.rclass.toNat + 16 * b1 x.lead + 32 * b1 x.timeRed + 64 * b1 x.second + 128 * b1 m.customer) ++
  le 2 m.f.toNat ++ le 2 m.fTaint.toNat ++ le 2 m.gTaint.toNat ++ zeros 2 ++ le 4 m.decisions.length ++
  algBytes .shakeStream 128 [m.decisions.map (fun d => BitVec.ofNat 8 (b1 d))] 32 ++
  fit 16 (m.stack.reverse.flatMap (fun a => le 2 a.toNat)) ++ m.l.toList.flatMap (fun v => le 2 v.toNat) ++ le 8 m.cycles ++ zeros 48 ++
  m.g.toList.flatMap (fun v => le 8 v.toNat) ++ m.o.toList.flatMap (fun o => le 8 (img o)) ++
  m.hash.toList.flatMap (fun h => algBytes .trapState h.mode [h.data, le 8 x.drbgOut] 600) ++
  m.hash.toList.flatMap (fun h => le 8 (h.mode + 32 * b1 h.padded + h.position * 2 ^ 8 + h.data.length % 2 ^ 40 * 2 ^ 24)) ++
  algBytes .trapState 256 [le 2 m.pc.toNat] 4096 ++ zeros 1280

/-- Store a wale's frame and its touched slots in pages of the spill region; a page is S that holds the frame or a part of an S slot (R102,
R124). -/
def Block.storeSpill (b : Block) (w : WaleId) (pages : List Nat) : Block :=
  let x := b.wale w
  b.modQuad (w.val / 16) (fun z =>
    (pages.drop 2).zipIdx.foldl (fun (z : Quad) (p : Nat × Nat) =>
      z.fill ((List.range x.slots).any (fun i => x.slotS i && decide (i * x.slotBytes < 4096 * (p.2 + 1)) && decide (4096 * p.2 < (i + 1) * x.slotBytes)))
        [p.1] (x.opmem.readAll (4096 * p.2) 4096)) (z.fill true (pages.take 2) x.frame))

/-- SPILL_END: the slots, their tags and the trap frame are in the spill region and the wale wipes; with the last wale of the part the
job is back at the head of its list, its promotion age kept (R102, R124, R152). -/
def execSpillEnd (w : WaleId) (s : State) : Host.Outcome State Fault Refusal :=
  let b := s.toBlock
  let x := b.wale w
  let q := w.val / 16
  done (match x.job with
    | none => b
    | some id =>
      if x.st != .spilling || (b.quad q).spills.any (fun y => y.job == id && y.part == x.part && y.lead == x.lead) then b else
      let pages := b.takePages q 1792 2048 (roundUp (x.touched + 8192) 4096 / 4096)
      let b := (b.storeSpill w pages).modQuad q (fun y => { y with spills := y.spills ++
        [⟨id, x.part, w.val, x.lead, x.micro, x.opmem, x.sTags, x.slotLen, x.touched, x.timeRed, x.second, pages⟩] })
      let whole := (b.partWales id x.part).all (· == w)
      let b := b.modWale w Wale.startWipe
      b.modJob id (fun j =>
        let j := { j with wales := j.wales.filter (· != w) }
        if !whole then j
        else if j.spare ≠ 0 then { j with spare := j.spare + 1 }
        else { j with spare := 1, readySince := b.now, levelAt := b.now - BitVec.ofNat 64 j.waited })) s

/-- Place an object's bytes and tags afresh under a new slot length (R77, R125). -/
def replaceObj (y : Spill) (len2 : BitVec 2) (o : Obj) (base : Nat) (acc : Mem × List Nat) : (Mem × List Nat) × Obj :=
  let old := 512 * 2 ^ y.slotLen.toNat
  let new := 512 * 2 ^ len2.toNat
  let held := min o.len (o.span * old)
  let span := roundUp held new / new
  let d := y.objects.readAll (o.base * old) held
  let tagged := (List.range o.span).any (fun i => y.sTags.contains (o.base + i))
  ((acc.1.writeAll (base * new) d, if tagged then addTags acc.2 ((List.range span).map (base + ·)) else acc.2),
   { o with base := base, span := span })

/-- Place every valid object of a spilled image in order. -/
def replaceAll (y : Spill) (len2 : BitVec 2) : List Obj → Nat → Mem × List Nat → (Mem × List Nat) × List Obj
  | [], _, acc => (acc, [])
  | o :: r, base, acc =>
    if o.valid then
      let (acc, o') := replaceObj y len2 o base acc
      let (acc, l) := replaceAll y len2 r (base + o'.span) acc
      (acc, o' :: l)
    else
      let (acc, l) := replaceAll y len2 r base acc
      (acc, o :: l)

/-- RESTORE_END: the copy back into a wale ends, every S object and hash state is masked afresh from the wale's own DRBG (two shares of each, log
11), its spill pages are wiped, and the saved microword issues; the job runs again when all its parts do (R125). -/
def execRestoreEnd (w : WaleId) (s : State) : Host.Outcome State Fault Refusal :=
  let b := s.toBlock
  let x := b.wale w
  let q := w.val / 16
  done (match x.job with
    | none => b
    | some id =>
      match (b.quad q).spills.find? (fun y => y.job == id && y.part == x.part && y.lead == x.lead) with
      | none => b
      | some y =>
        if x.st != .spilling then b else
        let ((m, t), os) := replaceAll y x.slotLen y.micro.o.toList 0 ([], [])
        let o : Vector Obj 16 := Vector.ofFn (fun i => os[i.val]?.getD {})
        let b := b.modQuad q (fun z => { z.wipePages y.pages with
          spills := z.spills.filter (fun k => !(k.job == id && k.part == x.part && k.lead == x.lead)) })
        let b := b.modWale w (fun z => { z with
          st := .running, micro := { y.micro with o := o }, opmem := m, sTags := t, timeRed := y.timeRed, second := y.second,
          grantedAt := b.now, runAt := b.now, drbgOut := z.drbgOut + 2 * (512 * 2 ^ z.slotLen.toNat * t.length + 200 * (y.micro.hash.toList.filter (fun h => h.mode != 0)).length) })
        let b := (match b.job id with
          | some j => if j.fixed < j.desc.inLen then b.modWale w (fun z => z.window j.fixed 0 (windowBytes (j.input.drop j.fixed))) else b
          | none => b).settleSlots q
        if (b.quad q).spills.any (fun k => k.job == id) || (List.range 64).any (fun i => (b.wale i).job == some id && (b.wale i).st == .spilling) then b
        else (b.modJob id (fun j => { j with phase := .running })).pump id) s

/-! ### Wipes, wakes and sleeps -/

/-- A wale that is idle again: its status fields clear (log 148), its pending slot length takes effect, and it takes state 6 if fenced (R76). -/
def Block.idleWale (b : Block) (w : Nat) : Block :=
  let b := b.modWale w (fun x => { x with
    st := .warm, waking := false, paired := false, lead := false, partner := 0, levelOn := false, order := 0, rclass := 0, timeRed := false,
    runSlice := none, touched := 0, idleSince := b.now })
  ((b.settleSlots (w / 16)).settleFence w).loadLate w

/-- A wale has zeroed its slots and read them back. A word that reads non-zero fences and power-gates it (R98, R99). -/
def Block.wipeEnd (b : Block) (w : WaleId) (readsZero : Bool) : Block :=
    let x := b.wale w
    if x.st ≠ .wiping then b else
    let b := match x.runSlice with
      | some sl => b.modSlice sl (fun z => { z with ctr := { z.ctr with run := z.ctr.run.add (b.elapsed x.runFrom) } })
      | none => b
    let b := b.idleWale w
    let b := if readsZero then b
      else (b.modWale w (fun y => { y with drbgSeeded := false })).note (Src.waleUnit w 8) 0x06 1 (openDetail 0x06)
    b.startRuns.refill

/-- A woken wale with a job takes its part in it. -/
def Block.wokenJob (b : Block) (w : WaleId) : Block :=
  match (b.wale w).job with
  | none => b
  | some id =>
    if (b.quad (w.val / 16)).spills.any (fun y => y.job == id && y.part == (b.wale w).part)
    then b.modWale w (fun x => { x with st := .spilling }) else b.pump id

/-- WALE_WAKE_END: the wale reaches state 2; from state 0 its DRBG is reseeded and its operand memory reads zero (R153, R276). -/
def execWaleWakeEnd (w : WaleId) (s : State) : Host.Outcome State Fault Refusal :=
  let b := s.toBlock
  let x := b.wale w
  let q := w.val / 16
  done (
    if !x.waking || !(b.quad q).pllLocked || (x.st ≠ .gated ∧ x.st ≠ .clockGated) then b else
    let seed := x.st == .gated && b.delivers q
    let b := b.modWale w (fun y => { y with
      st := .warm, waking := false, idleSince := b.now, opmem := [], sTags := [],
      drbgSeeded := if y.st == .gated then seed else y.drbgSeeded,
      drbgLog := if seed then 6 else y.drbgLog, drbgWant := if seed then false else y.drbgWant, drbgUrgent := if seed then false else y.drbgUrgent,
      drbgSent := if seed then false else y.drbgSent })
    let b := if seed then (b.serveRanks q).seedDraw q 48 else b
    b.wokenJob w) s

/-- The idle wales of a quadrant in state 2 in the order they fall beyond the pool: those idle longest first, ties to the higher
index (R153). -/
def Block.beyond (b : Block) (w : WaleId) : Bool :=
  let q := w.val / 16
  let idle := ((List.range 16).map (16 * q + ·)).filter (fun i => b.freeWale i && (b.wale i).st == .warm)
  let ahead := idle.filter (fun i => i != w.val &&
    (decide (b.elapsed (b.wale i).idleSince < b.elapsed (b.wale w).idleSince) ||
     ((b.wale i).idleSince == (b.wale w).idleSince && decide (i < w.val))))
  decide (b.poolOf (quadOf w) ≤ ahead.length)

/-- GATE_DELAY (R153). -/
def execGateDelay (w : WaleId) (s : State) : Host.Outcome State Fault Refusal :=
  let b := s.toBlock
  let x := b.wale w
  done (
    if x.st ≠ .warm ∨ !b.freeWale w ∨ !b.beyond w then b else
    let b := b.advanceTo x.idleSince (b.gateNs (quadOf w))
    b.modWale w (fun y => { y with st := .clockGated, idleSince := b.now })) s

/-- COLD_DELAY: state 0 loses the wale DRBG and the operand memory; a seeded wale stays while its seeder does not deliver (R153, R276). -/
def execColdDelay (w : WaleId) (s : State) : Host.Outcome State Fault Refusal :=
  let b := s.toBlock
  let x := b.wale w
  let q := w.val / 16
  done (
    if x.st ≠ .clockGated ∨ !b.freeWale w ∨ x.waking ∨
       (x.drbgSeeded ∧ ((b.seeder q).st = .paused ∨ (b.seeder q).st = .stopped)) then b else
    let b := b.advanceTo x.idleSince (b.coldNs (quadOf w))
    (b.modWale w (fun y => { y with st := .gated, drbgSeeded := false, opmem := [], sTags := [], idleSince := b.now })).touchQuiet q) s

/-! ### PLLs (R349 to R351) -/

/-- Is a quadrant quiet in the sense of R351? -/
def Block.quiet (b : Block) (q : QuadId) : Bool :=
  b.poolOf q == 0 &&
  (List.range 16).all (fun k => let w := b.wale (16 * q + k); (w.st == .gated || w.st == .fenced) && !w.waking) &&
  (List.range 8).all (fun c => (b.chan (8 * q + c)).xfer.isNone) &&
  (b.quad q).spills.isEmpty && (b.reservedJob q).isNone &&
  !b.jobs.any (fun j => j.granted && j.quad == q.val && (j.entry.wales != 0 || j.dmaOpen != 0 || j.phase == .loading || j.phase == .output))

/-- PLL_STOP. -/
def execPllStop (q : QuadId) (s : State) : Host.Outcome State Fault Refusal :=
  let b := s.toBlock
  done (
    if !(b.quad q).pllRun || !b.quiet q then b else
    let b := b.advanceTo (b.quad q).quietSince (bits b.pwr.cfg.toNat 31 24 * 1000000)
    b.modQuad q (fun z => { z with pllRun := false, pllLocked := false })) s

/-- Fail the granted jobs of a quadrant. -/
def Block.failQuad (b : Block) (q : Nat) (st : W16) (d : W32) : Block :=
  Block.failJobs (b.jobsWhere (fun j => j.granted && j.quad == q && j.phase != .spilled)) st d b

/-- PLL_LOCK_LOSS: an F1 note fences the quadrant, its running jobs fail with UNIT_FAULT 0x701, and its spilled jobs end under R317. -/
def execPllLockLoss (q : QuadId) (s : State) : Host.Outcome State Fault Refusal :=
  let b := s.toBlock
  done (
    if !(b.quad q).pllLocked then b else
    let b := b.modQuad q (fun z => { z with pllLocked := false, pllRun := false })
    let b := b.failQuad q St.unitFault 0x701
    b.note (Src.quadUnit q 3) 0x12 1 0x701) s

/-! ### The compare and the leveller -/

/-- The wales that disagree each raise a redundancy note, and their job ends (R93 to R96). -/
def Block.redundancy (b : Block) (j : Job) (ws : List WaleId) (d : W32) : Block :=
  let b := ws.foldl (fun (b : Block) (w : WaleId) =>
    b.raise { source := Src.waleUnit w 6, kind := 0x05, cls := 2, detail := d, job := some j.id }) b
  b.failJob j.id St.redundancyMismatch d

/-- COMPARE_END of a part: once every part has matched the result is released; a mismatch of any ends the job, so that the earliest one gives
its status (R48, R93, R95, R96). A job of one wale or none has no second wale to name. -/
def execCompareEnd (id : Nat) (v : PartVerdict) (s : State) : Host.Outcome State Fault Refusal :=
  let b := s.toBlock
  done (match b.job id with
    | none => b
    | some j =>
      if j.phase ≠ .comparing ∨ j.ended ∨ j.width ≤ v.part then b
      else if v.agree then
        let b := b.modJob id (fun j => { j with passedParts := insertNat v.part j.passedParts })
        if (List.range j.width).all (fun p => p == v.part || j.passedParts.contains p) then b.passed id else b
      else b.redundancy j (j.wales.filter (fun w => (b.wale w).part == v.part)) (if j.entry.cls.val = 1 then 4 else if j.timeRed then 3 else 1)) s

/-- The cycle limit of an entry: a customer entry's in units of 1,024 cycles (Table 5.13), a maker entry's open (log 117). -/
def Entry.cycleLimit (e : Entry) : Nat := if e.customer then 1024 * e.limit else Config.freeNat 46 e.opcode.toNat

/-- CYCLE_LIMIT: the time a running wale has left of its job's cycles is over (R122). -/
def execCycleLimit (w : WaleId) (s : State) : Host.Outcome State Fault Refusal :=
  let b := s.toBlock
  let x := b.wale w
  done (match x.job.bind b.job with
    | some j =>
      if x.st ≠ .running then b else
      (b.advanceTo x.runAt ((j.entry.cycleLimit - x.micro.cycles) * 1000000 / b.waleKhz (w.val / 16) + 1)).machineCheck w 0x10F
    | none => b) s

/-- LEVELLER_OUT_OF_BAND: 64 consecutive cycles outside the band (R97). -/
def execLevellerOutOfBand (w : WaleId) (s : State) : Host.Outcome State Fault Refusal :=
  let b := s.toBlock
  let x := b.wale w
  done (if !x.levelOn then b else
    let b := b.raise { source := Src.waleUnit w 5, kind := 0x07, cls := 2, detail := 0x401, job := x.job }
    match x.job with
    | some id => b.failJob id St.unitFault 0x401
    | none => b) s

/-! ### The crossbar (R155 to R159) -/

/-- The source number of a requester of a quadrant (Table 6.4). -/
def requesterSource (q : QuadId) (r : Fin 26) : W16 :=
  if r.val < 16 then Src.waleUnit (16 * q + r) 0
  else if r.val < 20 then Src.codeEngine q (r - 16)
  else if r.val < 25 then Src.group q (r - 20)
  else Src.quadUnit q 5

/-- The jobs a requester serves: a wale's, the one on a code engine's pair, those whose transfers a data group's channels move, and for group 4
those whose gather lists are walked (Table 8.1; an ungranted job's list on the quadrant it stands at, log 118). -/
def Block.serving (b : Block) (q : QuadId) (r : Fin 26) : List Job :=
  let ids := if r.val < 16 then (b.wale (16 * q + r)).job.toList
    else if r.val < 20 then b.jobsWhere (fun j => j.granted && j.quad == q.val && j.codePair.any (fun p => decide (p.val = (r.val - 16) / 2)))
    else if r.val < 24 then (((List.range 8).map (8 * q.val + ·)).filter (fun c => (b.chan c).xfer.any (fun x => x.group.val + 20 == r.val))).filterMap (fun c => (b.chan c).xfer.map (·.job))
    else if r.val = 24 then b.jobsWhere (fun j => j.phase == .walking && j.quad == q.val)
    else []
  ids.filterMap b.job

/-- A lock fault: an F1 note that fences the requester, and UNIT_FAULT for the job it served, its output withheld or cut short (R158,
R159). -/
def Block.lockFault (b : Block) (q : QuadId) (r : Fin 26) (d : W32) : Block :=
  let j := (b.serving q r).head?.map (·.id)
  let b := b.modQuad q (fun z => { z with
    lockTo := z.lockTo.add 1, lockAsks := z.lockAsks.filter (fun a => a.owner != r), locks := z.locks.filter (fun l => l.2.owner != r) })
  let b := b.raise { source := requesterSource q r, kind := 0x08, cls := 1, detail := d, job := j }
  match j with
  | some id => b.failNow id St.unitFault d
  | none => b

/-- The targets a requester has locked or asks to lock. -/
def Block.lockTargets (b : Block) (q : QuadId) (r : Fin 26) : List Nat :=
  ((b.quad q).locks.filter (fun l => l.2.owner == r)).map (·.1) ++ ((b.quad q).lockAsks.filter (fun a => a.owner == r)).map (·.target)

/-- Ask for a lock: at most two, the second above the first, and only the DMA groups and the Rim port take two (R158). One that keeps the order
waits for the arbiter's round; one that breaks it fails at once. -/
def Block.askLock (b : Block) (q : QuadId) (r : Fin 26) (t : Fin 52) (beats : Nat) : Block :=
  let l := b.lockTargets q r
  if decide ((if r.val < 20 then 1 else 2) ≤ l.length) || l.any (fun x => decide (t.val ≤ x)) then b.lockFault q r 0x602
  else if beats == 0 || decide (64 < beats) then b
  else b.modQuad q (fun z => { z with lockAsks := z.lockAsks ++ [⟨r, t, beats⟩] })

/-- LOCK_REQUEST. -/
def execLockRequest (q : QuadId) (r : Fin 26) (t : Fin 52) (beats : Nat) (s : State) : Host.Outcome State Fault Refusal :=
  done (s.toBlock.askLock q r t beats) s

/-- LOCK_TIMEOUT: a lock held for more than 512 network cycles, 427 ns, ends and its owner is fenced (R159). -/
def execLockTimeout (q : QuadId) (t : Fin 52) (s : State) : Host.Outcome State Fault Refusal :=
  let b := s.toBlock
  done (match (b.quad q).locks.find? (fun l => l.1 == t.val) with
    | none => b
    | some (_, l) => (b.advanceTo l.since 427).lockFault q l.owner 0x601) s

/-- The priority part of a requester's rank: the level of its job, the highest of a DMA group's, 3 for the Rim port (R155, R157). -/
def Block.prioOf (b : Block) (q : QuadId) (r : Fin 26) : Nat :=
  if r.val = 25 then 3 else (b.serving q r).foldl (fun a j => max a j.level.val) 0

/-- The rank of a requester at a target: priority and age, or 23 where it asks for a lock while it holds its first (R155, R158). -/
def Block.rank (b : Block) (q : QuadId) (t : Fin 52) (x : ArbReq) : Nat :=
  if x.lock.isSome && (b.quad q).locks.any (fun l => l.2.owner == x.req) then 23
  else b.prioOf q x.req + (Tab.get 0 (b.quad q).ages (t.val * 26 + x.req.val)).val

/-- The requests a round decides among: the ordinary ones, and the locks asked for at the target by requesters that ask for none below it (R158,
R156). -/
def Block.contenders (b : Block) (q : QuadId) (t : Fin 52) (reqs : List ArbReq) : List ArbReq :=
  reqs.filter (fun x => x.lock.isNone) ++
  (((b.quad q).lockAsks.filter (fun a => a.target == t.val && !(b.quad q).lockAsks.any (fun c => c.owner == a.owner && decide (c.target < t.val)))).map
    (fun a => ⟨a.owner, some (Fin.ofNat 65 a.beats), reqs.any (fun x => x.req == a.owner && x.lock.isSome && x.withdrawn)⟩))

/-- One decision of a target's arbiter: the highest rank wins, ties to the lower requester, the losers age, a withdrawn winner's beat passes
empty, and a winner's lock begins (R155 to R157). -/
def Block.decideRound (b : Block) (q : QuadId) (t : Fin 52) (l : List ArbReq) : Block :=
  match l with
  | [] => b
  | x0 :: r =>
    let better (a c : ArbReq) : Bool := decide (b.rank q t a < b.rank q t c) || (b.rank q t a == b.rank q t c && decide (c.req < a.req))
    let win := r.foldl (fun a c => if better a c then c else a) x0
    let losers := l.filter (fun x => x.req != win.req)
    let ages := losers.foldl (fun (g : Tab (Fin 16)) x =>
      let k := t.val * 26 + x.req.val
      Tab.put g k (if (Tab.get 0 g k).val = 15 then 15 else Tab.get 0 g k + 1)) (b.quad q).ages
    let ages := Tab.put ages (t.val * 26 + win.req.val) 0
    let beats := (win.lock.map (·.val)).getD 0
    b.modQuad q (fun z => { z with
      ages := ages, lost := z.lost.add losers.length,
      stale := if win.withdrawn then z.stale.add 1 else z.stale,
      lockCnt := if beats ≠ 0 ∧ !win.withdrawn then z.lockCnt.add 1 else z.lockCnt,
      locks := if beats ≠ 0 ∧ !win.withdrawn then Tab.put z.locks t ⟨win.req, beats, b.now⟩ else z.locks,
      lockAsks := z.lockAsks.filter (fun a => !(a.target == t.val &&
        ((a.owner == win.req && beats != 0) || l.any (fun x => x.req == a.owner && x.lock.isSome && x.withdrawn)))) })

/-- ARBITRATION_ROUND at a target: locks asked for in the round are held to R158; a target held by a lock passes one beat of the sequence, and
during the last one decides for the beat after it; else the round decides at once (R155 to R157). -/
def execArbitrationRound (q : QuadId) (t : Fin 52) (reqs : List ArbReq) (s : State) : Host.Outcome State Fault Refusal :=
  let b := reqs.foldl (fun (b : Block) (x : ArbReq) => match x.lock with
    | some n => if (b.quad q).lockAsks.any (fun a => a.owner == x.req && a.target == t.val) then b else b.askLock q x.req t n
    | none => b) s.toBlock
  done (match (b.quad q).locks.find? (fun l => l.1 == t.val) with
    | some (_, l) =>
      if 1 < l.beats then b.modQuad q (fun z => { z with locks := Tab.put z.locks t { l with beats := l.beats - 1 } })
      else (b.modQuad q (fun z => { z with locks := Tab.drop z.locks t })).decideRound q t (b.contenders q t reqs)
    | none => b.decideRound q t (b.contenders q t reqs)) s

end Sys2Proof.Machine
end

