-- ==== Sys2Proof/Machine/Admission.lean ====
section
/-! DEFINITION. Admission of a descriptor (R37): its checks in their fixed order, what each opcode uses of a descriptor (Tables 2.1,
2.2, 3.1, 10.5, 4.8, 10.17, 11.9), the keys it needs, its lengths, its quotas, and the job it becomes. -/
namespace Sys2Proof.Machine

/-! ### Fields of an opcode -/

/-- RESULT_TO_HANDLE. -/
def Desc.toHandle (d : Desc) : Bool := d.inline.getLsbD 24
/-- DETERMINISTIC. -/
def Desc.deterministic (d : Desc) : Bool := d.inline.getLsbD 3
/-- MASK_ORDER. -/
def Desc.maskOrder (d : Desc) : Nat := bits d.inline.toNat 2 1
/-- PH_ID or HASH_ID. -/
def Desc.hashId (d : Desc) : Nat := bits d.inline.toNat 23 16
/-- RSA_PAD. -/
def Desc.rsaPad (d : Desc) : Nat := bits d.inline.toNat 7 6
/-- FN_PADDED or POINT_COMPRESSED. -/
def Desc.bit4 (d : Desc) : Bool := d.inline.getLsbD 4
/-- PK_RETAIN. -/
def Desc.pkRetain (d : Desc) : Bool := d.inline.getLsbD 5
/-- HANDLE2. -/
def Desc.handle2 (d : Desc) : W32 := (d.inline >>> 32).setWidth 32
/-- The counter number of a key-management opcode (Table 10.5). -/
def Desc.ctrNo (d : Desc) : Nat := bits d.inline.toNat 47 32
/-- CTR_VALID. -/
def Desc.ctrValid (d : Desc) : Bool := d.inline.getLsbD 0

/-- An opcode of the lattice and hash-based range. -/
def latticeFam (op : Nat) : Bool := decide (1 ≤ fam op) && decide (fam op ≤ 6)
/-- An opcode that uses Table 3.1. -/
def classicFam (op : Nat) : Bool := (decide (7 ≤ fam op) && decide (fam op ≤ 0xD)) || fam op == 0x12

/-- A pre-hash opcode of chapter 02. -/
def prehashOp (op : Nat) : Bool := decide (2 ≤ fam op) && decide (fam op ≤ 4) && (opn op == 4 || opn op == 5)
/-- A verify opcode. -/
def verifyOp (op : Nat) : Bool :=
  match fam op with
  | 2 | 3 | 4 => opn op == 3 || opn op == 5 || opn op == 7
  | 5 => op == 0x0520 || op == 0x0530
  | 6 => op == 0x0640 || op == 0x0650
  | 9 => op == 0x0930
  | 0xA => opn op == 3
  | 0xB => opn op == 3 || opn op == 5 || opn op == 7
  | 0x12 => opn op == 4
  | _ => false
/-- An opcode that may take a supplied public key. -/
def supplyOp (op : Nat) : Bool :=
  verifyOp op || ((fam op == 1 || fam op == 7 || fam op == 8) && opn op == 2) || op == 0x0940 || op == 0x0960 || (fam op == 0xA && opn op == 6)
/-- An opcode whose result may go to a handle. -/
def handleOp (op : Nat) : Bool :=
  ((fam op == 1 || fam op == 7 || fam op == 8) && (opn op == 2 || opn op == 3)) || (fam op == 0xA && opn op == 4) ||
  (fam op == 0xB && opn op == 8) || fam op == 0xC || op == 0x0D00 || op == 0x0D10 || op == 0x0D11 || op == 0x0D20
/-- A key-deriving opcode (Table 3.12). -/
def kdfOp (op : Nat) : Bool := op == 0x0C10 || op == 0x0D00 || op == 0x0D11 || op == 0x0D20
/-- An opcode that uses HASH_ID. -/
def hashOp (op : Nat) : Bool :=
  op == 0x0920 || op == 0x0930 || op == 0x0940 || op == 0x0950 || (fam op == 0xA && (opn op == 2 || opn op == 3)) || kdfOp op || op == 0x0D10
/-- An opcode that uses HANDLE2. -/
def handle2Op (op : Nat) : Bool := fam op == 0xC || op == 0x0D30 || op == 0x0D32 || (fam op == 0x12 && opn op == 2)
/-- An EdDSA opcode that takes a context: the plain forms only on Ed448 (the table of chapter 03). -/
def edCtx (op : Nat) : Bool :=
  fam op == 0xB && (((opn op == 2 || opn op == 3) && pset op == 1) || (decide (4 ≤ opn op) && decide (opn op ≤ 7)))
/-- An opcode that takes a context string. -/
def ctxUse (op : Nat) : Bool := if fam op == 0xB then edCtx op else ctxOp op
/-- An opcode that uses DETERMINISTIC. -/
def detOp (op : Nat) : Bool :=
  ((fam op == 2 || fam op == 3 || fam op == 4) && (opn op == 2 || opn op == 4 || (fam op == 2 && opn op == 6))) || (fam op == 0xA && opn op == 2)
/-- An opcode whose inline parameter names a counter (Table 10.5). -/
def ctrOp (op : Nat) : Bool := op == 0x1031 || op == 0x1040 || op == 0x1041 || op == 0x1042

/-! ### Field checks (R9, R30, R56, R87, R131, R246, R280, R415) -/

/-- Reserved fields of a descriptor; the skein field of an Adsor opcode is R232's. -/
def Desc.reservedSet (d : Desc) (adsor : Bool) : Bool :=
  bits d.flags.toNat 7 4 != 0 || (!adsor && bits d.skein.toNat 31 16 != 0) || d.reserved != 0 ||
  bits d.control.toNat 6 0 != 0

/-- Does a descriptor set a field that a lattice or hash-based opcode does not use (R30, 3)? -/
def latticeUnused (e : Entry) (op : Nat) (d : Desc) : Bool :=
  (d.toHandle && !(fam op == 1 && (opn op == 2 || opn op == 3))) || (ctxLen d != 0 && !ctxUse op) ||
  (d.bit4 && !(fam op == 4 && decide (2 ≤ opn op))) || (d.deterministic && !detOp op) || (d.maskOrder != 0 && !maskOp op) ||
  (d.supplied && !supplyOp op) || (d.handle != 0 && !e.takesKey) || (d.parAddr != 0 && !ctxUse op && !templateOp op) ||
  (d.aux != 0 && !verifyOp op)

/-- The same for an opcode of Table 3.1 (R56, 2); a context form of EdDSA with CTX_LEN 0 is among them (log 146). -/
def classicUnused (e : Entry) (op : Nat) (d : Desc) : Bool :=
  (d.handle2 != 0 && !handle2Op op) || (d.toHandle && !handleOp op) || (d.hashId != 0 && !hashOp op) ||
  (ctxLen d != 0 && !edCtx op) || (d.rsaPad != 0 && fam op != 9) || (d.pkRetain && !(fam op == 8 && opn op == 0)) ||
  (d.bit4 && !(fam op == 0xA && opn op == 0)) || (d.deterministic && !detOp op) || (d.supplied && !supplyOp op) ||
  (d.handle != 0 && !e.takesKey) || (d.parAddr != 0 && !e.takesParam) ||
  (fam op == 0xB && (opn op == 4 || opn op == 5) && ctxLen d == 0)

/-- RSA_PAD or HASH_ID of a value the opcode does not accept (R56, 4). -/
def classicValue (op : Nat) (d : Desc) : Bool :=
  (fam op == 9 && !(match op with
    | 0x0900 => d.rsaPad == 0
    | 0x0920 | 0x0930 => decide (d.rsaPad ≤ 1)
    | 0x0940 | 0x0950 => d.rsaPad == 2
    | _ => d.rsaPad == 3)) ||
  (hashOp op && phLen d.hashId == 0 && !(op == 0x0D00 && d.hashId == 0x0A))

/-- The field checks of an opcode, in order; where the reserved bits of the inline parameter, a priority above 7 and a parameter address without a
context stand is log 146. -/
def fieldCheck (e : Entry) (d : Desc) : Option (W16 × W32) :=
  let op := native d.opcode.toNat
  let v := d.inline.toNat
  let ctxPar := d.parAddr != 0 && ctxLen d == 0
  let adsor : List (Bool × W16 × W32) :=
    [(e.adsor && (d.skeinValid || d.coopOk || decide (31 < d.skein.toNat)), St.badParam, 0)]
  let own : List (Bool × W16 × W32) :=
    if e.customer then
      [(d.handle != 0 && !e.takesKey, St.badParam, 0)]
    else if latticeFam op then
      [(decide (2 ^ 25 ≤ v) || bits v 7 5 != 0 || d.maskOrder == 3, St.badParam, 0x11),
       (if prehashOp op then phLen d.hashId == 0 else d.hashId != 0, St.badParam, 0x10),
       (latticeUnused e op d, St.badParam, 0x12),
       (d.supplied && d.handle != 0, St.badParam, 0x13),
       (ctxPar && ctxUse op, St.badParam, 0x14),
       (fam op == 4 && d.maskOrder == 2, St.badParam, 0x20)]
    else if classicFam op then
      [(bits v 31 25 != 0 || bits v 2 1 != 0, St.badParam, 0x11),
       (classicUnused e op d, St.badParam, 0x12),
       (d.supplied && d.handle != 0, St.badParam, 0x13),
       (ctxPar && edCtx op, St.badParam, 0x14),
       (classicValue op d, St.badParam, 0x15)]
    else match fam op with
    | 0x10 =>
      [((v != v % 2 + bits v 47 32 * 2 ^ 32), St.badParam, 0x11),
       ((d.ctrNo != 0 || d.ctrValid) && !ctrOp op, St.badParam, 0x12),
       ((d.handle != 0 && !e.takesKey) || (d.parAddr != 0 && !templateOp op), St.badParam, 0)]
    | 0x11 =>
      let pt := opn op == 1
      let len := bits v 15 0; let elen := bits v 31 16
      let exp := op == 0x1105 || op == 0x1111
      [(d.handle != 0 || d.aux != 0 || decide (2 ^ 34 ≤ v) || (if pt then decide (1 < bits v 33 32) else bits v 33 32 != 0) ||
        (pt == (d.parAddr == 0)), St.badParam, 0x53),
       (len % 64 != 0 || decide (len < 64) || decide (16384 < len), St.badParam, 0x50),
       (if exp then decide (elen < 1) || decide (16384 < elen) else elen != 0, St.badParam, 0x51)]
    | 0x0E =>
      [(d.handle != 0 || d.parAddr != 0 || d.inline != 0 || d.aux != 0, St.badParam, 0x58)]
    | 0x0F =>
      [(d.handle != 0 || d.parAddr != 0 || d.inline != 0 || d.aux != 0, St.badParam, 0xA1),
       (d.inLen != 0, St.lengthMismatch, 0),
       (d.outCap == 0 || (if op = 0x0F00 then decide (65536 < d.outCap) else decide (4096 < d.outCap) || d.outCap % 16 != 0), St.badParam, 0xA0)]
    | _ => []
  let rsv : W32 := if e.customer then 0 else if latticeFam op || classicFam op then 0x11 else if fam op = 0x11 then 0x53 else 0
  firstFail ([(d.reservedSet e.adsor, St.badParam, rsv), (decide (7 < d.priority.toNat), St.badParam, 0)] ++ adsor ++ own)

/-! ### Keys (R31, R69, R72, R126, R249, R253) -/

/-- What an opcode needs of the key its handle names. -/
def keyNeed (e : Entry) (op : Nat) : KeyNeed :=
  let s := pset op
  let one (t : Nat) : Nat → Bool := fun x => x == t
  if e.customer then { typeOk := one e.keyType.toNat, usage := 0x1000, secret := true, device := false } else
  match fam op with
  | 1 | 7 | 8 =>
    let t := one (fam op * 256 + s)
    if opn op = 2 then { typeOk := t, usage := 4 } else if opn op = 3 then { typeOk := t, usage := 8, secret := true }
    else { typeOk := t, device := false }
  | 2 | 3 | 4 =>
    let t := one (fam op * 256 + s)
    if verifyOp op then { typeOk := t, usage := 2 } else { typeOk := t, usage := 1, secret := true }
  | 5 =>
    if verifyOp op then { typeOk := one 0x500, usage := 2 }
    else if op = 0x0540 then { typeOk := one 0x500, device := false, state := true }
    else { typeOk := one 0x500, usage := 1, secret := true }
  | 6 =>
    let t := one (if op = 0x0630 ∨ op = 0x0650 then 0x601 else 0x600)
    if verifyOp op then { typeOk := t, usage := 2 }
    else if op = 0x0660 then { typeOk := fun x => x == 0x600 || x == 0x601, device := false, state := true }
    else { typeOk := t, usage := 1, secret := true }
  | 9 =>
    let t := one 0x900
    match op with
    | 0x0920 => { typeOk := t, usage := 1, secret := true }
    | 0x0930 => { typeOk := t, usage := 2 }
    | 0x0940 => { typeOk := t, usage := 4 }
    | 0x0950 => { typeOk := t, usage := 8, secret := true }
    | _ => { typeOk := t, usage := 6 }
  | 0xA =>
    let t := one (0xA00 + s)
    match opn op with
    | 2 => { typeOk := t, usage := 1, secret := true }
    | 3 => { typeOk := t, usage := 2 }
    | 4 => { typeOk := t, usage := 0x10, secret := true }
    | _ => { typeOk := t }
  | 0xB =>
    if opn op = 8 then { typeOk := one (0xB10 + s), usage := 0x10, secret := true }
    else if verifyOp op then { typeOk := one (0xB00 + s), usage := 2 }
    else { typeOk := one (0xB00 + s), usage := 1, secret := true }
  | 0xC => { typeOk := one 0xC00, usage := 0x80, secret := true, device := false }
  | 0xD =>
    match op with
    | 0x0D30 | 0x0D32 => { typeOk := one 0xD03, usage := 0x100, secret := true }
    | 0x0D31 | 0x0D33 => { typeOk := one 0xD03, usage := 0x200, secret := true }
    | 0x0D40 => { typeOk := one 0xD01, usage := 0x400, secret := true }
    | 0x0D41 => { typeOk := one 0xD01, usage := 0x800, secret := true }
    | 0x0D50 => { typeOk := one 0xD02, usage := 0x400, secret := true }
    | 0x0D51 => { typeOk := one 0xD02, usage := 0x800, secret := true }
    | _ => { typeOk := fun x => x == 0xC00 || x == 0xD00, usage := 0x20, secret := true }
  | 0x12 =>
    match opn op with
    | 1 | 2 => { typeOk := one (0x1210 + s), usage := 1, secret := true }
    | 3 | 4 => { typeOk := one (0x1200 + s), usage := 2 }
    | 5 => { typeOk := one (0x1200 + s), usage := 1 }
    | _ => { typeOk := one (0x1210 + s), device := false }
  | _ =>
    match op with
    | 0x1020 => { typeOk := fun _ => true, device := false, expired := true, state := true }
    | 0x1021 | 0x1022 => { typeOk := fun _ => true, state := true }
    | _ => { typeOk := fun _ => true, device := false, state := true }

/-- Does a job use a key at its handle? -/
def Entry.namesKey (e : Entry) (d : Desc) : Bool :=
  e.takesKey && !(supplyOp (native d.opcode.toNat) && !e.customer && d.supplied)

/-- Does a job create, load or seal a key, so that the store must be UNLOCKED (R234)? -/
def makesKey (op : Nat) (d : Desc) : Bool :=
  (templateOp op && !(op == 0x0950 && d.parAddr == 0)) || (handleOp op && d.toHandle) || op == 0x0C00 || op == 0x0D10 || (fam op == 0x12 && opn op ≤ 1) ||
  op == 0x1032

/-- Is a key one that is never sealed (R249)? -/
def unsealable (k : Key) : Bool := k.stateful.isSome || k.typ.toNat / 16 == 0x122 || k.expire

/-- The checks of step 3 of R37; those of a combiner's first key come before those of its second, and both must permit an export (log 125). A
customer entry takes no other key than R126 says: KEY_USAGE. A seal to host memory that the policy forbids has R249's Detail 0x46, not R253's 0x85
(log 108). -/
def Block.keyStep (b : Block) (s : SliceId) (e : Entry) (d : Desc) : Option (W16 × W32) :=
  let op := native d.opcode.toNat
  let k := (b.visibleKey s d.handle).getD {}
  let named := if e.customer && e.namesKey d && b.kst.st == .unlocked && (devScope d.handle || (b.visibleKey s d.handle).isNone)
    then some (St.keyUsage, 0)
    else if e.namesKey d then b.keyCheck s d.handle (keyNeed e op)
    else if (if e.customer then e.kstore else makesKey op d) && b.kst.st != .unlocked then some (St.keyState, 0) else none
  match named with
  | some x => some x
  | none =>
    let two :=
      if e.customer then none
      else if fam op = 0xC then
        (if d.handle2 = d.handle then b.modKey d.handle (fun k => { k with reserved := k.reserved + 1 }) else b).keyCheck s d.handle2 (keyNeed e op)
      else if op = 0x0D30 ∨ op = 0x0D32 then
        b.keyCheck s d.handle2 { typeOk := fun t => !statefulType t, usage := 0x2000 }
      else if fam op = 0x12 ∧ opn op = 2 then
        b.keyCheck s d.handle2 { typeOk := fun t => t == 0x1220 + pset op, usage := 0, secret := true }
      else none
    match two with
    | some x => some x
    | none =>
      let host := addrForm d.outAddr != 1
      firstFail [
        (kdfOp op && !d.toHandle && (!bit k.usage.toNat 6 ||
          (fam op == 0xC && !bit ((b.visibleKey s d.handle2).getD {}).usage.toNat 6)), St.keyUsage, 0),
        (kdfOp op && !d.toHandle && !b.allows 2, St.keyUsage, 0x82),
        ((op == 0x0110 || op == 0x0111 || op == 0x0112 || (fam op == 2 && opn op == 1) || (fam op == 3 && opn op == 1)) && !b.allows 1,
          St.keyUsage, 0x81),
        (fam op == 4 && maskOp op && (b.minOrder == 2 || (e.takesKey && k.order == 2)), St.badParam, 0x20),
        (fam op == 8 && (opn op == 4 || (opn op == 2 && !d.supplied)) && k.pkObject.isNone, St.keyUsage, 0),
        ((op == 0x1030 || op == 0x1031) && ((host && !b.allows 5) || unsealable k), St.keyUsage, 0x46),
        ((op == 0x1030 || (op == 0x1031 && !d.ctrValid)) && k.useLimit != 0, St.keyUsage, 0x47),
        (op == 0x1022 && k.publicHalf.isEmpty, St.keyUsage, 0x48)]

/-! ### Lengths (R37, step 4) -/

/-- How an input length is judged: one length, a least length, a greatest, or one of two. -/
inductive LenRule where
  | exact (n : Nat)
  | atLeast (n : Nat)
  | atMost (n : Nat)
  | among (l : List Nat) (detail : Nat)
  | between (lo hi : Nat)
deriving DecidableEq, Repr

/-- The first failure of a length rule: the expected length. -/
def LenRule.fails (r : LenRule) (n : Nat) : Option Nat :=
  match r with
  | .exact m => if n = m then none else some m
  | .atLeast m => if m ≤ n then none else some m
  | .atMost m => if n ≤ m then none else some m
  | .among l d => if l.contains n then none else some d
  | .between lo hi => if n < lo then some lo else if hi < n then some hi else none

/-- A commitment-list entry's length: identifier and two commitments. -/
def frostEntry (s : Nat) : Nat := frostScalar s + 2 * frostPoint s

/-- The modulus length in bytes of an RSA operation: the auxiliary length where a key is supplied, else the key's. -/
def rsaK (d : Desc) (k : Key) : Nat := if d.supplied then d.aux else k.keyLen.toNat / 8

/-- The rule of the auxiliary length. A commitment list is a whole number of entries (log 165); SIGN_SHARE counts them on decode (R73). -/
def auxRule (e : Entry) (op : Nat) (d : Desc) (k : Key) : LenRule :=
  let s := pset op
  if e.customer then (if e.takesParam then .atMost 4096 else .exact 0) else
  match fam op with
  | 2 => if verifyOp op then .exact (dsaSig s) else .exact 0
  | 3 => if verifyOp op then .exact (slhSig s) else .exact 0
  | 4 => if verifyOp op then (if d.bit4 then .exact (fnSig s) else .among ((List.range (fnSig s - 40)).map (· + 41)) (fnSig s)) else .exact 0
  | 5 | 6 =>
    if verifyOp op then
      (if Config.ask .lengthCodesOk op [le 4 d.aux] then .exact d.aux else .among [] (Config.freeNat 8 op)) else .exact 0
  | 9 =>
    if op = 0x0930 ∧ !d.supplied then .exact (k.keyLen.toNat / 8)
    else if op = 0x0930 ∨ (d.supplied ∧ (op = 0x0940 ∨ op = 0x0960)) then
      let lo := if op = 0x0940 then 256 else 128
      if decide (lo ≤ d.aux) && decide (d.aux ≤ 2048) && d.aux % 8 == 0 then .exact d.aux else .among [] (Config.freeNat 9 d.aux)
    else .exact 0
  | 0xA => if verifyOp op then .exact (2 * nistL s) else .exact 0
  | 0xB => if verifyOp op then .exact (edSigLen s) else .exact 0
  | 0xD => if opn op = 4 ∨ opn op = 5 then .atMost 4096 else .exact 0
  | 0x12 => match opn op with
    | 2 => if d.aux % frostEntry s = 0 then .exact d.aux else .among [] (frostEntry s)
    | 3 => .among ((List.range 64).map (fun i => (i + 1) * frostEntry s)) (frostEntry s)
    | 4 => .exact (frostSigLen s)
    | _ => .exact 0
  | _ => .exact 0

/-- The input lengths that some importable type has (Table 10.6): the type itself is read on decode, which judges its own length (log 50). -/
def importLens : List Nat :=
  ([0x100, 0x101, 0x102, 0x200, 0x201, 0x202, 0x400, 0x401, 0x700, 0x701, 0x702, 0xB00, 0xB01, 0xB10, 0xB11, 0xD01].map (secretLen · 0)) ++
  ((List.range 12).map (fun s => slhSk s)) ++ ((List.range 10).map (fun s => mceSk s)) ++ ((List.range 3).map (fun s => nistL s)) ++
  ((List.range 497).map (· + 16)) ++ ((List.range 225).map (fun i => 4 + 8 * (i + 32)))

/-- The lengths that the public half of some importable type has, compressed NIST points among them. -/
def publicLens : List Nat :=
  ([0x100, 0x101, 0x102, 0x200, 0x201, 0x202, 0x400, 0x401, 0x700, 0x701, 0x702, 0xA00, 0xA01, 0xA02, 0xB00, 0xB01, 0xB10, 0xB11].map (publicLen · 0)) ++
  ((List.range 12).map (fun s => slhPk s)) ++ ((List.range 3).map (fun s => 1 + nistL s)) ++ ((List.range 225).map (fun i => 8 * (i + 32) + 4))

/-- The rule of the input length. ENCRYPT_OAEP under a modulus too short for any message expects none (log 165). -/
def inputRule (e : Entry) (op : Nat) (d : Desc) (k : Key) : LenRule :=
  let s := pset op
  let sup (n : Nat) := if d.supplied then n else 0
  if e.customer then .atMost e.maxIn else
  match fam op with
  | 1 => .exact (match opn op with | 1 => 64 | 2 => sup (kemEk s) | 3 => kemC s | _ => 0)
  | 2 => match opn op with
    | 0 => .exact 0 | 1 => .exact 32 | 2 => .atLeast 0 | 3 => .atLeast (sup (dsaPk s) + dsaSig s) | 4 => .exact (phLen d.hashId)
    | 5 => .exact (sup (dsaPk s) + dsaSig s + phLen d.hashId) | 6 => .exact 64 | _ => .exact (sup (dsaPk s) + dsaSig s + 64)
  | 3 => match opn op with
    | 0 => .exact 0 | 1 => .exact (3 * slhN s) | 2 => .atLeast 0 | 3 => .atLeast (sup (slhPk s) + slhSig s) | 4 => .exact (phLen d.hashId)
    | _ => .exact (sup (slhPk s) + slhSig s + phLen d.hashId)
  | 4 => match opn op with
    | 0 => .exact 0 | 2 => .atLeast 0 | 3 => .atLeast (sup (fnPk s) + d.aux) | 4 => .exact (phLen d.hashId)
    | _ => .exact (sup (fnPk s) + d.aux + phLen d.hashId)
  | 5 => match op with
    | 0x0500 => .among ((List.range 8).map (fun i => 8 * (i + 1))) 64
    | 0x0510 => .atLeast 0
    | 0x0540 => .exact 0
    | _ => .atLeast (sup (if op = 0x0530 then 48 else 52) + d.aux)
  | 6 => match op with
    | 0x0600 | 0x0610 => .exact 4
    | 0x0660 => .exact 0
    | 0x0620 | 0x0630 => .atLeast 0
    | _ => .atLeast (sup 52 + d.aux)
  | 7 => .exact (match opn op with | 2 => sup (hqcPk s) | 3 => hqcC s | _ => 0)
  | 8 => .exact (match opn op with | 2 => sup (mcePk s) | 3 => mceC s | _ => 0)
  | 9 =>
    let n := rsaK d k
    let h := phLen d.hashId
    match op with
    | 0x0900 => .exact 8
    | 0x0920 => .exact h
    | 0x0930 => .exact (sup (n + 4) + n + h)
    | 0x0940 => if 2 * h + 2 ≤ n then .between (sup (n + 4)) (sup (n + 4) + n - 2 * h - 2) else .among [] 0
    | 0x0950 => .exact n
    | _ => .exact (sup (n + 4) + n)
  | 0xA =>
    let l := nistL s; let h := phLen d.hashId
    match opn op with
    | 2 => .exact h
    | 3 => if d.supplied then .among [1 + 2 * l + 2 * l + h, 1 + l + 2 * l + h] (1 + 4 * l + h) else .exact (2 * l + h)
    | 4 => .among [1 + 2 * l, 1 + l] (1 + 2 * l)
    | 6 => if d.supplied then .among [1 + 2 * l, 1 + l] (1 + 2 * l) else .exact 0
    | _ => .exact 0
  | 0xB => match opn op with
    | 2 | 4 => .atLeast 0
    | 3 | 5 => .atLeast (sup (edPkLen s) + edSigLen s)
    | 6 => .exact 64
    | 7 => .exact (sup (edPkLen s) + edSigLen s + 64)
    | 8 => .exact (xLen s)
    | _ => .exact 0
  | 0xC => if op = 0x0C00 then .exact 0 else .atMost e.maxIn
  | 0xD => match op with
    | 0x0D30 | 0x0D32 => .exact 0
    | 0x0D31 => .among (((List.range 1026).map (fun i => 8 * (i + 1))).drop 2) 24
    | 0x0D33 => .among (((List.range 1026).map (fun i => 8 * (i + 1))).drop 1) 16
    | 0x0D40 | 0x0D50 => .atMost 65536
    | 0x0D41 | 0x0D51 => .between 28 (65536 + 28)
    | _ => .atMost e.maxIn
  | 0xE => .atMost 0x1000000
  | 0x10 => match op with
    | 0x1010 => .among importLens (Config.freeNat 49 d.inLen)
    | 0x1011 => .among publicLens (Config.freeNat 49 d.inLen)
    | 0x1023 => .exact 64
    | 0x1032 => .between (48 + 64 + 16) e.maxIn
    | 0x1060 => .exact 128
    | _ => .exact 0
  | 0x11 =>
    let l := bits d.inline.toNat 15 0 / 8; let el := (bits d.inline.toNat 31 16 + 7) / 8
    .exact (match op with
      | 0x1103 => 3 * l | 0x1104 => 2 * l | 0x1105 => 2 * l + el | 0x1110 => 2 * (1 + 2 * l) | 0x1111 => 1 + 2 * l + el | _ => 3 * l)
  | 0x12 => match opn op with
    | 0 => .exact 2
    | 2 => .atLeast d.aux
    | 3 => .atLeast (d.aux + d.aux / frostEntry s * frostScalar s)
    | 4 => .atLeast (sup (frostPoint s) + frostSigLen s)
    | 5 => .atLeast 12
    | 6 => .exact 4
    | _ => .exact 0
  | _ => .exact 0

/-- The length of a wrapped key: KW adds 8 bytes, KWP pads to a multiple of 8 first. -/
def wrapLen (k : Key) : Nat := roundUp k.wrapped.length 8 + 8
/-- The length of a sealed key object (Table 8.10): header, attribute record, material, tag. -/
def sealLen (k : Key) : Nat := 48 + 64 + k.material.length + 16

/-- The output capacity an operation needs. -/
def outNeed (e : Entry) (op : Nat) (d : Desc) (k k2 : Key) : Nat :=
  let s := pset op
  if e.customer then e.maxOut else
  match fam op with
  | 1 => if opn op = 2 then kemC s + (if d.toHandle then 0 else 32) else if opn op = 3 ∧ d.toHandle then 0 else e.maxOut
  | 5 | 6 => if op = 0x0510 ∨ op = 0x0620 ∨ op = 0x0630 then ((Config.decoded .hssSig op [k.pub]).headD 0) else e.maxOut
  | 7 => if opn op = 2 then hqcC s + (if d.toHandle then 0 else 64) else if opn op = 3 ∧ d.toHandle then 0 else e.maxOut
  | 8 => if opn op = 2 then mceC s + (if d.toHandle then 0 else 32) else if opn op = 3 ∧ d.toHandle then 0 else e.maxOut
  | 9 =>
    let n := rsaK d k
    match op with
    | 0x0900 => e.maxOut
    | 0x0920 | 0x0940 | 0x0960 => n
    | 0x0950 => if d.parAddr = 0 then n - 2 * phLen d.hashId - 2 else 0
    | _ => 0
  | 0xA => match opn op with
    | 0 => if d.bit4 then 1 + nistL s else 1 + 2 * nistL s
    | 4 => if d.toHandle then 0 else nistL s
    | _ => e.maxOut
  | 0xB => if opn op = 8 ∧ d.toHandle then 0 else e.maxOut
  | 0xC | 0xD =>
    if kdfOp op then 16
    else match op with
      | 0x0D30 | 0x0D32 => wrapLen k2
      | 0x0D40 | 0x0D50 => d.inLen + 28
      | 0x0D41 | 0x0D51 => d.inLen - 28
      | _ => 0
  | 0xF => 0
  | 0x10 => match op with
    | 0x1022 => k.publicHalf.length
    | 0x1030 | 0x1031 => sealLen k
    | _ => e.maxOut
  | 0x11 =>
    let l := bits d.inline.toNat 15 0 / 8
    if opn op = 1 then 1 + 2 * l else l
  | _ => e.maxOut

/-- The checks of step 4 of R37, in their order. -/
def Block.lengthStep (b : Block) (s : SliceId) (e : Entry) (d : Desc) : Option (W16 × W32) :=
  let op := native d.opcode.toNat
  let k := if e.namesKey d then (b.visibleKey s d.handle).getD {} else {}
  let k2 := if handle2Op op then (b.visibleKey s d.handle2).getD {} else {}
  let h := phLen d.hashId
  match (auxRule e op d k).fails d.aux with
  | some x => some (St.lengthMismatch, BitVec.ofNat 32 x)
  | none =>
  match (inputRule e op d k).fails d.inLen with
  | some x => some (St.lengthMismatch, BitVec.ofNat 32 x)
  | none =>
    let need := outNeed e op d k k2
    firstFail [
      (op == 0x1010 && !b.allows 0, St.keyUsage, 0x80),
      ((op == 0x0920 || op == 0x0930) && d.rsaPad == 1 && decide (rsaK d k < 2 * h + 2), St.badParam, 0x40),
      (!e.customer && ctxUse op && ctxLen d != 0 && d.parAddr == 0, St.lengthMismatch, 0),
      (decide (d.outCap < need), St.outputTooSmall, BitVec.ofNat 32 need),
      (kdfOp op && decide (512 < d.outCap), St.lengthMismatch, 512)]

/-! ### Quotas, fences, entropy, addresses -/

/-- The material length of a key a job creates, where the descriptor and the catalogue tell it (R417). -/
def Block.knownKey (b : Block) (s : SliceId) (e : Entry) (d : Desc) : Option Nat :=
  let op := native d.opcode.toNat
  if e.customer then (if e.kstore then some 512 else none)
  else if op = 0x0C00 then
    some ((((b.visibleKey s d.handle).getD {}).secret.length) + (((b.visibleKey s d.handle2).getD {}).secret.length))
  else if op = 0x0D10 then some (phLen d.hashId)
  else if fam op = 0x12 ∧ opn op = 1 then some (2 * frostScalar (pset op) + 2 * frostPoint (pset op))
  else if handleOp op ∧ d.toHandle then
    some (if kdfOp op then d.outCap else if fam op = 7 then 64 else if fam op = 0xA then nistL (pset op)
          else if fam op = 0xB then xLen (pset op) else 32)
  else none

/-- The DDR5 pages of a new object (R62, R206). -/
def Block.ddrPages (b : Block) (s : SliceId) (d : Desc) : Nat :=
  let op := native d.opcode.toNat
  if fam op = 8 ∧ opn op = 0 ∧ d.pkRetain then (48 + mcePk (pset op) + 4095) / 4096
  else if (op = 0x1030 ∨ op = 0x1031) ∧ addrForm d.outAddr = 1 then (sealLen ((b.visibleKey s d.handle).getD {}) + 4095) / 4096
  else 0

/-- The skein a descriptor names: its id, or the virtual engine of an Adsor slice (R142, R233). -/
def skeinKey (s : SliceId) (e : Entry) (d : Desc) : Option Nat :=
  if e.adsor then some (s.val * 2 ^ 16 + d.skein.toNat % 32)
  else if d.skeinValid then some (s.val * 2 ^ 16 + d.skein.toNat % 2 ^ 16) else none

/-- Skeins a slice has open. -/
def Block.skeinsOf (b : Block) (s : SliceId) : Nat := (b.dsp.skeins.filter (fun k => k.2.slice == s)).length

/-- Would a descriptor open a skein, and is there room for it (R146)? -/
def Block.skeinFull (b : Block) (s : SliceId) (key : Option Nat) : Bool :=
  match key with
  | none => false
  | some k => !Tab.has b.dsp.skeins k && (decide (65536 ≤ b.dsp.skeins.length) || decide ((b.slice s).quota.skeins ≤ b.skeinsOf s))

/-- A free battery-domain counter of the pool. -/
def Block.freeCounter (b : Block) : Option Nat := ((List.range 4032).map (· + 64)).find? (fun n => b.ctrOwner n == .none)

/-- A stateful key generation, which reserves a counter (R246). -/
def statefulGen (op : Nat) : Bool := op == 0x0500 || op == 0x0600 || op == 0x0610

/-- Does the object a job reads lie on a fenced DDR5 channel (R199)? -/
def Block.objectFenced (b : Block) (s : SliceId) (n : Option Nat) : Bool :=
  match n.bind (b.ddrObject s) with
  | some o => b.flt.fence.has (.ddr o.chan)
  | none => false

/-- The quota checks (R217, Table 9.4, R246, R146), then what is fenced (R317), then entropy (R277). -/
def Block.resourceStep (b : Block) (s : SliceId) (e : Entry) (d : Desc) : Option (W16 × W32) :=
  let op := native d.opcode.toNat
  let q := (b.slice s).quota
  let k := (b.visibleKey s d.handle).getD {}
  let obj := if fam op = 8 ∧ (opn op = 4 ∨ (opn op = 2 ∧ !d.supplied)) then k.pkObject
    else if op = 0x1032 ∧ addrForm d.inAddr = 1 then some (d.inAddr.toNat % 2 ^ 32) else none
  let lack := b.lacking e
  firstFail [
    (decide (q.wales < e.wales), St.quota, 1),
    (decide (q.opmem < e.opmem), St.quota, 2),
    (decide (q.codePairs < e.codePairs), St.quota, 3),
    (decide (q.qmem < e.qmem), St.quota, 4),
    (decide (q.ddr5 * 256 < b.ddrPages s d), St.quota, 5),
    ((match b.knownKey s e d with | some n => !b.keyFits s (entrySpace n) | none => false), St.quota, 6),
    (statefulGen op && b.freeCounter.isNone, St.quota, 8),
    (b.skeinFull s (skeinKey s e d), St.quota, 7),
    (lack.isSome, St.resourceFenced, lack.getD 0),
    (b.objectFenced s obj, St.resourceFenced, 4),
    (e.draws && (List.range 4).all (fun q => (b.seeder q).st == .stopped), St.entropyUnavailable, 1)]

/-- Address forms (R195), taken as part of the descriptor's reserved fields (DEDUCED: log 30). -/
def addressCheck (e : Entry) (d : Desc) : Option (W16 × W32) :=
  let op := native d.opcode.toNat
  let badForm (a : W64) (n : Nat) (ddr : Bool) : Bool :=
    n != 0 && (addrForm a == 3 || (addrForm a == 1 && (!ddr || bits a.toNat 61 32 != 0)))
  firstFail [
    (badForm d.inAddr d.inLen (op == 0x1032) || badForm d.outAddr d.outCap (op == 0x1030 || op == 0x1031) ||
      badForm d.parAddr (paramLen e d) false, St.badParam, 0x60)]

/-- All checks of R37 and after it, in order: the first failure, or none. An entry that needs the Rim fails at once while it is down (R188, log
124). -/
def Block.admitCheck (b : Block) (s : SliceId) (e : Entry) (d : Desc) : Option (W16 × W32) :=
  if e.rimAssist && !b.boot.rimUp then some (St.contextBusy, 0) else
  match fieldCheck e d with
  | some x => some x
  | none => match addressCheck e d with
    | some x => some x
    | none => match b.keyStep s e d with
      | some x => some x
      | none => match b.lengthStep s e d with
        | some x => some x
        | none => b.resourceStep s e d

/-! ### The job -/

/-- The entry a slice may use for an opcode (R3). -/
def Block.usable (b : Block) (s : SliceId) (op : W16) : Option Entry :=
  (b.entryOf op.toNat).filter (fun e => e.adsor == (b.slice s).adsor)

/-- The masking order of a job: the highest of key, MASK_ORDER and MIN_ORDER for secret lattice work (R33, R253). A key generation takes the new
key's: here the default template's; one in host memory is taken when it has come, before the job runs. A hash-based job, on three shares, shows order 0
(log 169). -/
def Block.orderOf (b : Block) (s : SliceId) (op : Nat) (e : Entry) (d : Desc) (k : Key) : BitVec 2 :=
  if e.customer then BitVec.ofNat 2 e.order.val
  else if maskOp op then
    let own := if e.takesKey then k.order.toNat % 4
      else if templateOp op && d.parAddr == 0 && fam op != 4 then min 2 (fld (b.slice s).defTemplate 4 1) else 0
    BitVec.ofNat 2 (max (max 1 d.maskOrder) (max b.minOrder own))
  else 0

/-- The gather lists of a job, walked between admission and grant (R196). -/
def gatherLists (e : Entry) (d : Desc) : List Buf :=
  (if addrForm d.parAddr == 2 && paramLen e d != 0 then [.param] else []) ++
  (if addrForm d.inAddr == 2 && d.inLen != 0 then [.input] else []) ++
  (if addrForm d.outAddr == 2 && d.outCap != 0 then [.output] else [])

/-- The address of a buffer's first list segment. -/
def listStart (d : Desc) (b : Buf) : W64 :=
  let a := match b with | .param => d.parAddr | .output => d.outAddr | _ => d.inAddr
  a &&& 0x3FFFFFFFFFFFFFFF

/-- Issue the read of the gather-list entry a walk stands at (R196): under ATS once its page's translation has come (R164), and once the slice's
bucket holds its length (R204) and a tag is free (R163). -/
def Block.askEntry (b : Block) (id : Nat) : Block :=
  match b.job id with
  | some j =>
    if j.phase = .walking ∧ !j.walkAsked ∧ (!b.host.ats ∨ j.walkTr) ∧ b.tokens j.slice 16 ∧ b.tagFree then
      ((b.emit (.read j.walkAt 16 (b.pasid j.slice))).charge j.slice 16).modJob id (fun j => { j with walkAsked := true })
    else b
  | none => b

/-- The length of an input's fixed fields, in front of its streamed message, as far as the descriptor tells it (R413). -/
def Block.fixedLen (b : Block) (s : SliceId) (e : Entry) (d : Desc) : Nat :=
  let op := native d.opcode.toNat
  match inputRule e op d (if e.namesKey d then (b.visibleKey s d.handle).getD {} else {}) with
  | .atLeast n => if streamOp op && !e.customer then n else d.inLen
  | _ => if fam op = 0x0E ∧ !e.customer then 0 else d.inLen

/-- How often a job fetches its streamed message (R413). -/
def streamPasses (fixed op : Nat) (d : Desc) : Nat := if fixed < d.inLen then hashings op else 0

/-- Admit a descriptor (R37, R179): the slice's count, the ring's outstanding records, the skein sequence, and either a job on its ready
list or one that has failed; a failed job outside a skein has its record written, a skein member waits in its place (R145). -/
def Block.admitJob (b : Block) (s : SliceId) (n : Fin 8) (index : Nat) (d : Desc) : Block :=
  let sl := b.slice s
  let entry := b.usable s d.opcode
  let e := entry.getD { opcode := d.opcode, adsor := sl.adsor }
  let op := native d.opcode.toNat
  let fixed := b.fixedLen s e d
  let fail := match entry with
    | none => some (St.badOpcode, (0 : W32))
    | some e => b.admitCheck s e d
  let id := b.dsp.next
  let key := if b.skeinFull s (skeinKey s e d) then none else skeinKey s e d
  let sk : Skein := (key.map (fun k => Tab.get {} b.dsp.skeins k)).getD {}
  let cnt := sl.ctr.admitted.add 1
  let k := if e.namesKey d then (b.visibleKey s d.handle).getD {} else {}
  let k2 := if handle2Op op && !e.customer then (b.visibleKey s d.handle2).getD {} else {}
  let ok := fail.isNone
  let uses := ok && e.namesKey d && (keyNeed e op).secret
  let ctr := if ok && !e.customer && statefulGen op then b.freeCounter else none
  let walks := if ok then gatherLists e d else []
  let lvl : Fin 8 := if sl.ceiling.val < d.priority.toNat % 8 then sl.ceiling else Fin.ofNat 8 d.priority.toNat
  let j : Job := {
    id := id, slice := s, ring := n, index := index, desc := d, entry := e, skein := key,
    seq := if key.isSome then sk.next else 0xFFFFFFFF, jobSeq := cnt.count.setWidth 16, level := lvl,
    phase := if walks.isEmpty then .ready else .walking, admittedAt := b.now, readySince := b.now, levelAt := b.now,
    result := match fail with | some (st, dt) => { status := st, detail := dt } | none => {},
    ended := fail.isSome, walks := walks, walkAt := match walks with | x :: _ => listStart d x | [] => 0,
    useHeld := uses, needsCommit := op == 0x1020 || op == 0x1031 || op == 0x1050 || statefulGen op,
    reservedKst := if ok then (((b.knownKey s e d).map entrySpace).getD 0) else 0, reservedCtr := ctr,
    order := b.orderOf s op e d k, keyObj := k, keyTwo := k2, ddrNeed := if ok then b.ddrPages s d else 0,
    cq := (sl.sq[n]).cq, fixed := fixed, passes := streamPasses fixed op d }
  let b := b.dryDeficit lvl s
  let b := b.modSlice s (fun x => { x with ctr := { x.ctr with admitted := cnt } })
  let b := b.modSq s n (fun q => { q with open_ := q.open_ + 1 })
  let b := b.modCq s (sl.sq[n]).cq (fun c => { c with a := c.a + 1 })
  let b := { b with
    jobs := b.jobs ++ [j],
    dsp := { b.dsp with
      next := id + 1,
      skeins := match key with
        | some x => Tab.put b.dsp.skeins x { slice := s, next := if sk.next = 0xFFFFFFFE then 0 else sk.next + 1, members := sk.members ++ [id] }
        | none => b.dsp.skeins } }
  let b := j.usedKeys.foldl (fun (b : Block) (h : W32) => b.modKey h (fun k => { k with reserved := k.reserved + 1 })) b
  let b := match ctr with
    | some c => b.setOwner c (.reserved id)
    | none => b
  if ok then (b.askEntry id).refill
  else if key.isNone then b.finish id else b

end Sys2Proof.Machine
end

