-- ==== Sys2Proof/Machine/Arith.lean ====
section
/-! DEFINITION. Modular and curve arithmetic of the primitive commands (Tables 4.7 and 4.8, R86 to R89, R117), shared by the jobs and
the micro-operations. -/
namespace Sys2Proof.Machine

/-- Greatest common divisor and the coefficient of the first operand, by Euclid's algorithm with fuel. -/
def egcd : Nat → Int → Int → Int → Int → Int × Int
  | 0, a, _, x, _ => (a, x)
  | n + 1, a, b, x, y => if b = 0 then (a, x) else egcd n b (a % b) y (x - a / b * y)

/-- The inverse of `a` modulo `m`, none where they share a factor. -/
def invMod (a m : Nat) : Option Nat :=
  let (g, x) := egcd (2 * (Nat.log2 m + 2)) (a : Int) (m : Int) 1 0
  if g = 1 then some (x % (m : Int)).toNat else none

/-- a^e mod m over the low `n` bits of `e`, from the top bit down. -/
def powMod (a e m : Nat) : Nat → Nat
  | 0 => 1 % m
  | n + 1 =>
    let r := powMod a (e / 2) m n
    if e % 2 = 1 then r * r * a % m else r * r % m

/-- A point: none is the identity. -/
abbrev Pt := Option (Nat × Nat)

/-- A curve over the integers modulo `p`: form 0 is y² = x³ + Ax + B, form 1 is Ax² + y² = 1 + Bx²y² (R86). -/
structure Curve where
  edwards : Bool
  p : Nat
  a : Nat
  b : Nat
deriving DecidableEq, Repr

/-- x − y modulo m. -/
def subMod (x y m : Nat) : Nat := (x % m + (m - y % m)) % m

/-- Is an affine point on the curve? -/
def Curve.on (c : Curve) (x y : Nat) : Bool :=
  if c.edwards then (c.a * x * x + y * y) % c.p == (1 + c.b * (x * x % c.p) * (y * y % c.p)) % c.p
  else (y * y) % c.p == (x * x * x + c.a * x + c.b) % c.p

/-- Is the curve singular (Table 4.8)? -/
def Curve.singular (c : Curve) : Bool :=
  if c.edwards then c.a == 0 || c.b == 0 || c.a == c.b else (4 * c.a * c.a * c.a + 27 * c.b * c.b) % c.p == 0

/-- A point in projective coordinates, x = X/Z and y = Y/T; on form 0 T is Z (R89). -/
structure Proj where
  x : Nat
  y : Nat
  z : Nat
  t : Nat
deriving DecidableEq, Repr

/-- The neutral element: (0 : 1 : 0), and x = 0, y = 1 of form 1. -/
def Curve.zero (c : Curve) : Proj := if c.edwards then ⟨0, 1 % c.p, 1 % c.p, 1 % c.p⟩ else ⟨0, 1 % c.p, 0, 0⟩
/-- A point of an input in projective coordinates. -/
def Curve.proj (c : Curve) : Pt → Proj
  | some (x, y) => ⟨x % c.p, y % c.p, 1 % c.p, 1 % c.p⟩
  | none => c.zero

/-- The doubling formulas of form 0. -/
def Curve.dbl (c : Curve) (s : Proj) : Proj :=
  let p := c.p
  let w := (c.a * s.z * s.z + 3 * s.x * s.x) % p
  let r := s.y * s.z % p
  let k := s.x * s.y % p * r % p
  let h := subMod (w * w) (8 * k) p
  let z := 8 * (r * r % p) * r % p
  ⟨2 * h * r % p, subMod (w * subMod (4 * k) h p) (8 * (s.y * s.y % p) * (r * r % p)) p, z, z⟩

/-- The sum of two points of form 1: the addition law x = (x₁y₂ + x₂y₁)/(1 + B·x₁x₂y₁y₂), y = (y₁y₂ − A·x₁x₂)/(1 − B·x₁x₂y₁y₂), and where either
quotient is 0/0 the law x = (x₁y₁ + x₂y₂)/(A·x₁x₂ + y₁y₂), y = (x₁y₁ − x₂y₂)/(x₁y₂ − x₂y₁): together they are exact for every pair of points. -/
def Curve.sumEd (c : Curve) (s q : Proj) : Proj :=
  let p := c.p
  let zz := s.z * q.z % p
  let tt := s.t * q.t % p
  let xx := s.x * q.x % p
  let yy := s.y * q.y % p
  let e := c.b * xx % p * yy % p
  let m := s.x * q.z % p * (q.y * s.t % p) % p
  let n := q.x * s.z % p * (s.y * q.t % p) % p
  let r : Proj := ⟨(m + n) % p, subMod (yy * zz) (c.a * xx % p * tt) p, (zz * tt + e) % p, subMod (zz * tt) e p⟩
  if (r.x = 0 ∧ r.z = 0) ∨ (r.y = 0 ∧ r.t = 0) then
    let u := s.x * s.y % p * (q.z * q.t % p) % p
    let v := q.x * q.y % p * (s.z * s.t % p) % p
    ⟨(u + v) % p, subMod u v p, (c.a * xx % p * tt + yy * zz) % p, subMod m n p⟩
  else r

/-- The sum of two points by the projective formulas, doubling where both differences vanish (R89; the formulas and the selection on a composite
p are the model's, log 36). -/
def Curve.sum (c : Curve) (s t : Proj) : Proj :=
  let p := c.p
  if c.edwards then c.sumEd s t
  else if s.z = 0 then t else if t.z = 0 then s else
    let u := subMod (t.y * s.z) (s.y * t.z) p
    let v := subMod (t.x * s.z) (s.x * t.z) p
    if u = 0 ∧ v = 0 then c.dbl s else
      let zz := s.z * t.z % p
      let v2 := v * v % p
      let v3 := v2 * v % p
      let r := v2 * (s.x * t.z % p) % p
      let a := subMod (subMod (u * u % p * zz) v3 p) (2 * r) p
      ⟨v * a % p, subMod (u * subMod r a p) (v3 * (s.y * t.z % p)) p, v3 * zz % p, v3 * zz % p⟩

/-- The affine form of a result: the identity where Z has no inverse modulo p (R89). -/
def Curve.affine (c : Curve) (q : Proj) : Pt :=
  match invMod (q.z % c.p) c.p, invMod (q.t % c.p) c.p with
  | some i, some k =>
    let x := q.x * i % c.p
    let y := q.y * k % c.p
    if c.edwards ∧ x = 0 ∧ y = 1 % c.p then none else some (x, y)
  | _, _ => none

/-- P + Q as PT_ADD writes it. -/
def Curve.add (c : Curve) (s t : Pt) : Pt := c.affine (c.sum (c.proj s) (c.proj t))

/-- The Montgomery ladder over the low `n` bits of k: [k]P and [k + 1]P (R89). -/
def Curve.ladder (c : Curve) (q : Proj) (k : Nat) : Nat → Proj × Proj
  | 0 => (c.zero, q)
  | n + 1 =>
    let (r, t) := c.ladder q (k / 2) n
    if k % 2 = 1 then (c.sum r t, c.sum t t) else (c.sum r r, c.sum r t)

/-- [k]P over the low `n` bits of k, as PT_MUL writes it. -/
def Curve.mul (c : Curve) (q : Pt) (k n : Nat) : Pt := c.affine (c.ladder (c.proj q) k n).1

/-- The primitive operations, in the order of Table 4.7. -/
inductive Prim where | modAdd | modSub | modMul | modRed | modInv | modExp | ptAdd | ptMul
deriving DecidableEq, Repr

/-- Is it a point command? -/
def Prim.point : Prim → Bool
  | .ptAdd | .ptMul => true
  | _ => false

/-- Does it take an exponent or scalar? -/
def Prim.scalar : Prim → Bool
  | .modExp | .ptMul => true
  | _ => false

/-- Output length for ℓ bits (Table 4.8). -/
def Prim.outLen (o : Prim) (l : Nat) : Nat := if o.point then 1 + l / 4 else l / 8

/-- Lengths of A, B and M for ℓ and ELEN bits (Table 4.7, R117). -/
def Prim.lens (o : Prim) (l elen : Nat) : Nat × Nat × Nat :=
  let n := l / 8
  let e := (elen + 7) / 8
  match o with
  | .modAdd | .modSub | .modMul => (n, n, n)
  | .modRed => (2 * n, 0, n)
  | .modInv => (n, 0, n)
  | .modExp => (n, e, n)
  | .ptAdd => (1 + 2 * n, 1 + 2 * n, 3 * n)
  | .ptMul => (1 + 2 * n, e, 3 * n)

/-- Read a point: format byte and coordinates of n bytes. -/
def readPoint (n : Nat) (b : Bytes) : Byte × Nat × Nat := ((b[0]?.getD 0), ofBe (sub b 1 n), ofBe (sub b (1 + n) n))

/-- A point's format is legal: 0x04, or 0x00 with zero coordinates. -/
def formatOk (q : Byte × Nat × Nat) : Bool := q.1 == 0x04 || (q.1 == 0 && q.2.1 == 0 && q.2.2 == 0)

/-- The point an input encodes. -/
def asPt (q : Byte × Nat × Nat) : Pt := if q.1 = 0 then none else some (q.2.1, q.2.2)

/-- Write a point (Table 4.7). -/
def writePoint (n : Nat) : Pt → Bytes
  | none => zeros (1 + 2 * n)
  | some (x, y) => [0x04] ++ be n x ++ be n y

/-- Table 4.8 from the row "m or p with a zero top word" on: a status and Detail, or the result bytes. -/
def primRun (o : Prim) (edwards : Bool) (elen l : Nat) (aB bB mB : Bytes) : Except (W16 × W32) Bytes :=
  let n := l / 8
  let m := ofBe (sub mB 0 n)
  let ca := ofBe (sub mB n n)
  let cb := ofBe (sub mB (2 * n) n)
  let c : Curve := ⟨edwards, m, ca, cb⟩
  let pa := readPoint n aB
  let pb := readPoint n bB
  let a := ofBe aB
  let bv := ofBe bB
  let odd := match o with | .modAdd | .modSub | .modRed => false | _ => true
  let two := match o with | .modAdd | .modSub | .modMul | .ptAdd => true | _ => false
  match firstFail [
    (decide (m < 2 ^ (l - 64)) || decide (m < 2) || (odd && (decide (m < 3) || m % 2 == 0)), St.operandRange, 1),
    (if o.point then decide (m ≤ ca) || decide (m ≤ cb) || decide (m ≤ pa.2.1) || decide (m ≤ pa.2.2) ||
        (two && (decide (m ≤ pb.2.1) || decide (m ≤ pb.2.2)))
      else o != .modRed && (decide (m ≤ a) || (two && decide (m ≤ bv))), St.operandRange, 2),
    (o.scalar && decide (2 ^ elen ≤ bv), St.operandRange, 5),
    (o.point && (!formatOk pa || (two && !formatOk pb)), St.inputInvalid, 1),
    (o.point && c.singular, St.inputInvalid, 4),
    (o.point && ((pa.1 == 0x04 && !c.on pa.2.1 pa.2.2) || (two && pb.1 == 0x04 && !c.on pb.2.1 pb.2.2)), St.inputInvalid, 3),
    (o == .modInv && (invMod a m).isNone, St.notInvertible, 0)] with
  | some e => .error e
  | none =>
    match o with
    | .modAdd => .ok (be n ((a + bv) % m))
    | .modSub => .ok (be n (subMod a bv m))
    | .modMul => .ok (be n (a * bv % m))
    | .modRed => .ok (be n (a % m))
    | .modInv => .ok (be n ((invMod a m).getD 0))
    | .modExp => .ok (be n (powMod a bv m elen))
    | .ptAdd => .ok (writePoint n (c.add (asPt pa) (asPt pb)))
    | .ptMul => .ok (writePoint n (c.mul (asPt pa) bv elen))

end Sys2Proof.Machine
end

