-- ==== Sys2Proof/Machine/Curves.lean ====
section
/-! DEFINITION. What the decode checks of supplied keys and points test (Tables 3.10 and 10.7, R39, R58, R61, R65, R67, R68): the constants of the
standards' curves and the bit layouts of the standards' keys (PRESUMED, log 130). -/
namespace Sys2Proof.Machine

/-! ### NIST curves: y² = x³ − 3x + b -/

/-- The field prime of P-256, P-384, P-521. -/
def nistP : Nat → Nat := pick [2 ^ 256 - 2 ^ 224 + 2 ^ 192 + 2 ^ 96 - 1, 2 ^ 384 - 2 ^ 128 - 2 ^ 96 + 2 ^ 32 - 1, 2 ^ 521 - 1]
/-- The order n of the base point. -/
def nistN : Nat → Nat := pick [
  0xFFFFFFFF00000000FFFFFFFFFFFFFFFFBCE6FAADA7179E84F3B9CAC2FC632551,
  0xFFFFFFFFFFFFFFFFFFFFFFFFFFFFFFFFFFFFFFFFFFFFFFFFC7634D81F4372DDF581A0DB248B0A77AECEC196ACCC52973,
  2 ^ 521 - 2 ^ 260 + 0xA51868783BF2F966B7FCC0148F709A5D03BB5C9B8899C47AEBB6FB71E91386409]
/-- The coefficient b. -/
def nistB : Nat → Nat := pick [
  0x5AC635D8AA3A93E7B3EBBD55769886BC651D06B0CC53B0F63BCE3C3E27D2604B,
  0xB3312FA7E23EE7E4988E056BE3F82D19181D9C6EFE8141120314088F5013875AC656398D8A2ED19D2A85C8EDD3EC2AEF,
  0x51953EB9618E1C9A1F929A21A0B68540EEA2DA725B99B315F3B8B489918EF109E156193951EC7E937B1652C0BD3BB1BF073573DF883D2C34F1EF451FD46B503F00]

/-- Has a number a square root modulo an odd prime of at most `n` bits (Euler's criterion)? -/
def isSquare (a p n : Nat) : Bool := a % p == 0 || powMod (a % p) ((p - 1) / 2) p n == 1

/-- x³ − 3x + b of a NIST curve. -/
def nistRhs (c x : Nat) : Nat := (x * x * x + (nistP c - 3) * x + nistB c) % nistP c

/-- The decode checks of an encoded NIST point: prefix, coordinates, curve (Table 3.10). -/
def pointChecks (c : Nat) (q : Bytes) : List (Bool × W16 × W32) :=
  let l := nistL c
  let whole := q.length == 1 + 2 * l
  let pre := q.headD 0
  let x := ofBe (sub q 1 l)
  let y := ofBe (sub q (1 + l) l)
  [(!(if whole then pre == 4 else pre == 2 || pre == 3), St.inputInvalid, 1),
   (decide (nistP c ≤ x) || (whole && decide (nistP c ≤ y)), St.inputInvalid, 2),
   (!(if whole then y * y % nistP c == nistRhs c x else isSquare (nistRhs c x) (nistP c) (8 * l)), St.inputInvalid, 3)]

/-- Does a private scalar lie in [1, n − 1] (R65)? -/
def scalarOk (c : Nat) (k : Bytes) : Bool := decide (0 < ofBe k) && decide (ofBe k < nistN c)

/-- Do r and s of an ECDSA signature lie in [1, n − 1] (Table 3.10)? -/
def rsOk (c : Nat) (sig : Bytes) : Bool := scalarOk c (sig.take (nistL c)) && scalarOk c (sig.drop (nistL c))

/-! ### Edwards and Montgomery curves -/

/-- The field prime of 25519 and 448. -/
def edP : Nat → Nat := pick [2 ^ 255 - 19, 2 ^ 448 - 2 ^ 224 - 1]
/-- The order L of the base point. -/
def edL : Nat → Nat := pick [2 ^ 252 + 27742317777372353535851937790883648493,
  2 ^ 446 - 13818066809895115352007386748515426880336692474882178609894547503885]
/-- 121666²·(u, v) of x² = u/v on Ed25519 is (y² − 1, d·y² + 1); the numerator of d there is −121665, on Ed448 d is −39081 and a is 1. -/
def edRatio (c y : Nat) : Nat × Nat :=
  if c = 0 then (121666 * (y * y + edP 0 - 1) % edP 0, ((edP 0 - 121665) * y * y + 121666) % edP 0)
  else ((y * y + edP 1 - 1) % edP 1, ((edP 1 - 39081) * y * y + edP 1 - 1) % edP 1)

/-- The y coordinate, the sign bit and the reserved bits of an encoded Edwards point. -/
def edFields (c : Nat) (q : Bytes) : Nat × Bool × Nat :=
  if c = 0 then (ofLe (q.take 32) % 2 ^ 255, bit (ofLe (q.take 32)) 255, 0)
  else (ofLe (q.take 56), bit (ofLe (sub q 56 1)) 7, ofLe (sub q 56 1) % 128)

/-- What fails of an encoded Edwards point: reserved bits, y ≥ p, no square root or x = 0 with the sign bit set (Table 3.10). -/
def edFails (c : Nat) (q : Bytes) : Bool × Bool × Bool :=
  let (y, sign, res) := edFields c q
  let (u, v) := edRatio c y
  (res != 0, decide (edP c ≤ y), !isSquare (u * v) (edP c) 448 || (u == 0 && sign))

/-- The decode checks of a supplied Edwards key (Table 3.10). -/
def edChecks (c : Nat) (q : Bytes) : List (Bool × W16 × W32) :=
  let (r, y, x) := edFails c q
  [(r, St.inputInvalid, 1), (y, St.inputInvalid, 2), (x, St.inputInvalid, 3)]

/-- Does an Edwards point decode? -/
def edDecodes (c : Nat) (q : Bytes) : Bool := let (r, y, x) := edFails c q; !r && !y && !x

/-- The u coordinate X_DH works on: the top bit masked on X25519, reduced modulo p (R67). -/
def xReduced (c : Nat) (u : Bytes) : Bytes :=
  le (xLen c) ((if c = 0 then ofLe u % 2 ^ 255 else ofLe u) % edP c)

/-! ### FROST (RFC 9591): scalars and elements of Ed25519, P-256 and Ed448 -/

/-- An encoded scalar or identifier. -/
def frostNat (set : Nat) (q : Bytes) : Nat := if set = 1 then ofBe q else ofLe q
/-- The curve of a suite's Edwards forms. -/
def frostEd (set : Nat) : Nat := set / 2
/-- A valid element other than the identity (R73). -/
def frostPointOk (set : Nat) (q : Bytes) : Bool :=
  if set = 1 then (firstFail (pointChecks 0 q)).isNone else edDecodes (frostEd set) q && (edFields (frostEd set) q).1 != 1

/-- The decode checks of a supplied group key, in the order of Table 3.10; the identity, which has no accepted encoding, is Detail 3 (R65, log 18). -/
def frostChecks (set : Nat) (q : Bytes) : List (Bool × W16 × W32) :=
  (if set = 1 then pointChecks 0 q else edChecks (frostEd set) q) ++ [(!frostPointOk set q, St.inputInvalid, 3)]

/-! ### Lattice and code-based keys -/

/-- The 12-bit coefficients of an encapsulation key's polynomials, two of each three bytes (FIPS 203). -/
def kemCoeffs : Bytes → List Nat
  | a :: b :: c :: r => (a.toNat + b.toNat % 16 * 256) :: (b.toNat / 16 + c.toNat * 16) :: kemCoeffs r
  | _ => []
/-- Is every coefficient of an encapsulation key below q (R39)? -/
def kemEkOk (set : Nat) (ek : Bytes) : Bool := (kemCoeffs (ek.take (kemEk set - 32))).all (fun c => decide (c < 3329))
/-- The hash check of a decapsulation key: H(ek) is the one it holds (R39). -/
def kemDkOk (set : Nat) (dk : Bytes) : Bool :=
  let n := kemEk set
  let ek := sub dk (n - 32) n
  kemEkOk set ek && algBytes .sha3of 5 [ek] 32 == sub dk (2 * n - 32) 32

/-- The bits of an HQC key's s beyond n = 17,669, 35,851 or 57,637 are zero (R58). -/
def hqcPadOk (set : Nat) (pk : Bytes) : Bool := decide ((pk.getD (hqcPk set - 1) 0).toNat < pick [32, 8, 32] set)
/-- The padding bits at the end of every row of a Classic McEliece key are zero: 3 bits of each of the 1,547 rows of 677 bytes of 6960119, none of
another set (R61). -/
def mcePadOk (set : Nat) (pk : Bytes) : Bool :=
  set / 2 != 3 || (List.range 1547).all (fun r => decide ((pk.getD (677 * r + 676) 0).toNat < 32))

/-! ### Imported material (Tables 10.6 and 10.7) -/

/-- The primes of an imported RSA key, e ‖ p ‖ q. -/
def rsaParts (m : Bytes) : Nat × Nat × Nat :=
  let h := (m.length - 4) / 2
  (ofBe (m.take 4), ofBe (sub m 4 h), ofBe (m.drop (4 + h)))

/-- Is every coefficient, scalar and field of a secret key in range (Table 10.7, R39, R63, R65)? Of FN-DSA, ML-DSA, HQC and Classic McEliece keys
their standards say (log 2). -/
def secretOk (t : Nat) (m : Bytes) : Bool :=
  match t / 256 with
  | 0x01 => kemEkOk (t % 256) (sub m (kemEk (t % 256) - 32) (kemEk (t % 256)))
  | 0x02 | 0x04 | 0x07 | 0x08 => Config.ask .materialOk t [m]
  | 0x09 => let (e, p, q) := rsaParts m; e % 2 == 1 && decide (3 ≤ e) && p % 2 == 1 && q % 2 == 1
  | 0x0A => scalarOk (t % 256) m
  | _ => true

/-- Does a secret key agree with itself (Table 10.7): the hash of ek, tr of the public key `pub`, and an RSA key's gcd and size? -/
def secretAgrees (t nbits : Nat) (m pub : Bytes) : Bool :=
  match t / 256 with
  | 0x01 => kemDkOk (t % 256) m
  | 0x02 => sub m 64 64 == algBytes .sha3of 9 [pub] 64
  | 0x09 => let (e, p, q) := rsaParts m; Nat.gcd e ((p - 1) * (q - 1)) == 1 && (p * q).log2 + 1 == nbits
  | _ => true

/-- Is an imported public key in range (Table 10.7)? -/
def publicOk (t : Nat) (q : Bytes) : Bool :=
  match t / 256 with
  | 0x01 => kemEkOk (t % 256) q
  | 0x04 => Config.ask .pkHeaderOk (256 * (t % 256)) [q] && (Config.decoded .dsaPk (0x40 + t % 256) [q]).all (fun c => decide (c < 12289))
  | 0x07 => hqcPadOk (t % 256) q
  | 0x09 =>
    let n := ofBe (q.take (q.length - 4)); let e := ofBe (q.drop (q.length - 4))
    n % 2 == 1 && q.headD 0 != 0 && e % 2 == 1 && decide (3 ≤ e)
  | 0x0A => (firstFail (pointChecks (t % 256) q)).isNone
  | 0x0B => decide (0x10 ≤ t % 256) || edDecodes (t % 256) q
  | _ => true

/-- A compressed NIST point with both coordinates: the square root of its sign; the primes are 3 modulo 4. -/
def decompress (c : Nat) (q : Bytes) : Bytes :=
  let l := nistL c
  let y := powMod (nistRhs c (ofBe (q.drop 1))) ((nistP c + 1) / 4) (nistP c) (8 * l)
  [4] ++ q.drop 1 ++ be l (if y % 2 = (q.headD 0).toNat % 2 then y else nistP c - y)

end Sys2Proof.Machine
end

