-- ==== Sys2Proof/Machine/Schemes.lean ====
section
/-! DEFINITION. The jobs of chapter 02: ML-KEM, ML-DSA, FN-DSA, SLH-DSA and the stateful hash-based schemes. A value an outside standard
fixes is what `Config` gives for it (log 2). Drawn lengths no rule states are open numbers (log 4). -/
namespace Sys2Proof.Machine

/-! ### Running a job -/

/-- What a run answers: a failure with its status and Detail, or a result. -/
abbrev RunResult := Except (W16 × W32) JobResult

/-- The key store space the keys of a result take. -/
def JobResult.newSpace (r : JobResult) : Nat :=
  r.effects.foldl (fun a e => match e with | .createKey k _ => a + k.space | .putKey _ k => a + k.space | .loadKey _ k => a + k.space | _ => a) 0

/-- Present a result; a key whose size was not known at admission must fit the slice's free reservation (R417, Table 10.7). A lasting
change of a replicated slice needs the master and completes only once committed (R336, R338). -/
def Block.presentResult (b : Block) (j : Job) (r : RunResult) : Block :=
  match r with
  | .error (st, d) => b.present j.id { status := st, detail := d }
  | .ok r =>
    let shared := !j.dev && (b.slice j.slice).replicated && r.effects.any Effect.lasting
    let b := if shared then b.modJob j.id (fun x => { x with needsCommit := true }) else b
    if shared && b.wty.lostMaster then b.present j.id { status := St.fabricUnreachable, detail := b.wty.masterNo.setWidth 32 }
    else if j.reservedKst != 0 || r.newSpace == 0 then b.present j.id r
    else if b.roomFor j r.newSpace then (b.modJob j.id (fun x => { x with reservedKst := r.newSpace })).present j.id r
    else b.present j.id { status := St.quota, detail := 6 }

/-- Run a job of an opcode: it has its effect only while its job is RUNNING and its message has come whole (R413). `pre` are its checks on decode, `draws` the bytes it draws from its
quadrant's seeder (R34), for which it waits while the seeder serves nothing, and `run` the rest. -/
def Block.workWith (b : Block) (id : Nat) (op : Nat → Bool) (pre : Block → Job → Option (W16 × W32)) (draws : Job → Nat)
    (run : Block → Job → Bytes → Block × RunResult) : Block :=
  match b.job id with
  | none => b
  | some j =>
    if j.phase != .running || j.passes != 0 || !op j.op || j.entry.customer then b else
    match pre b j with
    | some (st, d) => b.present id { status := st, detail := d }
    | none =>
      let n := draws j
      if n != 0 && !b.serves j.quad then b else
      let r := run (if n = 0 then b else b.seedDraw j.quad n) j (b.draw n)
      r.1.presentResult j r.2

/-- The same for a run that changes nothing but its job. -/
def Block.work (b : Block) (id : Nat) (op : Nat → Bool) (pre : Block → Job → Option (W16 × W32)) (draws : Job → Nat)
    (run : Block → Job → Bytes → RunResult) : Block :=
  b.workWith id op pre draws (fun b j d => (b, run b j d))

/-- An opcode of a family with an operation nibble. -/
def isOp (f k : Nat) (op : Nat) : Bool := fam op == f && opn op == k
/-- One opcode. -/
def only (o : Nat) (op : Nat) : Bool := op == o
/-- No check on decode. -/
def noPre : Block → Job → Option (W16 × W32) := fun _ _ => none
/-- Nothing is drawn. -/
def noDraw : Job → Nat := fun _ => 0

/-- The parameter set of a job. -/
def Job.set (j : Job) : Nat := pset j.op
/-- The template a creating job brings (R239). -/
def Job.template (j : Job) : Option Bytes := if j.desc.parAddr = 0 then none else some j.param
/-- The public key a job uses, of `n` bytes where it is supplied. -/
def Job.publicKey (j : Job) (n : Nat) : Bytes := if j.desc.supplied then j.input.take n else j.keyObj.pub
/-- The input after a supplied key of `n` bytes. -/
def Job.afterKey (j : Job) (n : Nat) : Bytes := if j.desc.supplied then j.input.drop n else j.input
/-- The context string (Table 2.1). -/
def Job.context (j : Job) : Bytes := if ctxUse j.op then j.param else []

/-- A key generation's template fails on decode (R240). -/
def templateFails (t : Job → Nat) (origin : Byte) : Block → Job → Option (W16 × W32) := fun b j =>
  match b.fromTemplate j.slice j.template (t j) origin with
  | .error e => some e
  | .ok _ => none

/-- The new key of a generation: its template with the material. -/
def Block.newKey (b : Block) (j : Job) (t : Nat) (origin : Byte) (sec pub : Bytes) : Except (W16 × W32) Key := do
  let k ← b.fromTemplate j.slice j.template t origin
  .ok { k with secret := sec, pub := pub }

/-- A key pair made: the public key to the output, the handle to the Detail. -/
def Block.madeKey (b : Block) (j : Job) (t : Nat) (origin : Byte) (sec pub : Bytes) : RunResult := do
  let k ← b.newKey j t origin sec pub
  .ok { out := pub, effects := [.createKey k true] }

/-- A shared secret after `pre`: into a session key with RESULT_TO_HANDLE, else to the output (R241). -/
def Block.sharedSecret (b : Block) (j : Job) (pre k : Bytes) : RunResult :=
  if j.desc.toHandle then .ok { out := pre, effects := [.createKey (b.sessionKey j.slice k) true] } else .ok { out := pre ++ k }

/-- A successful verify writes nothing (Table 2.8). -/
def accepted : RunResult := .ok {}

/-- A run that ends at its first failing check. -/
def judge (l : List (Bool × W16 × W32)) : RunResult :=
  match firstFail l with
  | some e => .error e
  | none => accepted

/-! ### ML-KEM (Tables 2.5 to 2.7) -/

/-- KEYGEN, KEYGEN_SEED: the pair FIPS 203 defines for d ‖ z. -/
def Block.kemKeygen (b : Block) (id k : Nat) : Block :=
  let origin : Byte := if k = 0 then 1 else 2
  b.work id (isOp 1 k) (templateFails (fun j => 0x100 + j.set) origin) (fun _ => if k = 0 then 64 else 0) (fun b j d =>
    let seed := if k = 0 then d else j.input
    b.madeKey j (0x100 + j.set) origin (algBytes .kemSk j.set [seed] (kemDk j.set)) (algBytes .kemPk j.set [seed] (kemEk j.set)))

def execMlKemKeygen (j : Nat) (s : State) : Host.Outcome State Fault Refusal := done (s.toBlock.kemKeygen j 0) s
def execMlKemKeygenSeed (j : Nat) (s : State) : Host.Outcome State Fault Refusal := done (s.toBlock.kemKeygen j 1) s

/-- ENCAPS: a supplied ek with a coefficient of 3,329 or more is INPUT_INVALID, Detail 1 (R39). -/
def execMlKemEncaps (id : Nat) (s : State) : Host.Outcome State Fault Refusal :=
  done (s.toBlock.work id (isOp 1 2)
    (fun _ j => firstFail [(j.desc.supplied && !kemEkOk j.set j.input, St.inputInvalid, 1)])
    (fun _ => 32) (fun b j m =>
      let ek := j.publicKey (kemEk j.set)
      b.sharedSecret j (algBytes .kemCt j.set [ek, m] (kemC j.set)) (algBytes .kemSecret j.set [ek, m] 32))) s

/-- DECAPS: always SUCCESS, the shared secret or the implicit-rejection value (R40). -/
def execMlKemDecaps (id : Nat) (s : State) : Host.Outcome State Fault Refusal :=
  done (s.toBlock.work id (isOp 1 3) noPre noDraw (fun b j _ =>
    b.sharedSecret j [] (algBytes .kemShared j.set [j.keyObj.secret, j.input] 32))) s

/-! ### Signature schemes: the string signed -/

/-- What the pure, pre-hash and µ forms of a set are told apart by. -/
def sigSet (op : Nat) : Nat := fam op * 256 + opn op / 2 * 16 + pset op

/-- The arguments a signature is computed over: context, pre-hash function and message (R41, Table 2.3). -/
def Job.signed (j : Job) (msg : Bytes) : List Bytes := [j.context, le 1 j.desc.hashId, msg]

/-- A verify whose checks on decode come in order and whose last check is the scheme's equation (VERIFY_REJECT, Detail 3). -/
def Job.verify (j : Job) (pkLen sigLen : Nat) (decode : Bytes → Bytes → List (Bool × W16 × W32)) : RunResult :=
  let pk := j.publicKey pkLen
  let rest := j.afterKey pkLen
  let sig := rest.take sigLen
  judge (decode pk sig ++ [(!Config.ask .verifies (sigSet j.op) ([pk, sig] ++ j.signed (rest.drop sigLen)), St.verifyReject, 3)])

/-! ### ML-DSA (Tables 2.8 to 2.11) -/

/-- KEYGEN, KEYGEN_SEED: the pair FIPS 204 defines for ξ. -/
def Block.dsaKeygen (b : Block) (id k : Nat) : Block :=
  let origin : Byte := if k = 0 then 1 else 2
  b.work id (isOp 2 k) (templateFails (fun j => 0x200 + j.set) origin) (fun _ => if k = 0 then 32 else 0) (fun b j d =>
    let seed := if k = 0 then d else j.input
    b.madeKey j (0x200 + j.set) origin (algBytes .dsaSk j.set [seed] (dsaSk j.set)) (algBytes .dsaPk j.set [seed] (dsaPk j.set)))

/-- SIGN, SIGN_PREHASH, SIGN_MU: rnd is 32 drawn bytes, or 32 zeros with DETERMINISTIC (R41). A loop rejected 1,000 times ends with
UNIT_FAULT, Detail 0x201, and an F0 note (R42). -/
def Block.dsaSign (b : Block) (id k : Nat) : Block :=
  b.workWith id (isOp 2 k) noPre (fun j => if j.desc.deterministic then 0 else 32) (fun b j d =>
    let rnd := if j.desc.deterministic then zeros 32 else d
    let args := [j.keyObj.secret, rnd] ++ j.signed j.input
    if Config.ask .samplerDone (sigSet j.op) args then (b, .ok { out := algBytes .dsaSig (sigSet j.op) args (dsaSig j.set) })
    else
      (b.raise { source := match j.wales with | w :: _ => Src.waleUnit w 0 | [] => Src.quadUnit j.quad 0,
                 kind := 0x0D, cls := 0, detail := 0x201, job := some id }, .error (St.unitFault, 0x201)))

/-- VERIFY, VERIFY_PREHASH, VERIFY_MU: hint encoding, ‖z‖∞, then the challenge (Table 2.11). -/
def Block.dsaVerify (b : Block) (id k : Nat) : Block :=
  b.work id (isOp 2 k) noPre noDraw (fun _ j _ => j.verify (dsaPk j.set) (dsaSig j.set) (fun _ sig =>
    [(!Config.ask .hintOk j.set [sig], St.verifyReject, 1), (!Config.ask .zNormOk j.set [sig], St.verifyReject, 2)]))

def execMlDsaKeygen (j : Nat) (s : State) : Host.Outcome State Fault Refusal := done (s.toBlock.dsaKeygen j 0) s
def execMlDsaKeygenSeed (j : Nat) (s : State) : Host.Outcome State Fault Refusal := done (s.toBlock.dsaKeygen j 1) s
def execMlDsaSign (j : Nat) (s : State) : Host.Outcome State Fault Refusal := done (s.toBlock.dsaSign j 2) s
def execMlDsaVerify (j : Nat) (s : State) : Host.Outcome State Fault Refusal := done (s.toBlock.dsaVerify j 3) s
def execMlDsaSignPrehash (j : Nat) (s : State) : Host.Outcome State Fault Refusal := done (s.toBlock.dsaSign j 4) s
def execMlDsaVerifyPrehash (j : Nat) (s : State) : Host.Outcome State Fault Refusal := done (s.toBlock.dsaVerify j 5) s
def execMlDsaSignMu (j : Nat) (s : State) : Host.Outcome State Fault Refusal := done (s.toBlock.dsaSign j 6) s
def execMlDsaVerifyMu (j : Nat) (s : State) : Host.Outcome State Fault Refusal := done (s.toBlock.dsaVerify j 7) s

/-! ### FN-DSA (Tables 2.12 and 2.13) -/

/-- KEYGEN. -/
def execFnDsaKeygen (id : Nat) (s : State) : Host.Outcome State Fault Refusal :=
  done (s.toBlock.work id (isOp 4 0) (templateFails (fun j => 0x400 + j.set) 1) (fun j => Config.freeNat 10 j.op) (fun b j d =>
    b.madeKey j (0x400 + j.set) 1 (algBytes .dsaSk (0x40 + j.set) [d] (fnSk j.set)) (algBytes .dsaPk (0x40 + j.set) [d] (fnPk j.set)))) s

/-- SIGN, SIGN_PREHASH: a 40-byte salt and a sampler seed are drawn unless DETERMINISTIC; the padded format has one length, the
compressed one at least 41 bytes and at most that (R45). -/
def Block.fnSign (b : Block) (id k : Nat) : Block :=
  b.work id (isOp 4 k) noPre (fun j => if j.desc.deterministic then 0 else 40 + Config.freeNat 10 j.op) (fun _ j d =>
    let args := [j.keyObj.secret, d, le 1 (b1 j.desc.bit4)] ++ j.signed j.input
    let n := if j.desc.bit4 then fnSig j.set else max 41 (min (fnSig j.set) ((Config.decoded .dsaSig (sigSet j.op) args).headD 0))
    .ok { out := algBytes .dsaSig (sigSet j.op) args n })

/-- VERIFY, VERIFY_PREHASH: the supplied key's header and coefficients, the signature's header, its encoding, then the norm. -/
def Block.fnVerify (b : Block) (id k : Nat) : Block :=
  b.work id (isOp 4 k) noPre noDraw (fun _ j _ => j.verify (fnPk j.set) j.desc.aux (fun pk sig =>
    [(j.desc.supplied && (!Config.ask .pkHeaderOk j.op [pk] ||
        !(Config.decoded .dsaPk (0x40 + j.set) [pk]).all (fun c => decide (c < 12289))), St.inputInvalid, 1),
     (!Config.ask .sigHeaderOk j.op [le 1 (b1 j.desc.bit4), sig], St.verifyReject, 1),
     (!Config.ask .compressedOk j.op [le 1 (b1 j.desc.bit4), sig], St.verifyReject, 2)]))

def execFnDsaSign (j : Nat) (s : State) : Host.Outcome State Fault Refusal := done (s.toBlock.fnSign j 2) s
def execFnDsaVerify (j : Nat) (s : State) : Host.Outcome State Fault Refusal := done (s.toBlock.fnVerify j 3) s
def execFnDsaSignPrehash (j : Nat) (s : State) : Host.Outcome State Fault Refusal := done (s.toBlock.fnSign j 4) s
def execFnDsaVerifyPrehash (j : Nat) (s : State) : Host.Outcome State Fault Refusal := done (s.toBlock.fnVerify j 5) s

/-! ### SLH-DSA (Table 2.14, R46) -/

/-- KEYGEN, KEYGEN_SEED: SK.seed ‖ SK.prf ‖ PK.seed, drawn or supplied. -/
def Block.slhKeygen (b : Block) (id k : Nat) : Block :=
  let origin : Byte := if k = 0 then 1 else 2
  b.work id (isOp 3 k) (templateFails (fun j => 0x300 + j.set) origin) (fun j => if k = 0 then 3 * slhN j.set else 0) (fun b j d =>
    let seed := if k = 0 then d else j.input
    let pk := sub seed (2 * slhN j.set) (slhN j.set) ++ algBytes .slhPk j.set [seed] (slhN j.set)
    b.madeKey j (0x300 + j.set) origin (seed.take (2 * slhN j.set) ++ pk) pk)

/-- SIGN, SIGN_PREHASH: opt_rand is n drawn bytes, or PK.seed with DETERMINISTIC. -/
def Block.slhSign (b : Block) (id k : Nat) : Block :=
  b.work id (isOp 3 k) noPre (fun j => if j.desc.deterministic then 0 else slhN j.set) (fun _ j d =>
    let r := if j.desc.deterministic then j.keyObj.pub.take (slhN j.set) else d
    .ok { out := algBytes .slhSig (sigSet j.op) ([j.keyObj.secret, r] ++ j.signed j.input) (slhSig j.set) })

/-- VERIFY, VERIFY_PREHASH: only the root is compared. -/
def Block.slhVerify (b : Block) (id k : Nat) : Block :=
  b.work id (isOp 3 k) noPre noDraw (fun _ j _ => j.verify (slhPk j.set) (slhSig j.set) (fun _ _ => []))

def execSlhDsaKeygen (j : Nat) (s : State) : Host.Outcome State Fault Refusal := done (s.toBlock.slhKeygen j 0) s
def execSlhDsaKeygenSeed (j : Nat) (s : State) : Host.Outcome State Fault Refusal := done (s.toBlock.slhKeygen j 1) s
def execSlhDsaSign (j : Nat) (s : State) : Host.Outcome State Fault Refusal := done (s.toBlock.slhSign j 2) s
def execSlhDsaVerify (j : Nat) (s : State) : Host.Outcome State Fault Refusal := done (s.toBlock.slhVerify j 3) s
def execSlhDsaSignPrehash (j : Nat) (s : State) : Host.Outcome State Fault Refusal := done (s.toBlock.slhSign j 4) s
def execSlhDsaVerifyPrehash (j : Nat) (s : State) : Host.Outcome State Fault Refusal := done (s.toBlock.slhVerify j 5) s

/-! ### Stateful schemes (Tables 2.16 to 2.18, R49 to R54) -/

/-- The shape of a stateful key: its heights from the top level down. -/
structure Shape where
  height : Nat
  levels : Nat
  bottom : Nat
deriving DecidableEq, Repr

/-- An LM-OTS type code's function: four groups of four Winternitz parameters (codes 1 to 0x10; log 15). -/
def otsType (t : Nat) : Option Nat := if 1 ≤ t ∧ t ≤ 0x10 then some ((t - 1) / 4) else none

/-- The levels an HSS_KEYGEN input names, big-endian; none where a code is unlisted. -/
def hssLevels : Nat → Bytes → Option (List (Nat × Nat))
  | 0, _ => some []
  | n + 1, b => match lmsType (ofBe (b.take 4)), otsType (ofBe (sub b 4 4)), hssLevels n (b.drop 8) with
    | some (f, h), some g, some r => if f = g then some ((f, h) :: r) else none
    | _, _, _ => none

/-- The shape of an HSS key: one function throughout, total height at most 60 (R49). -/
def hssShape (b : Bytes) : Option Shape :=
  match hssLevels (b.length / 8) b with
  | some (x :: r) =>
    let l := x :: r
    let h : Nat := l.foldl (fun a y => a + y.2) 0
    if l.all (fun y => y.1 == x.1) && decide (h ≤ 60) then some ⟨h, l.length, (l.getLast?.getD x).2⟩ else none
  | _ => none

/-- The shape an XMSS OID names (SP 800-208's sets over SHA-256 and SHAKE256; log 15). -/
def xmssShape (oid : Nat) : Option Shape :=
  let h := if 1 ≤ oid ∧ oid ≤ 3 then some ((oid - 1) % 3) else if 0x0D ≤ oid ∧ oid ≤ 0x15 then some ((oid - 0x0D) % 3) else none
  h.map (fun i => let n := pick [10, 16, 20] i; ⟨n, 1, n⟩)

/-- The shape an XMSS^MT OID names (log 15). -/
def xmssmtShape (oid : Nat) : Option Shape :=
  let i := if 1 ≤ oid ∧ oid ≤ 8 then some (oid - 1) else if 0x21 ≤ oid ∧ oid ≤ 0x38 then some ((oid - 0x21) % 8) else none
  i.map (fun i =>
    let h := pick [20, 20, 40, 40, 40, 60, 60, 60] i
    let d := pick [2, 4, 2, 4, 8, 3, 6, 12] i
    ⟨h, d, h / d⟩)

/-- What the parents of bottom-level tree `t` of a key signed of it, level by level: the same at every generation, for the trees follow from
the key's seed (R54); its length is open (log 4). -/
def Key.treeSig (k : Key) (t : Nat) : Bytes := algBytes .hssSig k.typ.toNat [k.secret, le 8 t] (Config.freeNat 47 k.typ.toNat)
/-- The traversal state of a key with its first `n` bottom-level trees generated. -/
def Key.withTrees (k : Key) (n : Nat) : Key :=
  { k with stateful := k.stateful.map (fun t => { t with trees := n, parents := if t.levels ≤ 1 then [] else (List.range n).map k.treeSig }) }

/-- A stateful key generation: the shape its input names, or BAD_PARAM, Detail 0x30; then its template (R49). -/
def Block.statefulKeygen (b : Block) (id op t : Nat) (a : Alg) (shape : Bytes → Option Shape) : Block :=
  b.work id (only op)
    (fun b j => match shape j.input with
      | none => some (St.badParam, 0x30)
      | some _ => templateFails (fun _ => t) 1 b j)
    (fun j => Config.freeNat 10 j.op)
    (fun b j d => do
      let k ← b.newKey j t 1 d []
      let sh := (shape j.input).getD ⟨0, 1, 0⟩
      let pk := algBytes a t [d, j.input] (statefulPkLen t j.input)
      let c := j.reservedCtr.getD 0
      .ok { out := pk, effects := [.createKey (Key.withTrees { k with
              pub := pk, ctr := BitVec.ofNat 32 c,
              stateful := some { b := k.granule.toNat, height := sh.height, levels := sh.levels, bottom := sh.bottom, base := b.counter c } } 1) true] })

def execHssKeygen (j : Nat) (s : State) : Host.Outcome State Fault Refusal := done (s.toBlock.statefulKeygen j 0x0500 0x500 .hssPk hssShape) s
def execXmssKeygen (j : Nat) (s : State) : Host.Outcome State Fault Refusal :=
  done (s.toBlock.statefulKeygen j 0x0600 0x600 .xmssPk (fun b => xmssShape (ofBe b))) s
def execXmssmtKeygen (j : Nat) (s : State) : Host.Outcome State Fault Refusal :=
  done (s.toBlock.statefulKeygen j 0x0610 0x601 .xmssPk (fun b => xmssmtShape (ofBe b))) s

/-- A stateful signature of the message and its context string at the index the job took at grant (R29, R51), under the tree that holds the
index (R54); a signature has the length its key's codes imply (R50). -/
def Block.statefulSign (b : Block) (id op : Nat) (a : Alg) : Block :=
  b.work id (only op) noPre noDraw (fun b j _ =>
    let t := (((b.key j.desc.handle).getD j.keyObj).stateful).getD {}
    .ok { out := algBytes a j.op [j.keyObj.secret, le 8 j.oneTime, t.parents.getD (j.oneTime / 2 ^ t.bottom) [], j.input, j.context]
                   ((Config.decoded .hssSig j.op [j.keyObj.pub]).headD 0) })

def execHssSign (j : Nat) (s : State) : Host.Outcome State Fault Refusal := done (s.toBlock.statefulSign j 0x0510 .hssSig) s
def execXmssSign (j : Nat) (s : State) : Host.Outcome State Fault Refusal := done (s.toBlock.statefulSign j 0x0620 .xmssSig) s
def execXmssmtSign (j : Nat) (s : State) : Host.Outcome State Fault Refusal := done (s.toBlock.statefulSign j 0x0630 .xmssSig) s

/-- A stateful verify: codes, implied length, levels and index, then the root (Table 2.17). The length of a supplied key is what its
codes imply. -/
def Block.statefulVerify (b : Block) (id op : Nat) : Block :=
  b.work id (only op) noPre noDraw (fun _ j _ =>
    let n := suppliedPkLen j.op j.input
    let pk := j.publicKey n
    let rest := j.afterKey n
    let sig := rest.take j.desc.aux
    let implied := (Config.decoded .hssSig j.op [sig]).headD 0
    judge [
      (!Config.ask .hssCodesOk j.op [pk, sig], St.verifyReject, 1),
      (implied != j.desc.aux, St.lengthMismatch, BitVec.ofNat 32 implied),
      (!Config.ask .hssIndexOk j.op [pk, sig], St.verifyReject, 2),
      (!Config.ask .verifies j.op ([pk, sig, rest.drop j.desc.aux] ++ [j.context]), St.verifyReject, 3)])

def execHssVerify (j : Nat) (s : State) : Host.Outcome State Fault Refusal := done (s.toBlock.statefulVerify j 0x0520) s
def execLmsVerify (j : Nat) (s : State) : Host.Outcome State Fault Refusal := done (s.toBlock.statefulVerify j 0x0530) s
def execXmssVerify (j : Nat) (s : State) : Host.Outcome State Fault Refusal := done (s.toBlock.statefulVerify j 0x0640) s
def execXmssmtVerify (j : Nat) (s : State) : Host.Outcome State Fault Refusal := done (s.toBlock.statefulVerify j 0x0650) s

/-- Table 2.18: the state record of a stateful key. -/
def stateRecord (t : Stateful) : Bytes :=
  le 8 t.c ++ le 8 t.u ++ le 8 (2 ^ t.height - t.u) ++ le 2 t.b ++ le 1 t.height ++ le 1 t.levels ++ zeros 4

/-- HSS_STATE, XMSS_STATE. -/
def Block.stateOf (b : Block) (id op : Nat) : Block :=
  b.work id (only op) noPre noDraw (fun b j _ =>
    .ok { out := stateRecord ((((b.key j.desc.handle).getD j.keyObj).stateful).getD {}) })

def execHssState (j : Nat) (s : State) : Host.Outcome State Fault Refusal := done (s.toBlock.stateOf j 0x0540) s
def execXmssState (j : Nat) (s : State) : Host.Outcome State Fault Refusal := done (s.toBlock.stateOf j 0x0660) s

/-- The granted stateful signatures of a key that may move on now. -/
def Block.pumpKey (b : Block) (h : W32) : Block :=
  (b.jobsWhere (fun j => j.phase == .loading && j.desc.handle == h)).foldl Block.pump b

/-- COUNTER_WRITE_END: the battery domain confirms C + B, and the jobs that waited for it go on; or the write failed: UNIT_FAULT, Detail
0x301, an F2 note, and the key refuses to sign until a reset has reread C: its jobs that have not been granted, and those that wait for the same
limit, end with KEY_STATE (R51, R53, log 128). -/
def execCounterWriteEnd (id : Nat) (ok : Bool) (s : State) : Host.Outcome State Fault Refusal :=
  let b := s.toBlock
  done (match b.job id with
    | none => b
    | some j =>
      match (b.key j.desc.handle).bind (fun k => k.stateful.map (fun t => (k, t))) with
      | none => b
      | some (k, t) =>
        if j.phase != .loading || !b.awaitsIndex j || decide (j.oneTime < t.c) then b
        else if ok then
          let c := t.c + t.b
          ((b.raiseCounter k.ctr.toNat (t.base + c)).putKey j.desc.handle { k with stateful := some { t with c := c } }).pumpKey j.desc.handle
        else
          let b := b.putKey j.desc.handle { k with stateful := some { t with failed := true } }
          let b := (b.raise { source := Src.device 13 0, kind := 0x0C, cls := 2, detail := 0x301, job := some id }).failJob id St.unitFault 0x301
          Block.failJobs (b.jobsWhere (fun x => x.desc.handle == j.desc.handle && !x.ended && (x.op == 0x0510 || x.op == 0x0620 || x.op == 0x0630) &&
            (x.phase == .ready || x.phase == .walking || (x.phase == .loading && decide (t.c ≤ x.oneTime))))) St.keyState 0 b) s

/-- Is there a pair of wales for work of priority 0: two free ones of a quadrant that no ready job of a higher priority could take (R54, log
129)? -/
def Block.sparePair (b : Block) : Bool :=
  b.dispatches && (List.range 4).any (fun q =>
    decide (2 ≤ ((List.range 16).filter (fun k => b.freeWale (16 * q + k) && !b.tuning (16 * q + k))).length) &&
    !b.jobs.any (fun j => j.level != 0 && b.couldRun q j))

/-- BACKGROUND_TREE_GENERATION: the next bottom-level tree of a key, with its parents' signatures, is ready, once its current one is
seven-eighths used or a job waits for it (R54). It ran at priority 0, on a pair (log 129). -/
def execBackgroundTreeGeneration (sl : SliceId) (index : Nat) (s : State) : Host.Outcome State Fault Refusal :=
  let b := s.toBlock
  let h := handleOf sl index
  done (match (b.key h).bind (fun k => k.stateful.map (fun t => (k, t))) with
    | none => b
    | some (k, t) =>
      let n := 2 ^ t.bottom
      let due := decide ((t.trees - 1) * n + 7 * n / 8 ≤ t.u) && decide (t.trees * n < 2 ^ t.height) && decide (1 < t.levels)
      if due && b.sparePair then (b.putKey h (k.withTrees (t.trees + 1))).pumpKey h else b) s

end Sys2Proof.Machine
end

