-- ==== Sys2Proof/Machine/Classic.lean ====
section
/-! DEFINITION. The jobs of chapter 03 and the fabric's FROST jobs: HQC, Classic McEliece, RSA, the NIST curves, Edwards and Montgomery
curves, combiners, KDFs, key wrap, AEAD and FROST. -/
namespace Sys2Proof.Machine

/-! ### HQC (Table 3.3, R58, R59) -/

/-- KEYGEN. -/
def execHqcKeygen (id : Nat) (s : State) : Host.Outcome State Fault Refusal :=
  done (s.toBlock.work id (isOp 7 0) (templateFails (fun j => 0x700 + j.set) 1) (fun j => Config.freeNat 10 j.op) (fun b j d =>
    b.madeKey j (0x700 + j.set) 1 (algBytes .kemSk j.op [d] (hqcSk j.set)) (algBytes .kemPk j.op [d] (hqcPk j.set)))) s

/-- ENCAPS: a supplied key with bits of s set beyond n is INPUT_INVALID, Detail 1. -/
def execHqcEncaps (id : Nat) (s : State) : Host.Outcome State Fault Refusal :=
  done (s.toBlock.work id (isOp 7 2)
    (fun _ j => firstFail [(j.desc.supplied && !hqcPadOk j.set j.input, St.inputInvalid, 1)])
    (fun j => Config.freeNat 10 j.op) (fun b j m =>
      let pk := j.publicKey (hqcPk j.set)
      b.sharedSecret j (algBytes .kemCt j.op [pk, m] (hqcC j.set)) (algBytes .kemSecret j.op [pk, m] 64))) s

/-- DECAPS: always SUCCESS (R59). -/
def execHqcDecaps (id : Nat) (s : State) : Host.Outcome State Fault Refusal :=
  done (s.toBlock.work id (isOp 7 3) noPre noDraw (fun b j _ =>
    b.sharedSecret j [] (algBytes .kemShared j.op [j.keyObj.secret, j.input] 64))) s

/-! ### Sealed objects (Table 8.10, R209, R210) -/

/-- The 48-byte header of an object. -/
def objectHeader (kind : Nat) (encrypted : Bool) (slice ctr : Nat) (ctrValue ident : Nat) (nonce : Bytes) (len : Nat) : Bytes :=
  le 4 0x574F424A ++ le 2 1 ++ le 1 kind ++ le 1 (b1 encrypted) ++ le 2 slice ++ le 2 ctr ++ zeros 4 ++ le 8 ctrValue ++ le 8 ident ++
  fit 12 nonce ++ le 4 len

/-- The checks of an object's header and slice, in the order of R210. A migrated slice is known by its former numbers too (log 140). -/
def objectFails (kind : Nat) (slices : List Nat) (o : Bytes) : Option (W16 × W32) :=
  let len := fld o 0x2C 4
  let tag := if kind = 2 then 0 else 16
  firstFail [
    (fld o 0 4 != 0x574F424A || fld o 4 2 != 1 || fld o 6 1 != kind || decide (1 < fld o 7 1) || fld o 0xC 4 != 0 ||
      o.length != 48 + len + tag, St.inputInvalid, 9),
    (!slices.contains (fld o 8 2), St.inputInvalid, 0xA)]

/-! ### Classic McEliece (Tables 3.4 to 3.6, R60, R61) -/

/-- A retained public key read back fails its checks: header, slice, then the digest its key entry records. -/
def Block.retainedFails (b : Block) (j : Job) : Option (W16 × W32) :=
  match objectFails 2 (b.knownAs j.slice) j.object with
  | some e => some e
  | none => if algBytes .sha3of 5 [j.object.drop 48] 32 = j.keyObj.pkDigest then none else some (St.inputInvalid, 6)

/-- An object that failed its authentication is treated as absent (R23): it leaves the object table, and the key that refers to it has no retained
public key any more (R60, log 131). -/
def Block.absentObject (b : Block) (s : SliceId) (n : Nat) : Block :=
  let hs := (b.kst.keys.filter (fun p => p.1 / 2 ^ 21 == s.val && p.2.pkObject == some n)).map (·.1)
  hs.foldl (fun (b : Block) h => match b.key (BitVec.ofNat 32 h) with
    | some k => b.setKey (BitVec.ofNat 32 h) { k with pkObject := none }
    | none => b) { b with ddr := { b.ddr with objects := b.ddr.objects.filter (fun p => !(p.slice == s && p.number.toNat == n)) } }

/-- A job over its key's retained public key: one that fails its checks is INPUT_INVALID and absent from then on. -/
def Block.overRetained (b : Block) (j : Job) (r : RunResult) : Block × RunResult :=
  match b.retainedFails j with
  | some e => (b.absentObject j.slice j.objectNo, .error e)
  | none => (b, r)

/-- KEYGEN: the public key to the output and its digest in the key entry; with PK_RETAIN a kind-2 object in DDR5 (R60). -/
def execMcelieceKeygen (id : Nat) (s : State) : Host.Outcome State Fault Refusal :=
  done (s.toBlock.work id (isOp 8 0) (templateFails (fun j => 0x800 + j.set) 1) (fun j => Config.freeNat 10 j.op) (fun b j d => do
    let pk := algBytes .kemPk j.op [d] (mcePk j.set)
    let k ← b.newKey j (0x800 + j.set) 1 (algBytes .kemSk j.op [d] (mceSk j.set)) []
    let o := objectHeader 2 false j.slice.val 0xFFFF 0 j.ddrNo [] pk.length ++ pk
    .ok { out := pk, ddr := if j.desc.pkRetain then o else [],
          effects := .createKey { k with pkDigest := algBytes .sha3of 5 [pk] 32 } true :: (if j.desc.pkRetain then [.keepPk 0] else []) })) s

/-- ENCAPS: a supplied key's padding bits are zero (R61); a retained key passes its checks (R60, R210). -/
def execMcelieceEncaps (id : Nat) (s : State) : Host.Outcome State Fault Refusal :=
  done (s.toBlock.workWith id (isOp 8 2)
    (fun _ j => firstFail [(j.desc.supplied && !mcePadOk j.set j.input, St.inputInvalid, 1)])
    (fun j => if j.desc.supplied || (s.toBlock.retainedFails j).isNone then Config.freeNat 10 j.op else 0) (fun b j m =>
      let pk := if j.desc.supplied then j.input else j.object.drop 48
      let r := b.sharedSecret j (algBytes .kemCt j.op [pk, m] (mceC j.set)) (algBytes .kemSecret j.op [pk, m] 32)
      if j.desc.supplied then (b, r) else b.overRetained j r)) s

/-- DECAPS: always SUCCESS (R61). -/
def execMcelieceDecaps (id : Nat) (s : State) : Host.Outcome State Fault Refusal :=
  done (s.toBlock.work id (isOp 8 3) noPre noDraw (fun b j _ =>
    b.sharedSecret j [] (algBytes .kemShared j.op [j.keyObj.secret, j.input] 32))) s

/-- PK_EXPORT: the retained public key to the output. -/
def execPkExport (id : Nat) (s : State) : Host.Outcome State Fault Refusal :=
  done (s.toBlock.workWith id (isOp 8 4) noPre noDraw (fun b j _ => b.overRetained j (.ok { out := j.object.drop 48 }))) s

/-! ### RSA (Tables 3.7 and 3.8, R63, R64) -/

/-- The modulus and exponent of an RSA public operation: supplied, or the key's. -/
def Job.rsaKey (j : Job) : Bytes × Bytes :=
  let n := rsaK j.desc j.keyObj
  let pk := j.publicKey (n + 4)
  (pk.take n, pk.drop n)

/-- The checks of a supplied RSA key. -/
def Job.rsaKeyChecks (j : Job) : List (Bool × W16 × W32) :=
  let n := ofBe j.rsaKey.1; let e := ofBe j.rsaKey.2
  [(j.desc.supplied && (n % 2 == 0 || (j.rsaKey.1.headD 0) == 0), St.inputInvalid, 1),
   (j.desc.supplied && (e % 2 == 0 || decide (e < 3)), St.inputInvalid, 2)]

/-- KEYGEN: modulus bits outside 2,048 to 16,384 or not a multiple of 64 are a key length outside the type's range (R240; log 16); an
exponent even or below 3 is INPUT_INVALID, Detail 2; 0 selects 65,537. -/
def execRsaKeygen (id : Nat) (s : State) : Host.Outcome State Fault Refusal :=
  let nbits (j : Job) := fld j.input 0 2
  let expo (j : Job) := if fld j.input 4 4 = 0 then 65537 else fld j.input 4 4
  done (s.toBlock.work id (only 0x0900)
    (fun b j => match firstFail [
        (!(decide (2048 ≤ nbits j) && decide (nbits j ≤ 16384) && nbits j % 64 == 0), St.badParam, 0x44),
        (expo j % 2 == 0 || decide (expo j < 3), St.inputInvalid, 2)] with
      | some e => some e
      | none => templateFails (fun _ => 0x900) 1 b j)
    (fun j => Config.freeNat 10 j.op) (fun b j d => do
      let n := nbits j / 8
      let pub := algBytes .rsaN (nbits j) [d, be 4 (expo j)] n ++ be 4 (expo j)
      let k ← b.newKey j 0x900 1 (be 4 (expo j) ++ algBytes .rsaSk (nbits j) [d, be 4 (expo j)] n) pub
      .ok { out := pub, effects := [.createKey { k with keyLen := BitVec.ofNat 16 (nbits j) } true] })) s

/-- SIGN: PSS draws a salt as long as the digest. -/
def execRsaSign (id : Nat) (s : State) : Host.Outcome State Fault Refusal :=
  done (s.toBlock.work id (only 0x0920) noPre (fun j => if j.desc.rsaPad = 1 then phLen j.desc.hashId else 0) (fun _ j d =>
    .ok { out := algBytes .rsaSig (j.desc.rsaPad * 256 + j.desc.hashId) [j.keyObj.secret, j.input, d] (rsaK j.desc j.keyObj) })) s

/-- VERIFY: supplied key, s ≥ n, then the encoding. -/
def execRsaVerify (id : Nat) (s : State) : Host.Outcome State Fault Refusal :=
  done (s.toBlock.work id (only 0x0930) noPre noDraw (fun _ j _ =>
    let k := rsaK j.desc j.keyObj
    let rest := j.afterKey (k + 4)
    let sig := rest.take k
    judge (j.rsaKeyChecks ++ [
      (decide (ofBe j.rsaKey.1 ≤ ofBe sig), St.verifyReject, 3),
      (!Config.ask .encodingOk (j.desc.rsaPad * 256 + j.desc.hashId) [j.rsaKey.1, j.rsaKey.2, sig, rest.drop k], St.verifyReject, 4)]))) s

/-- ENCRYPT_OAEP: a seed as long as the digest is drawn. -/
def execEncryptOaep (id : Nat) (s : State) : Host.Outcome State Fault Refusal :=
  done (s.toBlock.work id (only 0x0940) (fun _ j => firstFail j.rsaKeyChecks) (fun j => phLen j.desc.hashId) (fun _ j d =>
    let k := rsaK j.desc j.keyObj
    .ok { out := algBytes .oaepCt j.desc.hashId [j.rsaKey.1, j.rsaKey.2, j.afterKey (k + 4), d] k })) s

/-- The type a byte-string key takes from its template: the template's, or GENERIC_SECRET where it names none (log 17). -/
def Job.plainType (j : Job) : Nat :=
  let t := fld j.param 0 2
  if t = 0 then 0x0D00 else t

/-- DECRYPT_OAEP: any decryption error, c ≥ n among them, is INPUT_INVALID, Detail 5 (R64). With a template the message becomes the material of a new
UNWRAPPED key of a byte-string type, whose length it must have (log 17). -/
def execDecryptOaep (id : Nat) (s : State) : Host.Outcome State Fault Refusal :=
  done (s.toBlock.work id (only 0x0950)
    (fun b j => if j.desc.parAddr = 0 then none
      else if !(decide (0x0D00 ≤ j.plainType) && decide (j.plainType ≤ 0x0D03)) then some (St.badParam, 0x44)
      else templateFails Job.plainType 4 b j)
    (fun j => if j.desc.parAddr != 0 && aeadType j.plainType then 4 else 0) (fun b j d =>
      let args := [j.keyObj.secret, j.input]
      if ofBe (j.keyObj.pub.take (rsaK j.desc j.keyObj)) ≤ ofBe j.input || !Config.ask .oaepOk j.desc.hashId args then .error (St.inputInvalid, 5) else
      let n := rsaK j.desc j.keyObj - 2 * phLen j.desc.hashId - 2
      let m := algBytes .oaepPt j.desc.hashId args (min n ((Config.decoded .oaepPt j.desc.hashId args).headD 0))
      if j.desc.parAddr = 0 then .ok { out := m } else do
        let k ← b.newKey j j.plainType 4 m d
        if m.length = secretLen j.plainType k.keyLen.toNat then .ok { effects := [.createKey k true] } else .error (St.badParam, 0x44))) s

/-- PUBLIC_RAW: x^e mod n; x ≥ n is OPERAND_RANGE. -/
def execPublicRaw (id : Nat) (s : State) : Host.Outcome State Fault Refusal :=
  done (s.toBlock.work id (only 0x0960) noPre noDraw (fun _ j _ =>
    let k := rsaK j.desc j.keyObj
    let n := ofBe j.rsaKey.1
    let x := ofBe (j.afterKey (k + 4))
    match firstFail (j.rsaKeyChecks ++ [(decide (n ≤ x), St.operandRange, 0)]) with
    | some e => .error e
    | none => .ok { out := be k (powMod x (ofBe j.rsaKey.2) n (8 * j.rsaKey.2.length)) })) s

/-! ### NIST curves (Table 3.10, R65, R66) -/

/-- KEYGEN. -/
def execEccKeygen (id : Nat) (s : State) : Host.Outcome State Fault Refusal :=
  done (s.toBlock.work id (isOp 0xA 0) (templateFails (fun j => 0xA00 + j.set) 1) (fun j => Config.freeNat 10 j.op) (fun b j d => do
    let pub := algBytes .ecPk j.set [d] (1 + 2 * nistL j.set)
    let k ← b.newKey j (0xA00 + j.set) 1 (algBytes .ecSk j.set [d] (nistL j.set)) pub
    let x := sub pub 1 (nistL j.set)
    let y := pub.drop (1 + nistL j.set)
    .ok { out := if j.desc.bit4 then le 1 (2 + ofBe y % 2) ++ x else pub, effects := [.createKey k true] })) s

/-- SIGN: 32 drawn bytes hedge the nonce unless DETERMINISTIC (R66). -/
def execEcdsaSign (id : Nat) (s : State) : Host.Outcome State Fault Refusal :=
  done (s.toBlock.work id (isOp 0xA 2) noPre (fun j => if j.desc.deterministic then 0 else 32) (fun _ j d =>
    .ok { out := algBytes .ecSig j.set [j.keyObj.secret, le 1 j.desc.hashId, j.input, d] (2 * nistL j.set) })) s

/-- VERIFY: the supplied key's form follows from the input length; r and s, then the equation. -/
def execEcdsaVerify (id : Nat) (s : State) : Host.Outcome State Fault Refusal :=
  done (s.toBlock.work id (isOp 0xA 3) noPre noDraw (fun _ j _ =>
    let l := nistL j.set
    let n := j.desc.inLen - 2 * l - phLen j.desc.hashId
    let pk := j.publicKey n
    let rest := j.afterKey n
    let sig := rest.take (2 * l)
    judge ((if j.desc.supplied then pointChecks j.set pk else []) ++ [
      (!rsOk j.set sig, St.verifyReject, 4),
      (!Config.ask .verifies (0xA00 + j.set) [pk, sig, le 1 j.desc.hashId, rest.drop (2 * l)], St.verifyReject, 5)]))) s

/-- ECDH: the X coordinate of the product. -/
def execEcdh (id : Nat) (s : State) : Host.Outcome State Fault Refusal :=
  done (s.toBlock.work id (isOp 0xA 4) (fun _ j => firstFail (pointChecks j.set j.input)) noDraw (fun b j _ =>
    b.sharedSecret j [] (algBytes .ecdh j.set [j.keyObj.secret, j.input] (nistL j.set)))) s

/-- POINT_VALIDATE: the decode checks alone. -/
def execPointValidate (id : Nat) (s : State) : Host.Outcome State Fault Refusal :=
  done (s.toBlock.work id (isOp 0xA 6) noPre noDraw (fun _ j _ =>
    judge (pointChecks j.set (if j.desc.supplied then j.input else j.keyObj.pub)))) s

/-! ### Edwards and Montgomery curves (R67, R68) -/

/-- KEYGEN_ED. -/
def execKeygenEd (id : Nat) (s : State) : Host.Outcome State Fault Refusal :=
  done (s.toBlock.work id (isOp 0xB 0) (templateFails (fun j => 0xB00 + j.set) 1) (fun j => edPkLen j.set) (fun b j d =>
    b.madeKey j (0xB00 + j.set) 1 d (algBytes .edPk j.set [d] (edPkLen j.set)))) s

/-- KEYGEN_X. -/
def execKeygenX (id : Nat) (s : State) : Host.Outcome State Fault Refusal :=
  done (s.toBlock.work id (isOp 0xB 1) (templateFails (fun j => 0xB10 + j.set) 1) (fun j => xLen j.set) (fun b j d =>
    b.madeKey j (0xB10 + j.set) 1 d (algBytes .xPk j.set [d] (xLen j.set)))) s

/-- SIGN, SIGN_CTX, SIGN_PH. -/
def Block.edSign (b : Block) (id k : Nat) : Block :=
  b.work id (isOp 0xB k) noPre noDraw (fun _ j _ =>
    .ok { out := algBytes .edSig (sigSet j.op) ([j.keyObj.secret] ++ j.signed j.input) (edSigLen j.set) })

/-- VERIFY, VERIFY_CTX, VERIFY_PH: the supplied key's decoding, S, R, then the cofactored equation (Table 3.10). -/
def Block.edVerify (b : Block) (id k : Nat) : Block :=
  b.work id (isOp 0xB k) noPre noDraw (fun _ j _ =>
    let pk := j.publicKey (edPkLen j.set)
    let rest := j.afterKey (edPkLen j.set)
    let sig := rest.take (edSigLen j.set)
    judge ((if j.desc.supplied then edChecks j.set pk else []) ++ [
      (decide (edL j.set ≤ ofLe (sig.drop (edSigLen j.set / 2))), St.verifyReject, 4),
      (!edDecodes j.set (sig.take (edSigLen j.set / 2)), St.verifyReject, 1),
      (!Config.ask .verifies (sigSet j.op) ([pk, sig] ++ j.signed (rest.drop (edSigLen j.set))), St.verifyReject, 5)]))

def execEddsaSign (j : Nat) (s : State) : Host.Outcome State Fault Refusal := done (s.toBlock.edSign j 2) s
def execEddsaVerify (j : Nat) (s : State) : Host.Outcome State Fault Refusal := done (s.toBlock.edVerify j 3) s
def execSignCtx (j : Nat) (s : State) : Host.Outcome State Fault Refusal := done (s.toBlock.edSign j 4) s
def execVerifyCtx (j : Nat) (s : State) : Host.Outcome State Fault Refusal := done (s.toBlock.edVerify j 5) s
def execSignPh (j : Nat) (s : State) : Host.Outcome State Fault Refusal := done (s.toBlock.edSign j 6) s
def execVerifyPh (j : Nat) (s : State) : Host.Outcome State Fault Refusal := done (s.toBlock.edVerify j 7) s

/-- X_DH over the u coordinate masked and reduced: an all-zero result is INPUT_INVALID, Detail 5 (R67). -/
def execXDh (id : Nat) (s : State) : Host.Outcome State Fault Refusal :=
  done (s.toBlock.work id (isOp 0xB 8) noPre noDraw (fun b j _ =>
    let r := algBytes .xShared j.set [j.keyObj.secret, xReduced j.set j.input] (xLen j.set)
    if allZero r then .error (St.inputInvalid, 5) else b.sharedSecret j [] r)) s

/-! ### Combiners and KDFs (Table 3.12, R69) -/

/-- COMBINE_CONCAT: a new SHARED_SECRET K1 ‖ K2 with the earlier expiry of the two (R69). -/
def execCombineConcat (id : Nat) (s : State) : Host.Outcome State Fault Refusal :=
  done (s.toBlock.work id (only 0x0C00) noPre noDraw (fun b j _ =>
    .ok { effects := [.createKey { b.sessionKey j.slice (j.keyObj.secret ++ j.keyTwo.secret) with expire := j.keyObj.expire || j.keyTwo.expire } true] })) s

/-- A KDF of L bytes, the output capacity. -/
def Block.kdf (b : Block) (id op : Nat) (a : Alg) : Block :=
  b.work id (only op) noPre noDraw (fun b j _ =>
    b.sharedSecret j [] (algBytes a (j.op * 256 + j.desc.hashId) [j.keyObj.secret ++ j.keyTwo.secret, j.input] j.desc.outCap))

def execCombineKdf (j : Nat) (s : State) : Host.Outcome State Fault Refusal := done (s.toBlock.kdf j 0x0C10 .kdf56c) s
def execKdf108 (j : Nat) (s : State) : Host.Outcome State Fault Refusal := done (s.toBlock.kdf j 0x0D00 .kdf108) s
def execHkdfExpand (j : Nat) (s : State) : Host.Outcome State Fault Refusal := done (s.toBlock.kdf j 0x0D11 .hkdfExpand) s
def execKdf56c (j : Nat) (s : State) : Host.Outcome State Fault Refusal := done (s.toBlock.kdf j 0x0D20 .kdf56c) s

/-- HKDF_EXTRACT: a new PRK handle. -/
def execHkdfExtract (id : Nat) (s : State) : Host.Outcome State Fault Refusal :=
  done (s.toBlock.work id (only 0x0D10) noPre noDraw (fun b j _ =>
    .ok { effects := [.createKey (b.sessionKey j.slice (algBytes .hkdfExtract j.desc.hashId [j.keyObj.secret, j.input] (phLen j.desc.hashId))) true] })) s

/-! ### Key wrap (R69, R71) -/

/-- WRAP_KW, WRAP_KWP: the blob of the key HANDLE2 names. -/
def Block.wrap (b : Block) (id op : Nat) : Block :=
  b.work id (only op) noPre noDraw (fun _ j _ =>
    .ok { out := algBytes .kwWrap j.op [j.keyObj.secret, j.keyTwo.wrapped] (wrapLen j.keyTwo) })

def execWrapKw (j : Nat) (s : State) : Host.Outcome State Fault Refusal := done (s.toBlock.wrap j 0x0D30) s
def execWrapKwp (j : Nat) (s : State) : Host.Outcome State Fault Refusal := done (s.toBlock.wrap j 0x0D32) s

/-- The public half the store derives from a secret half (Table 10.2): a decapsulation key holds its ek, an RSA key's modulus is p·q; of every other
type its standard says (log 2). -/
def derivedPub (t : Nat) (k : Key) (sec : Bytes) : Bytes :=
  if t / 256 = 1 then sub sec (kemEk (t % 256) - 32) (kemEk (t % 256))
  else if t = 0x900 then
    let (e, p, q) := rsaParts sec
    be (k.keyLen.toNat / 8) (p * q) ++ be 4 e
  else algBytes .image t [sec] (publicLen t k.keyLen.toNat)

/-- UNWRAP_KW, UNWRAP_KWP: the template on decode; the integrity check fails with INPUT_INVALID, Detail 7; the key a blob holds must be
one of its type (Table 10.7; what a FROST key's blob holds: log 164). -/
def Block.unwrap (b : Block) (id op : Nat) : Block :=
  let typ (j : Job) := fld j.param 0 2
  b.work id (only op)
    (fun b j => if statefulType (typ j) || j.desc.parAddr == 0 then some (St.badParam, 0x44) else templateFails typ 4 b j)
    (fun j => if aeadType (typ j) then 4 else 0) (fun b j d => do
      let args := [j.keyObj.secret, j.input]
      let k ← b.newKey j (typ j) 4 [] []
      if !Config.ask .unwrapOk j.op args then .error (St.inputInvalid, 7) else
      let m := algBytes .kwUnwrap j.op args (if op = 0x0D31 then j.input.length - 8 else (Config.decoded .kwUnwrap j.op args).headD 0)
      let want := wrappedLen (typ j) k.keyLen.toNat m
      let k := k.unwrapped m
      let k := if frostKey (typ j) then k else { k with pub := if aeadType (typ j) then d else derivedPub (typ j) k k.secret }
      match firstFail [
        (m.length != (if op = 0x0D31 then roundUp want 8 else want) || !secretOk (typ j) k.secret, St.inputInvalid, 0x41),
        (!secretAgrees (typ j) k.keyLen.toNat k.secret k.pub, St.inputInvalid, 0x42)] with
      | some e => .error e
      | none => .ok { effects := [.createKey k true] })

def execUnwrapKw (j : Nat) (s : State) : Host.Outcome State Fault Refusal := done (s.toBlock.unwrap j 0x0D31) s
def execUnwrapKwp (j : Nat) (s : State) : Host.Outcome State Fault Refusal := done (s.toBlock.unwrap j 0x0D33) s

/-! ### AEAD (R70, R71, R339) -/

/-- The fixed field a member uses: in a replicated slice the low 12 bits of the big-endian field take its member number. -/
def Block.fixedField (b : Block) (replicated : Bool) (f : Bytes) : Bytes :=
  if replicated then be 4 (Nat.xor (ofBe f) (b.wty.number.getD 0).toNat) else f

/-- GCM_SEAL, CCP_SEAL: IV ‖ ciphertext ‖ tag, the IV from the fixed field and the use count taken at grant. -/
def Block.aeadSeal (b : Block) (id op : Nat) (ct tag : Alg) : Block :=
  b.work id (only op) noPre noDraw (fun b j _ =>
    let iv := b.fixedField j.keyObj.replicated (fit 4 j.keyObj.pub) ++ be 8 j.oneTime
    let args := [j.keyObj.secret, iv, j.param, j.input]
    .ok { out := iv ++ algBytes ct 0 args j.input.length ++ algBytes tag 0 args 16 })

/-- GCM_OPEN, CCP_OPEN: a tag that does not verify is VERIFY_REJECT, Detail 5. -/
def Block.aeadOpen (b : Block) (id op : Nat) (pt : Alg) : Block :=
  b.work id (only op) noPre noDraw (fun _ j _ =>
    let n := j.input.length - 28
    let args := [j.keyObj.secret, j.input.take 12, j.param, sub j.input 12 n, j.input.drop (12 + n)]
    if Config.ask .tagOk op args then .ok { out := algBytes pt 0 args n } else .error (St.verifyReject, 5))

def execGcmSeal (j : Nat) (s : State) : Host.Outcome State Fault Refusal := done (s.toBlock.aeadSeal j 0x0D40 .gcmCt .gcmTag) s
def execGcmOpen (j : Nat) (s : State) : Host.Outcome State Fault Refusal := done (s.toBlock.aeadOpen j 0x0D41 .gcmPt) s
def execCcpSeal (j : Nat) (s : State) : Host.Outcome State Fault Refusal := done (s.toBlock.aeadSeal j 0x0D50 .ccpCt .ccpTag) s
def execCcpOpen (j : Nat) (s : State) : Host.Outcome State Fault Refusal := done (s.toBlock.aeadOpen j 0x0D51 .ccpPt) s

/-! ### FROST (R72 to R74, R346, R347) -/

/-- The threshold and count a DEALER_KEYGEN input gives. -/
def Job.dealt (j : Job) : Nat × Nat := (fld j.input 0 1, fld j.input 1 1)

/-- Assign `n` handles of a slice in turn. -/
def Block.assignMany (b : Block) (s : Nat) : Nat → Block × List W32
  | 0 => (b, [])
  | n + 1 => let (b, h) := b.assign s; let (b, r) := b.assignMany s n; (b, h :: r)

/-- DEALER_KEYGEN: a group key and n shares; t and n outside 2 ≤ t ≤ n ≤ 64 are INPUT_INVALID (log 18), with no Detail defined (Table 7.9). The handles are assigned when the
result is formed. -/
def execDealerKeygen (id : Nat) (s : State) : Host.Outcome State Fault Refusal :=
  done (s.toBlock.workWith id (isOp 0x12 0)
    (fun b j => if !(decide (2 ≤ j.dealt.1) && decide (j.dealt.1 ≤ j.dealt.2) && decide (j.dealt.2 ≤ 64)) then
        some (St.inputInvalid, 0)
      else templateFails (fun j => 0x1200 + j.set) 1 b j)
    (fun j => Config.freeNat 10 j.op) (fun b j d =>
      match b.newKey j (0x1200 + j.set) 1 [] [] with
      | .error e => (b, .error e)
      | .ok g =>
        let (t, n) := j.dealt
        let args := [d, le 1 t, le 1 n]
        let pk := algBytes .frostPk j.set args (frostPoint j.set)
        let vs := (List.range n).map (fun i => algBytes .frostVShare j.set (args ++ [le 1 (i + 1)]) (frostPoint j.set))
        let (b, hs) := b.assignMany j.scope n
        let (b, gh) := b.assign j.scope
        let share (i : Nat) : Key := { g with
          typ := BitVec.ofNat 16 (0x1210 + j.set), usage := g.usage &&& BitVec.ofNat 16 (permitted (0x1210 + j.set)), ceiling := 1024,
          secret := algBytes .frostShare j.set (args ++ [le 1 (i + 1)]) (frostScalar j.set), share := some (t, n, i + 1) }
        let out := pk ++ ((hs.zip vs).map (fun x => le 4 x.1.toNat ++ x.2)).flatten
        let group := { g with pub := pk ++ vs.flatten, ceiling := 1024, share := some (t, n, 0) }
        (b, .ok { out := out, detail := gh,
                  effects := ((hs.zipIdx).map (fun x => .putKey x.1 (share x.2))) ++ [.putKey gh group] }))) s

/-- COMMIT: two commitments, and a nonce handle with a use limit of 1 that expires at the next reset (R72). -/
def execCommit (id : Nat) (s : State) : Host.Outcome State Fault Refusal :=
  done (s.toBlock.work id (isOp 0x12 1) noPre (fun j => Config.freeNat 10 j.op) (fun _ j d =>
    let c := algBytes .frostCommit j.set [j.keyObj.secret, d] (2 * frostPoint j.set)
    let k : Key := {
      typ := BitVec.ofNat 16 (0x1220 + j.set), usage := 1, expire := true, origin := 1, useLimit := 1, ceiling := 1024,
      secret := algBytes .frostNonce j.set [j.keyObj.secret, d] (2 * frostScalar j.set), pub := c }
    .ok { out := c, effects := [.createKey k true] })) s

/-- The entries of a commitment list. -/
def Job.entries (j : Job) : Nat := j.desc.aux / frostEntry j.set

/-- Entry `i` of a commitment list: identifier and commitments. -/
def Job.entryAt (j : Job) (i : Nat) : Nat × Bytes :=
  let e := sub j.input (i * frostEntry j.set) (frostEntry j.set)
  (frostNat j.set (e.take (frostScalar j.set)), e.drop (frostScalar j.set))
/-- The list's entries. -/
def Job.entryList (j : Job) : List (Nat × Bytes) := (List.range j.entries).map j.entryAt

/-- Do numbers rise strictly? -/
def rising : List Nat → Bool
  | a :: c :: r => decide (a < c) && rising (c :: r)
  | _ => true

/-- SIGN_SHARE: the checks of R73 in order, then the share over list and message. -/
def execSignShare (id : Nat) (s : State) : Host.Outcome State Fault Refusal :=
  done (s.toBlock.work id (isOp 0x12 2) noPre noDraw (fun _ j _ =>
    let (t, n, i) := j.keyObj.share.getD (0, 0, 0)
    let list := j.input.take j.desc.aux
    match firstFail [
      (!(decide (t ≤ j.entries) && decide (j.entries ≤ n)), St.inputInvalid, 0x11),
      (!(rising (j.entryList.map (·.1)) && j.entryList.all (fun e => decide (1 ≤ e.1) && decide (e.1 ≤ n))), St.inputInvalid, 0x12),
      (!j.entryList.all (fun e => frostPointOk j.set (e.2.take (frostPoint j.set)) && frostPointOk j.set (e.2.drop (frostPoint j.set))),
        St.inputInvalid, 0x13),
      (!j.entryList.any (fun e => e.1 == i && e.2 == j.keyTwo.pub), St.inputInvalid, 0x14)] with
    | some e => .error e
    | none => .ok { out := algBytes .frostSigShare j.set [j.keyObj.secret, j.keyTwo.secret, list, j.input.drop j.desc.aux] (frostScalar j.set) })) s

/-- The lowest identifier whose signature share fails against its verification share (R74). -/
def lowest (l : List Nat) : Option Nat := l.foldl (fun a x => some (match a with | some y => min x y | none => x)) none

/-- AGGREGATE: every share is checked; the lowest failing identifier i is INPUT_INVALID, Detail 0x10000 + i. -/
def execAggregate (id : Nat) (s : State) : Host.Outcome State Fault Refusal :=
  done (s.toBlock.work id (isOp 0x12 3) noPre noDraw (fun _ j _ =>
    let list := j.input.take j.desc.aux
    let sc := frostScalar j.set
    let shares := sub j.input j.desc.aux (j.entries * sc)
    let msg := j.input.drop (j.desc.aux + j.entries * sc)
    let bad := (List.range j.entries).filter (fun i =>
      !Config.ask .shareOk j.set [j.keyObj.pub, list, le 2 (j.entryAt i).1, sub shares (i * sc) sc, msg])
    match lowest (bad.map (fun i => (j.entryAt i).1)) with
    | some i => .error (St.inputInvalid, BitVec.ofNat 32 (0x10000 + i))
    | none => .ok { out := algBytes .frostSig j.set [j.keyObj.pub, list, shares, msg] (frostSigLen j.set) })) s

/-- VERIFY under the group public key, a supplied one checked in the order of Table 3.10 (R65); a signature that fails is VERIFY_REJECT, Detail 5 (as Table 3.10; log 18). -/
def execFrostVerify (id : Nat) (s : State) : Host.Outcome State Fault Refusal :=
  done (s.toBlock.work id (isOp 0x12 4) noPre noDraw (fun _ j _ =>
    let n := frostPoint j.set
    let pk := if j.desc.supplied then j.input.take n else j.keyObj.pub.take n
    let rest := j.afterKey n
    judge ((if j.desc.supplied then frostChecks j.set pk else []) ++ [
      (!Config.ask .verifies (0x1200 + j.set) [pk, rest.take (frostSigLen j.set), rest.drop (frostSigLen j.set)], St.verifyReject, 5)]))) s

/-- FABRIC_SIGN: the commitments and shares come from the members listed; one that cannot be reached (`lost`) ends the job with
FABRIC_UNREACHABLE and its number (R347). The number of members lies from t to n; shares are judged as R74 gives. -/
def execFabricSign (id : Nat) (lost : Option (BitVec 12)) (s : State) : Host.Outcome State Fault Refusal :=
  done (s.toBlock.work id (isOp 0x12 5) noPre (fun _ => 32) (fun _ j parts =>
    let (t, n, _) := j.keyObj.share.getD (0, 0, 0)
    let k := fld j.input 0 1
    let list := sub j.input 4 (8 * k)
    let msg := j.input.drop (4 + 8 * k)
    match firstFail [
      (!(decide (t ≤ k) && decide (k ≤ n)), St.inputInvalid, 0x11),
      (decide (j.input.length < 4 + 8 * k), St.lengthMismatch, BitVec.ofNat 32 (4 + 8 * k)),
      (lost.isSome, St.fabricUnreachable, (lost.getD 0).setWidth 32)] with
    | some e => .error e
    | none =>
      let bad := (List.range k).filter (fun i => !Config.ask .shareOk j.set [j.keyObj.pub, list, le 2 i, parts, msg])
      match lowest (bad.map (fun i => (Config.decoded .frostShare j.set [sub list (8 * i) 8]).headD 0)) with
      | some i => .error (St.inputInvalid, BitVec.ofNat 32 (0x10000 + i))
      | none => .ok { out := algBytes .frostSig j.set [j.keyObj.pub, list, parts, msg] (frostSigLen j.set) })) s

/-- SHARE_SEND: the share goes to a member that has committed it under the handle `dest`, and the local entry is deleted (R346); a
member that cannot be reached ends the job with FABRIC_UNREACHABLE. -/
def execShareSend (id : Nat) (dest : Option W32) (s : State) : Host.Outcome State Fault Refusal :=
  done (s.toBlock.work id (isOp 0x12 6) noPre noDraw (fun _ j _ =>
    match dest with
    | none => .error (St.fabricUnreachable, BitVec.ofNat 32 (fld j.input 0 2 % 4096))
    | some h => .ok { effects := [.sendShare j.desc.handle h] })) s

end Sys2Proof.Machine
end

