-- ==== Sys2Proof/Machine/KeyJobs.lean ====
section
/-! DEFINITION. The primitive jobs (chapter 04), the digest and random jobs (chapters 10 and 11), the key-management jobs of Table 10.5
and the journal (R244, R245). -/
namespace Sys2Proof.Machine

/-! ### Primitives (Tables 4.7 to 4.9) -/

/-- A primitive job: the layout of Table 4.7, then the checks of Table 4.8 and the result. -/
def Block.prim (b : Block) (id op : Nat) (p : Prim) : Block :=
  b.work id (only op) noPre noDraw (fun _ j _ =>
    let v := j.desc.inline.toNat
    let l := bits v 15 0; let elen := bits v 31 16
    let (na, nb, nm) := p.lens l elen
    let r := if p.point then primRun p (bits v 33 32 == 1) elen l (j.input.take na) (sub j.input na nb) j.param
      else primRun p false elen l (sub j.input nm na) (sub j.input (nm + na) nb) (j.input.take nm)
    match r with
    | .ok out => .ok { out := out }
    | .error e => .error e)

def execModAdd (j : Nat) (s : State) : Host.Outcome State Fault Refusal := done (s.toBlock.prim j 0x1100 .modAdd) s
def execModSub (j : Nat) (s : State) : Host.Outcome State Fault Refusal := done (s.toBlock.prim j 0x1101 .modSub) s
def execModMul (j : Nat) (s : State) : Host.Outcome State Fault Refusal := done (s.toBlock.prim j 0x1102 .modMul) s
def execModRed (j : Nat) (s : State) : Host.Outcome State Fault Refusal := done (s.toBlock.prim j 0x1103 .modRed) s
def execModInv (j : Nat) (s : State) : Host.Outcome State Fault Refusal := done (s.toBlock.prim j 0x1104 .modInv) s
def execModExp (j : Nat) (s : State) : Host.Outcome State Fault Refusal := done (s.toBlock.prim j 0x1105 .modExp) s
def execPtAdd (j : Nat) (s : State) : Host.Outcome State Fault Refusal := done (s.toBlock.prim j 0x1110 .ptAdd) s
def execPtMul (j : Nat) (s : State) : Host.Outcome State Fault Refusal := done (s.toBlock.prim j 0x1111 .ptMul) s

/-! ### Digest and random jobs (R258, R280, R283, R420) -/

/-- Block or rate length of a function of Table 2.3. -/
def phBlock : Nat → Nat := pick [1, 64, 128, 128, 128, 136, 104, 72, 168, 136]
/-- The bytes of a function's chaining value: 32 of SHA-256, 64 of the longer SHA-2 functions, the 200 of a Keccak state. -/
def chainLen : Nat → Nat := pick [200, 32, 64, 64, 64, 200, 200, 200, 200, 200]
/-- The chaining value of a function before any block (log 2), as the 200 bytes of Table 10.11, zero-filled. -/
def hashInit (ph : Nat) : Bytes := fit 200 (algBytes .hash (256 + ph) [] (chainLen ph))
/-- The chaining value after the whole blocks of `d` (log 2). -/
def hashBlocks (ph : Nat) (chain d : Bytes) : Bytes :=
  (List.range (d.length / phBlock ph)).foldl
    (fun c i => fit 200 (algBytes .hash (512 + ph) [c.take (chainLen ph), sub d (phBlock ph * i) (phBlock ph)] (chainLen ph))) chain
/-- The digest of a chaining value, a partial block and a byte count (log 2). -/
def hashEnd (ph : Nat) (chain part : Bytes) (count : Nat) : Bytes := algBytes .hash (768 + ph) [chain, part, le 16 count] (phLen ph)
/-- The digest of a function of Table 2.3. -/
def digestOf (ph : Nat) (d : Bytes) : Bytes :=
  hashEnd ph (hashBlocks ph (hashInit ph) d) (d.drop (d.length / phBlock ph * phBlock ph)) d.length

/-- A digest opcode: the function whose PH_ID is the low byte. -/
def execDigest (id : Nat) (s : State) : Host.Outcome State Fault Refusal :=
  done (s.toBlock.work id (fun op => fam op == 0xE) noPre noDraw (fun _ j _ => .ok { out := digestOf j.set j.input })) s

/-- Detail 1 while the factory test pattern is applied (R283). -/
def Block.patternDetail (b : Block) : W32 := if b.rng.pattern.isSome then 1 else 0

/-- RANDOM: as many bytes as the output capacity from the seeder of the job's quadrant, once the wale DRBGs that wait at it are served
(Table 11.7). -/
def execRandom (id : Nat) (s : State) : Host.Outcome State Fault Refusal :=
  let b := s.toBlock
  let b := match b.job id with
    | some (j : Job) => if j.phase == Phase.running && j.op == 0x0F00 then b.serveRanks j.quad else b
    | none => b
  done (b.work id (only 0x0F00) noPre (fun j => j.desc.outCap) (fun b _ d => .ok { out := d, detail := b.patternDetail })) s

/-- FULL_ENTROPY: it takes the conditioned blocks that its quadrant has ready, one by one, and keeps them in `input` until the output is whole. Short
of that it waits while a source of the quadrant is HEALTHY, STARTING or SUSPECT, and ends with ENTROPY_UNAVAILABLE, Detail 2, when every one is OFF
or FENCED (R280, R420). -/
def execFullEntropy (id : Nat) (s : State) : Host.Outcome State Fault Refusal :=
  let b := s.toBlock
  done (match b.job id with
    | none => b
    | some j =>
      if j.phase != .running || j.op != 0x0F01 || j.entry.customer then b else
      let n := min (Tab.get 0 b.rng.blocks j.quad) ((j.desc.outCap - j.input.length) / 16)
      let got := j.input ++ b.conditioned n
      let t := (b.takeBlocks j.quad n).drew (16 * n)
      if j.desc.outCap ≤ got.length then t.presentResult j (.ok { out := got, detail := b.patternDetail })
      else if b.healthy j.quad = 0 ∧ !b.reviving j.quad then b.present id { status := St.entropyUnavailable, detail := 2 }
      else t.modJob id (fun x => { x with input := got })) s

/-! ### Creating and importing keys (Tables 10.5 to 10.7) -/

/-- The byte-string types KEY_GENERATE creates. -/
def Job.generates (j : Job) : Nat := fld j.param 0 2

/-- KEY_GENERATE: only types 0x0D00 to 0x0D03, named by the template. -/
def execKeyGenerate (id : Nat) (s : State) : Host.Outcome State Fault Refusal :=
  let size (j : Job) := secretLen j.generates (fld j.param 0x1A 2)
  done (s.toBlock.work id (only 0x1000)
    (fun b j => if j.desc.parAddr = 0 || !(decide (0x0D00 ≤ j.generates) && decide (j.generates ≤ 0x0D03)) then some (St.badParam, 0x44)
      else templateFails Job.generates 1 b j)
    (fun j => size j + (if aeadType j.generates then 4 else 0)) (fun b j d => do
      let k ← b.newKey j j.generates 1 (d.take (size j)) (d.drop (size j))
      .ok { effects := [.createKey k true] })) s

/-- May a type be imported: neither stateful nor a FROST type, nor a SHARED_SECRET (Table 10.6)? -/
def importable (t : Nat) : Bool := typeListed t && !statefulType t && t / 256 != 0x12 && t != 0x0C00

/-- The modulus bits of an RSA import: the template's, or what the input implies. -/
def importBits (r input : Bytes) (extra : Nat) : Nat := if fld r 0x1A 2 = 0 then 8 * (input.length - extra) else fld r 0x1A 2

/-- KEY_IMPORT (Table 10.7): length, template, space, ranges, consistency. A Classic McEliece import takes no ENCAPS usage. -/
def execKeyImport (id : Nat) (s : State) : Host.Outcome State Fault Refusal :=
  let typ (j : Job) := fld j.param 0 2
  let nbits (j : Job) := if typ j = 0x900 then importBits j.param j.input 4 else fld j.param 0x1A 2
  done (s.toBlock.work id (only 0x1010)
    (fun b j => if j.desc.parAddr = 0 || !importable (typ j) then some (St.badParam, 0x44)
      else if j.input.length ≠ secretLen (typ j) (nbits j) then some (St.lengthMismatch, BitVec.ofNat 32 (secretLen (typ j) (nbits j)))
      else if typ j = 0x900 ∧ !keyLenOk 0x900 (nbits j) then some (St.badParam, 0x44)
      else templateFails typ 2 b j)
    (fun j => if aeadType (typ j) then 4 else 0) (fun b j d => do
      let k ← b.newKey j (typ j) 2 j.input []
      let k := { k with keyLen := BitVec.ofNat 16 (nbits j), usage := if typ j / 256 = 8 then k.usage &&& ~~~0x0004 else k.usage }
      let k := { k with pub := if aeadType (typ j) then d else derivedPub (typ j) k j.input }
      match firstFail [
        (k.usage == 0, St.badParam, 0x44),
        (!b.roomFor j k.space, St.quota, 6),
        (!secretOk (typ j) j.input, St.inputInvalid, 0x41),
        (!secretAgrees (typ j) (nbits j) j.input k.pub, St.inputInvalid, 0x42)] with
      | some e => .error e
      | none => .ok { effects := [.createKey k true] })) s

/-- KEY_IMPORT_PUBLIC: a public key in its scheme's encoding. Its entry holds no secret half and takes only the usages of a public half
(log 19). -/
def execKeyImportPublic (id : Nat) (s : State) : Host.Outcome State Fault Refusal :=
  let typ (j : Job) := fld j.param 0 2
  let nbits (j : Job) := if typ j = 0x900 then importBits j.param j.input 4 else fld j.param 0x1A 2
  let want (j : Job) := publicLen (typ j) (nbits j)
  let short (j : Job) := typ j / 256 == 0xA && j.input.length == 1 + nistL (typ j % 256)
  done (s.toBlock.work id (only 0x1011)
    (fun b j => if j.desc.parAddr = 0 || !importable (typ j) || publicLen (typ j) 2048 == 0 then some (St.badParam, 0x44)
      else if j.input.length ≠ want j ∧ !short j then some (St.lengthMismatch, BitVec.ofNat 32 (want j))
      else if typ j = 0x900 ∧ !keyLenOk 0x900 (nbits j) then some (St.badParam, 0x44)
      else templateFails typ 2 b j)
    noDraw (fun b j _ => do
      let k ← b.newKey j (typ j) 2 [] (if short j then decompress (typ j % 256) j.input else j.input)
      let k := { k with keyLen := BitVec.ofNat 16 (nbits j), usage := k.usage &&& 0x0006 }
      match firstFail [
        (k.usage == 0, St.badParam, 0x44),
        (!b.roomFor j k.space, St.quota, 6),
        (!publicOk (typ j) j.input, St.inputInvalid, 0x41)] with
      | some e => .error e
      | none => .ok { effects := [.createKey k true] })) s

/-! ### Entries and their attributes -/

/-- KEY_DELETE: the entry is erased, and the record follows the commit (R251). -/
def execKeyDelete (id : Nat) (s : State) : Host.Outcome State Fault Refusal :=
  done (s.toBlock.work id (only 0x1020) noPre noDraw (fun _ j _ => .ok { effects := [.deleteKey j.desc.handle] })) s

/-- The key a key-store job acts on as it stands. -/
def Block.keyNow (b : Block) (j : Job) : Key := (b.key j.desc.handle).getD j.keyObj

/-- KEY_GET_ATTR. -/
def execKeyGetAttr (id : Nat) (s : State) : Host.Outcome State Fault Refusal :=
  done (s.toBlock.work id (only 0x1021) noPre noDraw (fun b j _ => .ok { out := attrBytes (b.keyNow j) })) s

/-- KEY_EXPORT_PUBLIC. -/
def execKeyExportPublic (id : Nat) (s : State) : Host.Outcome State Fault Refusal :=
  done (s.toBlock.work id (only 0x1022) noPre noDraw (fun b j _ => .ok { out := (b.keyNow j).publicHalf })) s

/-- Does a record only narrow a key (R243)? -/
def narrows (k : Key) (r : Bytes) : Bool :=
  let n := parseAttr r
  let k' := { k with usage := n.usage, useLimit := n.useLimit, noMigrate := n.noMigrate, order := n.order, label := n.label }
  (attrBytes k' == r) && (n.usage &&& ~~~k.usage) == 0 &&
  (n.useLimit == k.useLimit || (n.useLimit != 0 && (k.useLimit == 0 || decide (n.useLimit < k.useLimit)) && decide (k.useCount ≤ n.useLimit))) &&
  (n.noMigrate || !k.noMigrate) && decide (k.order ≤ n.order) && orderOk k.typ.toNat n.order.toNat

/-- KEY_RESTRICT: anything but a narrowing is BAD_PARAM, Detail 0x45, and changes nothing (R243). -/
def execKeyRestrict (id : Nat) (s : State) : Host.Outcome State Fault Refusal :=
  done (s.toBlock.work id (only 0x1023) noPre noDraw (fun b j _ =>
    let k := b.keyNow j
    let n := parseAttr j.input
    if narrows k j.input then
      .ok { effects := [.restrict j.desc.handle { k with
        usage := n.usage, useLimit := n.useLimit, noMigrate := n.noMigrate, order := n.order, label := n.label }] }
    else .error (St.badParam, 0x45))) s

/-- KEY_SYNC: its record follows every earlier change of the slice (R244). -/
def execKeySync (id : Nat) (s : State) : Host.Outcome State Fault Refusal :=
  done (s.toBlock.work id (only 0x1050) noPre noDraw (fun _ _ _ => .ok {})) s

/-- A default or session template fails R241. -/
def defaultBad (r : Bytes) (types : List Nat) (mask : Nat) : Bool :=
  deviceFields r || !types.contains (fld r 0 2) || (BitVec.ofNat 16 (fld r 2 2) &&& ~~~(BitVec.ofNat 16 mask)) != 0 ||
  decide (2 < fld r 4 1) || decide (1024 < fld r 0x18 2) || fld r 0x1A 2 != 0

/-- KEY_SET_DEFAULTS: both templates or neither (R241). -/
def execKeySetDefaults (id : Nat) (s : State) : Host.Outcome State Fault Refusal :=
  done (s.toBlock.work id (only 0x1060) noPre noDraw (fun _ j _ =>
    let d := j.input.take 64; let n := j.input.drop 64
    if defaultBad d [0] 0x3FFF || defaultBad n [0, 0x0C00] 0x00E0 then .error (St.badParam, 0x44)
    else .ok { effects := [.setTemplates d n] })) s

/-! ### Sealed keys (R209, R210, R245, R249, R250) -/

/-- The sealing key in force of a scope, a slice or the device (1024), from which its 4-byte fixed field follows: a carried one, or the one derived
from the root key (R209, R213, R235, R339). -/
def Block.sealKey (b : Block) (scope : Nat) : List Bytes :=
  match (if scope < 1024 then (b.slice scope).carried else none) with
  | some k => [k]
  | none => [b.bat.rootKey.getD [], le 2 (if scope < 1024 then scope else 0xFFFF), le 8 (if scope < 1024 then (b.slice scope).sealGen else 0)]

/-- A nonce of a sealing key: fixed field and the invocation counter taken at grant (R209). -/
def Block.sealNonce (b : Block) (scope ctr : Nat) : Bytes :=
  b.fixedField (decide (scope < 1024) && (b.slice scope).replicated) (algBytes .seal 1 (b.sealKey scope) 4) ++ be 8 ctr

/-- An object of Table 8.10: kinds 1 and 4 encrypted under the sealing key with the header as additional data, kind 3 with a GMAC tag over header and
payload, kind 2 without a tag (R209). -/
def Block.object (b : Block) (kind scope ctr value ident : Nat) (nonce payload : Bytes) : Bytes :=
  let hd := objectHeader kind (kind == 1 || kind == 4) (if scope < 1024 then scope else 0xFFFF) ctr value ident (if kind = 2 then [] else nonce) payload.length
  let args := b.sealKey scope ++ [hd, payload]
  hd ++ (if kind = 1 ∨ kind = 4 then algBytes .seal 0 args payload.length else payload) ++ (if kind = 2 then [] else algBytes .seal 2 args 16)

/-- The key a job was admitted with, under the attributes it had then (R243), with what its entry counts now. -/
def Block.admittedKey (b : Block) (j : Job) : Key :=
  let k := b.keyNow j
  { k with usage := j.keyObj.usage, useLimit := j.keyObj.useLimit, noMigrate := j.keyObj.noMigrate, order := j.keyObj.order, label := j.keyObj.label }

/-- A kind-1 object of a key: its attribute record and material, sealed (R249). -/
def Block.sealed (b : Block) (j : Job) (k : Key) (ctr value : Nat) : Bytes :=
  b.object 1 j.slice ctr value j.desc.handle.toNat (b.sealNonce j.slice j.oneTime) (attrBytes k ++ k.material)

/-- Where a sealed object goes: a DDR5 object of the slice, or host memory (R195). -/
def Job.sealedTo (j : Job) (o : Bytes) (effects : List Effect) : JobResult :=
  if addrForm j.desc.outAddr = 1 then { out := o, ddr := o, effects := .storeObject :: effects } else { out := o, effects := effects }

/-- KEY_SEAL: the object, and the key stays. -/
def execKeySeal (id : Nat) (s : State) : Host.Outcome State Fault Refusal :=
  done (s.toBlock.work id (only 0x1030) noPre noDraw (fun b j _ => .ok (j.sealedTo (b.sealed j (b.admittedKey j) 0xFFFF 0) []))) s

/-- KEY_EVICT: the same object and the entry deleted. With CTR_VALID the key is bound to a counter of the slice, which advances by one at the run
and whose new value the object carries (R249, log 132); a counter that is not the slice's is BAD_PARAM, Detail 0 (log 20); one that cannot advance
is KEY_EXHAUSTED (R246). -/
def execKeyEvict (id : Nat) (s : State) : Host.Outcome State Fault Refusal :=
  done (s.toBlock.workWith id (only 0x1031)
    (fun b j => firstFail [
      (j.desc.ctrValid && b.ctrOwner (b.ctrOf j.slice j.desc.ctrNo) != .slice j.slice, St.badParam, 0),
      (j.desc.ctrValid && decide (2 ^ 64 - 1 ≤ b.counter (b.ctrOf j.slice j.desc.ctrNo)), St.keyExhausted, 0)])
    noDraw (fun b j _ =>
      let k := b.admittedKey j
      let n := b.ctrOf j.slice j.desc.ctrNo
      if j.desc.ctrValid then
        let k := { k with bound := true, ctr := BitVec.ofNat 32 n }
        (b.raiseCounter n (b.counter n + 1), .ok (j.sealedTo (b.sealed j k n (b.counter n + 1)) [.bindCtr n, .deleteKey j.desc.handle]))
      else (b, .ok (j.sealedTo (b.sealed j k 0xFFFF 0) [.deleteKey j.desc.handle])))) s

/-- The key a checked payload describes. -/
def payloadKey (p : Bytes) : Key :=
  let k := parseAttr p
  k.ofMaterial (p.drop 64) (secretLen k.typ.toNat k.keyLen.toNat)

/-- The key a loading job's object holds, where its tag verifies. -/
def Block.loaded (b : Block) (j : Job) : Key :=
  let o := if addrForm j.desc.inAddr == 1 then j.object else j.input
  if Config.ask .sealTagOk 1 (b.sealKey j.slice ++ [o]) then payloadKey (algBytes .unseal 1 (b.sealKey j.slice ++ [o]) (fld o 0x2C 4)) else {}

/-- KEY_LOAD: header, slice, tag; for a bound object the counter, which advances by one at the match, before the entry is created (R210, R250). An
object of DDR5 whose tag fails is absent from then on (R23, log 131). An AEAD key takes a fresh fixed field, as every key does when it is created
(R70), so that no IV of the sealed key comes again (R245). -/
def execKeyLoad (id : Nat) (s : State) : Host.Outcome State Fault Refusal :=
  done (s.toBlock.workWith id (only 0x1032) noPre (fun j => if aeadType (s.toBlock.loaded j).typ.toNat then 4 else 0) (fun b j d =>
    let ddr := addrForm j.desc.inAddr == 1
    let o := if ddr then j.object else j.input
    let n := if fld o 0xA 2 = 0xFFFF then 0xFFFF else b.ctrOf j.slice (fld o 0xA 2)
    match objectFails 1 (b.knownAs j.slice) o with
    | some e => (if ddr then b.absentObject j.slice j.objectNo else b, .error e)
    | none =>
      if !Config.ask .sealTagOk 1 (b.sealKey j.slice ++ [o]) then
        (if ddr then b.absentObject j.slice j.objectNo else b, .error (St.inputInvalid, 6))
      else match firstFail [
        (n != 0xFFFF && fld o 0x10 8 != b.counter n, St.inputInvalid, 0xB),
        (n != 0xFFFF && decide (2 ^ 64 - 1 ≤ b.counter n), St.keyExhausted, 0)] with
      | some e => (b, .error e)
      | none =>
        let k := b.loaded j
        let k := if aeadType k.typ.toNat then { k with pub := d } else k
        (if n = 0xFFFF then b
         else { b.raiseCounter n (b.counter n + 1) with bat := { (b.raiseCounter n (b.counter n + 1)).bat with evicted := b.bat.evicted.filter (· != n) } },
         .ok { effects := [.loadKey (BitVec.ofNat 32 (fld o 0x18 4)) k] }))) s

/-! ### Counters (R246) -/

/-- The counters a slice has allocated. -/
def Block.ctrsOf (b : Block) (s : SliceId) : Nat := (b.bat.owners.filter (fun p => p.2 == .slice s)).length

/-- CTR_ALLOC: no free counter, or a 65th, is QUOTA, Detail 8. -/
def execCtrAlloc (id : Nat) (s : State) : Host.Outcome State Fault Refusal :=
  done (s.toBlock.work id (only 0x1040) noPre noDraw (fun b j _ =>
    match b.freeCounter with
    | some n => if b.ctrsOf j.slice < 64 then .ok { effects := [.allocCtr n] } else .error (St.quota, 8)
    | none => .error (St.quota, 8))) s

/-- The counter a descriptor names is not one of its slice's (log 20). -/
def ctrForeign : Block → Job → Option (W16 × W32) := fun b j =>
  firstFail [(!j.desc.ctrValid || b.ctrOwner (b.ctrOf j.slice j.desc.ctrNo) != .slice j.slice, St.badParam, 0)]

/-- CTR_READ. -/
def execCtrRead (id : Nat) (s : State) : Host.Outcome State Fault Refusal :=
  done (s.toBlock.work id (only 0x1041) ctrForeign noDraw (fun b j _ => .ok { out := le 8 (b.counter (b.ctrOf j.slice j.desc.ctrNo)) })) s

/-- Does an effect bring a key that is bound to a counter? -/
def Effect.brings (n : Nat) : Effect → Bool
  | .loadKey _ k => k.bound && k.ctr.toNat == n
  | _ => false

/-- Is a key bound to a counter: a resident one, an evicted one, one that a job has loaded, or one that a granted eviction binds (R246)? -/
def Block.boundTo (b : Block) (n : Nat) : Bool :=
  b.kst.keys.any (fun p => p.2.bound && p.2.ctr.toNat == n && !p.2.tombstone) || b.bat.evicted.contains n ||
  b.jobs.any (fun j => j.granted && !j.ended && (j.result.effects.any (Effect.brings n) ||
    (j.op == 0x1031 && j.desc.ctrValid && b.ctrOf j.slice j.desc.ctrNo == n)))

/-- CTR_FREE: refused with KEY_STATE while a key is bound to the counter. -/
def execCtrFree (id : Nat) (s : State) : Host.Outcome State Fault Refusal :=
  done (s.toBlock.work id (only 0x1042) ctrForeign noDraw (fun b j _ =>
    let n := b.ctrOf j.slice j.desc.ctrNo
    if b.boundTo n then .error (St.keyState, 0) else .ok { effects := [.freeCtr n] })) s

/-! ### The journal (R234, R244, R245) -/

/-- The key as the journal keeps it: a new ceiling where its count is within 512 of the last one. -/
def Key.committed (k : Key) : Key := if k.ceiling ≤ k.useCount.toNat + 512 then { k with ceiling := k.ceiling + 1024 } else k

/-- Write one change to the journal (R244). -/
def Block.writeChange (b : Block) (c : Change) : Block :=
  match c with
  | .key h =>
    match b.key h with
    | some k =>
      let b := b.putKey h k.committed
      { b with flash := { b.flash with keys := if k.expire then Tab.drop b.flash.keys h.toNat else Tab.put b.flash.keys h.toNat k.committed } }
    | none => { b with flash := { b.flash with keys := Tab.drop b.flash.keys h.toNat } }
  | .slice s =>
    let b := b.modSlice s (fun x => if x.sealCeil ≤ x.sealCtr + 512 then { x with sealCeil := x.sealCeil + 1024 } else x)
    { b with flash := { b.flash with slices := Tab.put b.flash.slices s (b.slice s) } }
  | .policies =>
    { b with flash := { b.flash with
      kstPolicy := b.kst.policy, tamPolicy := b.tam.policy, rngCfg := b.rng.cfg, fzPolicy := b.wty.fzPolicy,
      holdLimit := b.wty.holdLimit, replGrace := b.wty.replGrace, plan := b.wty.plan, fabricMaster := b.wty.master && b.wty.number == some 0 } }

/-- Commit the oldest change: it is written, the epoch counter advances (R244). -/
def Block.commitOne (b : Block) : Block :=
  match b.kst.lag with
  | [] => b
  | c :: r =>
    let b := { b with kst := { b.kst with lag := r } }.writeChange c
    let b := b.raiseCounter 0 (b.counter 0 + 1)
    { b with flash := { b.flash with epoch := b.counter 0, written := true },
             kst := { b.kst with commits := b.kst.commits + 1, lastCommit := b.now } }

/-- The jobs whose changes have all been committed get their records (R244); those of a replicated slice wait while the master does not
commit (R337, R338). -/
def Block.releaseWaits (b : Block) : Block :=
  let go := b.kst.waits.filter (fun id => match b.job id with
    | some j => decide (j.mark ≤ b.kst.commits) && (b.wty.committing || !(b.slice j.slice).replicated)
    | none => true)
  let b := { b with kst := { b.kst with waits := b.kst.waits.filter (fun i => !go.contains i) } }
  go.foldl Block.finish b

/-- JOURNAL_COMMIT. -/
def execJournalCommit (s : State) : Host.Outcome State Fault Refusal :=
  let b := s.toBlock
  done (if b.kst.lag.isEmpty || !b.boot.coreUp then b else b.commitOne.releaseWaits) s

/-- The entry a start rebuilds from the journal: its count at its committed ceiling, not beyond where it sticks, a stateful key's limit as its
counter shows, its next index there, and the trees up to it generated again (R52, R54, R70, R245). -/
def Block.rebuilt (b : Block) (h : Nat) (k : Key) : Block :=
  let k := { k with
    useCount := BitVec.ofNat 64 (min k.ceiling k.useTop), reserved := 0,
    stateful := k.stateful.map (fun (t : Stateful) =>
      let c := b.counter k.ctr.toNat - t.base
      { t with c := c, u := c, failed := false }) }
  let k := match k.stateful with
    | some t => k.withTrees (max t.trees (t.u / 2 ^ t.bottom + 1))
    | none => k
  (b.putKey (BitVec.ofNat 32 h) k).change (.key (BitVec.ofNat 32 h))

/-- Is an unfused source at ZEROISE or above in alarm, so that no root key may be drawn (R290)? -/
def Block.rootBarred (b : Block) : Bool :=
  (List.range 16).any (fun t => b.tam.active.getLsbD t && !b.otp.fused.getLsbD t && decide (3 ≤ (b.respOf t).code))

/-- The journal region is erased: nothing of it comes back at a later start (R252). -/
def Flash.eraseJournal (f : Flash) : Flash :=
  let z : Flash := {}
  { f with
    keys := [], slices := [], written := false, kstPolicy := z.kstPolicy, tamPolicy := z.tamPolicy, rngCfg := z.rngCfg, fzPolicy := z.fzPolicy,
    holdLimit := z.holdLimit, replGrace := z.replGrace, plan := z.plan, fabricMaster := z.fabricMaster }

/-- A new root key once a seeder delivers: the store is UNLOCKED and empty (Table 10.1), and what the manager's records hold now is to be committed
under it. None is drawn while a source at ZEROISE or above is in alarm (R290). -/
def Block.newRoot (b : Block) : Block :=
  if b.rootBarred then b else
  match b.drawDevice 32 with
  | some (root, b) =>
    { b with
      bat := { b.bat with rootKey := some root, zeroised := false },
      kst := { b.kst with
        st := .unlocked, keys := [], lag := b.slices.map (fun p => Change.slice (Fin.ofNat 1024 p.1)) ++ [.policies], rootDue := false },
      flash := { b.flash.eraseJournal with epoch := b.counter 0 } }
  | none => b

/-- A start waits for its root key no longer than a seeder needs. -/
def Block.rootIfDue (b : Block) : Block := if b.kst.rootDue then b.newRoot else b

/-- What a start restores from the journal: keys, policies; slices are restored by the start itself (R375, R381). -/
def Block.restoreStore (b : Block) : Block :=
  let b := { b with
    kst := { b.kst with
      st := .unlocked, keys := b.kst.keys.filter (fun p => p.2.tombstone), policy := b.flash.kstPolicy, shadow := ~~~b.flash.kstPolicy },
    tam := { b.tam with policy := b.flash.tamPolicy, shadow := b.flash.tamPolicy },
    rng := { b.rng with cfg := b.flash.rngCfg },
    timeFabric := b.flash.fabricMaster,
    wty := { b.wty with
      fzPolicy := b.flash.fzPolicy, holdLimit := b.flash.holdLimit, replGrace := b.flash.replGrace, plan := b.flash.plan,
      master := b.flash.fabricMaster, number := if b.flash.fabricMaster then some 0 else none } }
  b.flash.keys.foldl (fun b p => b.rebuilt p.1 p.2) b

/-- The overwrite sweep has ended; a seal that waited for it is taken (R252, R318). -/
def Block.sweepEnd (b : Block) : Block :=
  let b := if b.kst.st != .sweeping then b else { b with kst := { b.kst with st := .zeroised, keys := tombstones b.kst.keys } }
  if b.flt.sealing then b.seal else b

/-- SWEEP_END. -/
def execSweepEnd (s : State) : Host.Outcome State Fault Refusal := done s.toBlock.sweepEnd s

end Sys2Proof.Machine
end

