-- ==== Sys2Proof/Machine/Rings.lean ====
section
/-! DEFINITION. Submission and completion rings (chapter 07, R170 to R184): doorbells, configuration, the descriptor fetcher, gather
lists, interrupt moderation, the MSI-X mask and ATS translations. -/
namespace Sys2Proof.Machine

/-- Does a slice's page take writes (Table 9.1)? -/
def Block.pageOpen (b : Block) (s : SliceId) : Bool :=
  b.boot.coreUp && !b.flt.sealed && ((b.slice s).st == .quiesced || (b.slice s).st == .active || (b.slice s).st == .quiescing || (b.slice s).st == .frozen)
/-- Are a slice's doorbells accepted (Table 9.1)? They are ignored on a halted device (Table 12.2), and in DECOMMISSIONED and SPENT (R262). -/
def Block.doorbells (b : Block) (s : SliceId) : Bool :=
  b.pageOpen s && !b.stopped && (b.slice s).st != .frozen && b.otp.lifecycle != .decommissioned && b.otp.lifecycle != .spent

/-- Does a completion ring have room for one more admission (R179)? -/
def Cq.room (c : Cq) : Bool :=
  c.enable && !c.halted && decide ((c.tail + 2 ^ c.log2.toNat - c.head) % 2 ^ c.log2.toNat + c.a + 2 ≤ 2 ^ c.log2.toNat)

/-- May a submission ring consume: its slice ACTIVE, the ring enabled and not halted, entries covered, room for a record (R174, R179)? -/
def Block.consumes (b : Block) (s : SliceId) (n : RingId) : Bool :=
  let q := (b.slice s).sq[n]
  (b.slice s).st == .active && b.boot.ready && !b.stopped && b.pwr.dev != .standby && q.enable && !q.halted && q.head != q.tail &&
  ((b.slice s).cq[q.cq]).room

/-- Start a fetch of up to eight entries from the head, not past the ring's end (R176). -/
def Block.fetch (b : Block) (s : SliceId) (n : RingId) : Block :=
  let q := (b.slice s).sq[n]
  if b.consumes s n && !q.busy && q.tries == 0 && b.tagFree then
    let k := min 8 (2 ^ q.log2.toNat - q.head)
    let b := (b.emit (.read (q.base + BitVec.ofNat 64 (64 * q.head)) (64 * k) (b.pasid s))).charge s (64 * k)
    b.modSq s n (fun q => { q with busy := true, seen := q.tail })
  else b

/-- Let every submission ring bound to a completion ring fetch (R179). -/
def Block.resumeRings (b : Block) (s : SliceId) : Block := (List.finRange 8).foldl (fun b n => b.fetch s n) b

/-- SQ_TAIL_DOORBELL (R174). One to a disabled or halted ring is ignored without an error (log 175). -/
def Block.tailDoorbell (b : Block) (s : SliceId) (n : RingId) (v : W32) : Block :=
  let q := (b.slice s).sq[n]
  let t := v.toNat % 2 ^ 16
  let k := 2 ^ q.log2.toNat
  if !b.doorbells s || !q.enable || q.halted then b
  else if k ≤ t ∨ (t + k - q.head) % k < (q.tail + k - q.head) % k then b.haltSq s n 0x01 (BitVec.ofNat 16 t) 0
  else (b.modSq s n (fun q => { q with tail := t })).fetch s n

/-- CQ_HEAD_DOORBELL (R178). -/
def Block.headDoorbell (b : Block) (s : SliceId) (n : RingId) (v : W32) : Block :=
  let c := (b.slice s).cq[n]
  let h := v.toNat % 2 ^ 16
  let k := 2 ^ c.log2.toNat
  if !b.doorbells s || !c.enable || c.halted then b
  else if k ≤ h ∨ (c.tail + k - c.head) % k < (c.tail + k - h) % k then b.haltCq s n 0x05 (BitVec.ofNat 16 h) 0
  else (b.modCq s n (fun c => { c with head := h })).resumeRings s

def execSqTailDoorbell (s' : SliceId) (n : RingId) (v : W32) (s : State) : Host.Outcome State Fault Refusal :=
  done (s.toBlock.tailDoorbell s' n v) s
def execCqHeadDoorbell (s' : SliceId) (n : RingId) (v : W32) (s : State) : Host.Outcome State Fault Refusal :=
  done (s.toBlock.headDoorbell s' n v) s

/-! ### Configuration (Tables 7.6 and 7.7, R171, R182) -/

/-- A refused enable or disable. -/
def Block.badConfig (b : Block) (s : SliceId) (isCq : Bool) (n : RingId) : Block := b.latchRing s 0x06 isCq n 0 0

/-- Write DBL_SQn_CFG with ENABLE 1. -/
def Block.sqOn (b : Block) (s : SliceId) (n : RingId) (cfg : W32) : Block :=
  let q := (b.slice s).sq[n]
  if !b.pageOpen s || q.enable then b
  else if q.open_ ≠ 0 then b.badConfig s false n
  else
    let cq : Fin 8 := Fin.ofNat 8 (bits cfg.toNat 2 0)
    let l := bits cfg.toNat 20 16
    let b := b.modSq s n (fun q => { q with log2 := BitVec.ofNat 5 l, cq := cq })
    if l < 4 ∨ 16 < l ∨ !((b.slice s).cq[cq]).enable then b.badConfig s false n
    else b.modSq s n (fun q => { q with enable := true, head := 0, tail := 0, halted := false, tries := 0, busy := false })

/-- Write DBL_SQn_CFG with ENABLE 0: a fetch in progress is discarded (R182); CQ and LOG2_SIZE are written while disabled. -/
def Block.sqOff (b : Block) (s : SliceId) (n : RingId) : Block :=
  if !b.pageOpen s then b
  else b.modSq s n (fun q => { q with enable := false, halted := false, tries := 0, busy := false })

/-- Write DBL_CQn_CFG with ENABLE 1. -/
def Block.cqOn (b : Block) (s : SliceId) (n : RingId) (cfg : W32) : Block :=
  let c := (b.slice s).cq[n]
  let irq := cfg.getLsbD 30
  if !b.pageOpen s then b
  else if c.enable then b.modCq s n (fun c => { c with irqEn := irq })
  else if c.a ≠ 0 then b.badConfig s true n
  else
    let l := bits cfg.toNat 20 16
    let v := bits cfg.toNat 10 0
    let b := b.modCq s n (fun c => { c with irqEn := irq, log2 := BitVec.ofNat 5 l, vector := BitVec.ofNat 11 v, mute := false })
    if l < 4 ∨ 16 < l ∨ (b.slice s).vecCount ≤ v then b.badConfig s true n
    else b.modCq s n (fun c => { c with enable := true, head := 0, tail := 0, a := 0, halted := false, ann := 0 })

/-- Write DBL_CQn_CFG with ENABLE 0: refused while a submission ring bound to it is enabled or not idle. -/
def Block.cqOff (b : Block) (s : SliceId) (n : RingId) : Block :=
  if !b.pageOpen s then b
  else if (b.slice s).sq.toList.any (fun q => q.cq == n && (q.enable || q.open_ != 0)) then b.badConfig s true n
  else b.modCq s n (fun c => { c with enable := false, halted := false })

def execSqEnable (s' : SliceId) (n : RingId) (cfg : W32) (s : State) : Host.Outcome State Fault Refusal :=
  done (s.toBlock.sqOn s' n cfg) s
def execSqDisable (s' : SliceId) (n : RingId) (s : State) : Host.Outcome State Fault Refusal := done (s.toBlock.sqOff s' n) s
def execCqEnable (s' : SliceId) (n : RingId) (cfg : W32) (s : State) : Host.Outcome State Fault Refusal :=
  done (s.toBlock.cqOn s' n cfg) s
def execCqDisable (s' : SliceId) (n : RingId) (s : State) : Host.Outcome State Fault Refusal := done (s.toBlock.cqOff s' n) s

/-- Writing 1 to VALID clears VALID, OVF, the error fields and LOST (R184). -/
def Block.clearLatch (b : Block) (s : SliceId) : Block :=
  if !b.pageOpen s then b
  else b.modSlice s (fun x => { x with err := { irqEn := x.err.irqEn, vector := x.err.vector, mute := x.err.mute } })

def execDblErrClear (s' : SliceId) (s : State) : Host.Outcome State Fault Refusal := done (s.toBlock.clearLatch s') s

/-! ### Tags of host reads (R163) -/

/-- A host read is answered or has failed: where all 768 tags were in use before (`b0`), channels, list walkers and rings that waited for one go
on, in this order (log 151). -/
def Block.tagFreed (b0 b : Block) : Block :=
  if b0.tagFree then b else
  let b := (List.range 32).foldl Block.resumeXfer b
  let b := (b.jobsWhere (fun j => j.phase == .walking)).foldl Block.askEntry b
  (b.slices.map (·.1)).foldl (fun (b : Block) s => b.resumeRings (Fin.ofNat 1024 s)) b

/-- DMA_READ_COMPLETION: completions answer a channel's requests oldest first (log 119); one whose request has failed is unexpected (R199). -/
def execDmaReadCompletion (c : ChanId) (r : ReadResult) (s : State) : Host.Outcome State Fault Refusal :=
  let b := s.toBlock
  done (Block.tagFreed b (
    match (b.chan c).xfer with
    | none => b.unexpected
    | some x =>
      match x.asked with
      | [] => b.unexpected
      | (_, k) :: rest =>
        if x.write then b.unexpected else
        match r with
        | .data d =>
          if x.cause ≠ 0 then (b.setXfer c { x with asked := rest, count := x.count + k }).settleXfer c else
          let d := fit k d
          let b := b.setXfer c { x with asked := rest, count := x.count + k, got := x.got ++ d }
          if x.stream then ((b.streamIn x d).resumeXfer c).pump x.job else b.resumeXfer c
        | .unsupported => b.failXfer c 0x01 true
        | .completerAbort => b.failXfer c 0x02 true
        | .poisoned => b.failXfer c 0x03 true
        | .uncorrectable => if x.target = 0 then b.failXfer c 0x03 true else b.ddrError c x
        | .late => b.unexpected)) s

/-! ### The fetcher (R175 to R177) -/

/-- Consume one entry: its Control byte is written as zero, then it is admitted. -/
def Block.consume (b : Block) (s : SliceId) (n : RingId) (d : Desc) : Block :=
  let q := (b.slice s).sq[n]
  let b := b.modSq s n (fun q => { q with head := (q.head + 1) % 2 ^ q.log2.toNat, tries := 0 })
  let b := b.hostWrite s (q.base + BitVec.ofNat 64 (64 * q.head + 0x3F)) [0]
  b.admitJob s n q.head d

/-- Entries that were read, from the head on: each covered one with OWN set is consumed; the first covered one with OWN clear stops the
fetcher and will be read again (R177). `left` counts the entries the read's doorbell covers. -/
def Block.takeEntries (s : SliceId) (n : RingId) : List Bytes → Nat → Block → Block
  | e :: r, left + 1, b =>
    if !b.consumes s n then b
    else
      let d := parseDesc e
      if d.own then Block.takeEntries s n r left (b.consume s n d)
      else b.modSq s n (fun q => { q with tries := 1 })
  | _, _, b => b

/-- DESCRIPTOR_FETCH: none is a failed read (FETCH_FAULT); what comes to a halted ring with no read out is the answer to one that has failed (R199). -/
def execDescriptorFetch (s' : SliceId) (n : RingId) (r : Option (List Bytes)) (s : State) : Host.Outcome State Fault Refusal :=
  let b := s.toBlock
  let q := (b.slice s').sq[n]
  done (
    if !q.busy then (if q.halted then b.unexpected else b) else
    Block.tagFreed b (
    let b := b.modSq s' n (fun q => { q with busy := false })
    match r with
    | none => b.haltSq s' n 0x03 (BitVec.ofNat 16 q.head) (q.base + BitVec.ofNat 64 (64 * q.head))
    | some l =>
      let k := 2 ^ q.log2.toNat
      (Block.takeEntries s' n (l.take (min 8 (k - q.head))) ((q.seen + k - q.head) % k) b).fetch s' n)) s

/-- OWN_RETRY: the entry that read with OWN clear is read again; after the eighth read the ring halts (R177). -/
def execOwnRetry (s' : SliceId) (n : RingId) (r : Option (List Bytes)) (s : State) : Host.Outcome State Fault Refusal :=
  let b := s.toBlock
  let q := (b.slice s').sq[n]
  let at_ := q.base + BitVec.ofNat 64 (64 * q.head)
  done (
    if q.tries == 0 || !b.consumes s' n then b else
    let b := (b.emit (.read at_ 64 (b.pasid s'))).charge s' 64
    match r with
    | none => b.haltSq s' n 0x03 (BitVec.ofNat 16 q.head) at_
    | some l =>
      let d := parseDesc (l.headD [])
      if d.own then (b.consume s' n d).fetch s' n
      else if 8 ≤ q.tries + 1 then b.haltSq s' n 0x02 (BitVec.ofNat 16 q.head) at_
      else b.modSq s' n (fun q => { q with tries := q.tries + 1 })) s

/-! ### Gather lists (R196, Tables 8.4 and 8.5) -/

/-- The length a buffer's list must sum to. -/
def Job.declared (j : Job) (b : Buf) : Nat :=
  match b with | .param => paramLen j.entry j.desc | .output => j.desc.outCap | _ => j.desc.inLen

/-- A walk fails with a DMA cause: the note and the job's record (log 31: the channel of a list read). -/
def Block.walkFails (b : Block) (j : Job) (cause : Byte) (a : W64) : Block :=
  let d := dmaDetail .gather cause (Config.freeNat 5 j.id) false
  let b := b.raise { source := Src.group j.quad 4, kind := 0x09, cls := 2, detail := d, addr := a.setWidth 48, job := some j.id }
  b.failJob j.id (causeStatus cause) d

/-- A walk moves on to the entry at an address: its read is still to be issued, under ATS with a translation of its own on a new page. -/
def Job.walkTo (j : Job) (a : W64) : Job :=
  { j with walkAt := a, walkAsked := false, walkTr := j.walkTr && a.toNat / 4096 == j.walkAt.toNat / 4096 }

/-- The walk of one list has ended with a given sum. -/
def Block.walkEnds (b : Block) (j : Job) (buf : Buf) : Block :=
  let sum := (Tab.get [] j.pieces (Buf.code buf)).foldl (fun a p => a + p.2) 0
  if sum ≠ j.declared buf then b.failJob j.id St.lengthMismatch (BitVec.ofNat 32 (min sum 0xFFFFFFFF))
  else
    let rest := j.walks.drop 1
    (b.modJob j.id (fun j => { j.walkTo (match rest with | x :: _ => listStart j.desc x | [] => 0) with
      walks := rest, links := 0, segs := [], segCount := 0, phase := if rest.isEmpty then .ready else j.phase })).askEntry j.id

/-- One entry of a list: the checks of Table 8.5 in their order, then the next entry, the next segment or the end. -/
def Block.walkEntry (b : Block) (j : Job) (buf : Buf) (d : Bytes) : Block :=
  let a := BitVec.ofNat 64 (fld d 0 8)
  let len := fld d 8 4
  let fl := fld d 12 4
  let link := bit fl 0; let last := bit fl 1
  let pcs := Tab.get [] j.pieces (Buf.code buf)
  let segs := if j.segs.isEmpty then [j.walkAt] else j.segs
  let bad := decide (4 ≤ fl) || (link && last) || addrForm a != 0 || (!link && (len == 0 || decide (16777216 < len))) ||
    (link && (len != 0 || a.toNat % 16 != 0)) || (!link && !last && decide (256 ≤ j.segCount + 1))
  if bad then b.walkFails j 0x10 j.walkAt
  else if link then
    if 64 < j.links + 1 then b.walkFails j 0x20 j.walkAt
    else if segs.contains a then b.walkFails j 0x22 j.walkAt
    else (b.modJob j.id (fun j => { j.walkTo a with links := j.links + 1, segs := (a :: segs).take 8, segCount := 0 })).askEntry j.id
  else if 4096 < pcs.length + 1 then b.walkFails j 0x21 j.walkAt
  else
    let j := { j.walkTo (j.walkAt + 16) with pieces := Tab.put j.pieces (Buf.code buf) (pcs ++ [(a, len)]), segs := segs, segCount := j.segCount + 1 }
    let b := b.modJob j.id (fun _ => j)
    if last then b.walkEnds j buf else b.askEntry j.id

/-- GATHER_ENTRY_READ: the answer to the entry's read that is out; the answer to one that has failed is unexpected (R199). -/
def execGatherEntryRead (id : Nat) (buf : Buf) (r : ReadResult) (s : State) : Host.Outcome State Fault Refusal :=
  let b := s.toBlock
  done (if r = .late then b.unexpected else
    Block.tagFreed b (match b.job id with
    | none => b
    | some j =>
      if j.phase ≠ .walking ∨ !j.walkAsked ∨ j.ended ∨ j.walks.head? ≠ some buf then b
      else if j.walkAt.toNat % 16 ≠ 0 then b.walkFails j 0x10 j.walkAt
      else match r with
        | .late => b
        | .data d => b.walkEntry j buf d
        | .unsupported => b.walkFails j 0x01 j.walkAt
        | .completerAbort => b.walkFails j 0x02 j.walkAt
        | .poisoned | .uncorrectable => b.walkFails j 0x03 j.walkAt)) s

/-- HOST_READ_TIMEOUT: a host read unanswered for 50 ms fails (R199): of a channel or a gather list with cause 0x04, of a submission ring's
entries with FETCH_FAULT (Table 7.10). -/
def execHostReadTimeout (t : HostRead) (s : State) : Host.Outcome State Fault Refusal :=
  let b := s.toBlock
  done (Block.tagFreed b (match t with
    | .chan c => b.chanTimeout c
    | .list id => (match b.job id with
      | some j => if j.phase = .walking ∧ j.walkAsked ∧ !j.ended then b.walkFails j 0x04 j.walkAt else b
      | none => b)
    | .ring sl n =>
      let q := (b.slice sl).sq[n]
      if q.busy then b.haltSq sl n 0x03 (BitVec.ofNat 16 q.head) (q.base + BitVec.ofNat 64 (64 * q.head)) else b)) s

/-! ### Interrupts and translations -/

/-- INTERRUPT_MODERATION: TIME has passed since the first unannounced record (R180). -/
def execInterruptModeration (s' : SliceId) (n : RingId) (s : State) : Host.Outcome State Fault Refusal :=
  let b := s.toBlock
  let c := (b.slice s').cq[n]
  done (
    if !c.irqEn || c.ann == 0 || c.modTime == 0 then b
    else (b.advanceTo c.firstAt (c.modTime.toNat * 250)).announce s' n) s

/-- Send the pending vectors of a list that are open, in its order (R169). -/
def Block.sendPending (l : List Nat) (b : Block) : Block :=
  l.foldl (fun (b : Block) v =>
    if b.host.pba.contains v then { b with host := { b.host with pba := b.host.pba.filter (· != v) } }.msix v else b) b

/-- Unmask a vector of the MSI-X table: its pending message is sent (R169). -/
def Block.unmask (b : Block) (v : Nat) : Block :=
  Block.sendPending [v] { b with host := { b.host with msixOpen := insertNat v b.host.msixOpen } }

/-- MSIX_UNMASK: a pending vector is sent (R169). -/
def execMsixUnmask (v : BitVec 11) (s : State) : Host.Outcome State Fault Refusal := done (s.toBlock.unmask v.toNat) s

/-- ATS_TRANSLATION: a channel goes on with its transfer or a walk with its list, or fails with cause 0x07; a ring without a translation halts,
with ATS enabled (R164, R197). -/
def execAtsTranslation (t : AtsTarget) (valid : Bool) (s : State) : Host.Outcome State Fault Refusal :=
  let b := s.toBlock
  done (match t with
    | .chan c => (match (b.chan c).xfer with
      | none => b
      | some x =>
        if x.translated then b
        else if valid then
          (Block.issue c (x.remain + x.pieces.length + 1) (b.modChan c (fun ch => { ch with xfer := some { x with translated := true } }))).settleXfer c
        else b.failXfer c 0x07 false)
    | .list id => (match b.job id with
      | none => b
      | some j =>
        if !b.host.ats || j.phase != .walking || j.walkAsked || j.walkTr || j.ended then b
        else if valid then (b.modJob id (fun j => { j with walkTr := true })).askEntry id
        else b.walkFails j 0x07 j.walkAt)
    | .sq sl n =>
      let q := (b.slice sl).sq[n]
      if valid || !b.host.ats || !q.enable || q.halted then b else b.haltSq sl n 0x04 (BitVec.ofNat 16 q.head) (q.base + BitVec.ofNat 64 (64 * q.head))
    | .cq sl n =>
      let c := (b.slice sl).cq[n]
      if valid || !b.host.ats || !c.enable || c.halted then b else b.haltCq sl n 0x04 (BitVec.ofNat 16 c.tail) (c.base + BitVec.ofNat 64 (32 * c.tail))) s

end Sys2Proof.Machine
end

