-- ==== Sys2Proof/Machine/Flags.lean ====
section
/-! DEFINITION. Status words: what every register of BAR0, of a slice page and of firmware reads, computed from the state (Tables 0.3,
1.8 to 1.15, 4.3, 4.4, 5.2, 6.2 to 6.7, 7.3 to 7.12, 8.8, 12.12, 13.6, 13.8). -/
namespace Sys2Proof.Machine

/-- A counter of R160 as its 64 bits. -/
def Ctr.word (c : Ctr) : Nat := c.count.toNat + b1 c.ovf * 2 ^ 63

/-- WAL_CFG of a wale (Table 4.3). -/
def Block.walCfg (b : Block) (i : Nat) : Nat :=
  let w := b.wale i
  (b.levelSet i).toNat * 2 ^ 24 + b1 w.slotPend.isSome * 4 + w.slotLen.toNat

/-- WAL_STAT of a wale (Table 4.4). -/
def Block.walStat (b : Block) (i : Nat) : Nat :=
  let w := b.wale i
  w.st.code * 2 ^ 29 + b1 w.paired * 2 ^ 28 + b1 w.lead * 2 ^ 27 + w.partner % 16 * 2 ^ 23 + b1 w.levelOn * 2 ^ 22 +
  w.order.toNat * 2 ^ 20 + w.rclass.toNat * 2 ^ 18 + b1 w.timeRed * 2 ^ 17

/-- Word n of the identity and capability block (Table 1.8). -/
def Block.capability (b : Block) : Nat → Nat
  | 0 => 0x57400000 + b.otp.stepping.toNat * 256
  | 1 => 0x04104280
  | 2 => 0x11042010
  | 3 => 0x200 * 2 ^ 22 + 8 * 2 ^ 14 + 0x10 * 2 ^ 6 + 4
  | 4 => 0x04000808
  | 5 => 0xFFFF3FFF
  | 6 => 4 * 2 ^ 28 + 2 * 2 ^ 24 + 0x7FF * 2 ^ 12 + 8 * 2 ^ 8 + 0x20
  | 7 => 0x3FFF07FF
  | 8 => b.availWales % 2 ^ 32
  | 9 => b.availWales / 2 ^ 32
  | 10 => b.availUnits
  | 11 => b.flt.gen.toNat
  | _ => 0

/-- MBX_STAT of a mailbox (Table 7.12). -/
def Block.mbxStat (b : Block) (m : Mbx) : Nat :=
  b1 m.busy * 2 ^ 31 + b1 m.done * 2 ^ 30 + b1 b.boot.rimUp * 2 ^ 29 + m.seq.toNat

/-- DBL_SQn_STAT (Table 7.5). -/
def Sq.stat (q : Sq) : Nat := b1 q.enable * 2 ^ 31 + b1 (q.open_ == 0) * 2 ^ 30 + b1 q.halted * 2 ^ 29 + q.head % 65536
/-- DBL_CQn_STAT. -/
def Cq.stat (c : Cq) : Nat := b1 c.enable * 2 ^ 31 + b1 (c.a == 0) * 2 ^ 30 + b1 c.halted * 2 ^ 29 + c.tail % 65536
/-- DBL_SQn_CFG (Table 7.6). -/
def Sq.cfgWord (q : Sq) : Nat := b1 q.enable * 2 ^ 31 + q.log2.toNat * 2 ^ 16 + q.cq.val
/-- DBL_CQn_CFG (Table 7.7). -/
def Cq.cfgWord (c : Cq) : Nat := b1 c.enable * 2 ^ 31 + b1 c.irqEn * 2 ^ 30 + c.log2.toNat * 2 ^ 16 + c.vector.toNat
/-- DBL_CQn_MOD. -/
def Cq.modWord (c : Cq) : Nat := c.modTime.toNat * 2 ^ 16 + c.modCount.toNat

/-- DBL_ERR (Table 7.11). -/
def ErrLatch.word (e : ErrLatch) : Nat :=
  b1 e.valid * 2 ^ 31 + b1 e.ovf * 2 ^ 30 + e.code.toNat * 2 ^ 16 + b1 e.cq * 2 ^ 11 + e.ring.val * 2 ^ 8

/-- DMA_ERR_STAT (Table 8.8). -/
def Chan.stat (c : Chan) : Nat :=
  b1 c.valid * 2 ^ 31 + b1 c.halted * 2 ^ 30 + b1 c.ovf * 2 ^ 29 + c.cause.toNat * 2 ^ 16 + b1 c.write * 2 ^ 15 + c.target.toNat * 2 ^ 12 + c.slice.val

/-- FLT_STATUS (Table 13.6). -/
def Faults.status (f : Faults) : Nat := b1 f.sealed * 2 ^ 31 + b1 f.halted * 2 ^ 30 + f.worst.val * 2 ^ 16 + b1 f.wrap

/-- TAM_STATUS (Table 12.12). -/
def Block.tamStatus (b : Block) : Nat :=
  b1 (b.tam.any && b.tam.level == .zeroiseSeal) * 2 ^ 31 + b1 b.tam.halted * 2 ^ 30 + b1 (b.bat.zeroised && b.bat.rootKey.isNone) * 2 ^ 29 + b1 b.bat.battEvent * 2 ^ 28 +
  b1 b.tam.any * 8 + b.tam.level.code

/-- Four bits for each entry of a list, the first lowest. -/
def nibbles (l : List Nat) : Nat := l.foldr (fun x a => x + 16 * a) 0

/-- TIM_STATUS (Table 13.8). -/
def Block.timStatus (b : Block) : Nat := b1 b.wrapped * 2 ^ 31 + b1 b.holdover * 4 + b1 b.timeLocked * 2 + b1 b.timeFabric

/-- The lower or upper half of a 64-bit register. -/
def half (hi : Bool) (v : Nat) : Nat := if hi then v / 2 ^ 32 % 2 ^ 32 else v % 2 ^ 32

/-- The 32 bits at offset `o` of a byte string. -/
def wordAt (d : Bytes) (o : Nat) : Nat := fld d o 4

/-- The newest record of a list whose sequence is congruent to slot n modulo 32, as 32 bytes. -/
def ringSlot (l : List (W32 × Bytes)) (seq : W32) (n : Nat) : Bytes :=
  match l.find? (fun p => p.1.toNat % 32 == n && decide ((seq - p.1).toNat < 32)) with
  | some p => p.2
  | none => zeros 32

/-- The fault collector window (Table 13.6). -/
def Block.readFault (b : Block) (o : Nat) : Nat :=
  let f := b.flt
  if o = 0x3000 then f.status
  else if o = 0x3004 then f.seq.toNat
  else if o = 0x3008 then f.lost.toNat
  else if o = 0x300C then f.boot.toNat
  else if 0x3010 ≤ o ∧ o < 0x3038 then half ((o - 0x3010) % 8 == 4) (Tab.get {} f.cnt ((o - 0x3010) / 8)).word
  else if o = 0x3040 then half false f.fence.wale.toNat
  else if o = 0x3044 then half true f.fence.wale.toNat
  else if o = 0x3048 then f.fence.unit.toNat
  else if o = 0x304C then f.fence.dma.toNat
  else if o = 0x3050 then f.fence.grp.toNat
  else if o = 0x3054 then f.fence.dev.toNat
  else if 0x3400 ≤ o ∧ o < 0x3800 then
    wordAt (ringSlot (f.log.map (fun p => (p.1, noteBytes p.2))) f.seq ((o - 0x3400) / 32)) (o % 32)
  else if 0x3800 ≤ o ∧ o < 0x3C00 then
    let c := b.chan ((o - 0x3800) / 32)
    match o % 32 / 4 with
    | 0 => c.stat
    | 1 => c.jobSeq.toNat
    | 2 => half false c.addr.toNat
    | 3 => half true c.addr.toNat
    | 4 => half false c.time.toNat
    | 5 => half true c.time.toNat
    | 6 => c.remain.toNat
    | _ => c.count.toNat
  else 0

/-- The tamper status mirror (Tables 12.10 and 12.12). -/
def Block.readTamper (b : Block) (o : Nat) : Nat :=
  let resp := b.tam.policy.resp.map Resp.code
  match (o - 0x5000) / 4 with
  | 0 => b.tamStatus
  | 1 => b.bat.sticky.toNat
  | 2 => b.tam.active.toNat
  | 3 => b.otp.fused.toNat
  | 4 => b.bat.otpPending % 256 * 256 + b.otp.zeroCount % 256
  | 5 => nibbles (resp.take 8)
  | 6 => nibbles (resp.drop 8)
  | 7 => b.bat.seq.toNat
  | 8 => nibbles ((b.tam.loops.toList.map (·.toNat)) ++ b.tam.switches.toList.map (·.toNat))
  | _ => if 0x5100 ≤ o ∧ o < 0x5500 then
      wordAt (ringSlot (b.tam.log.map (fun e => (e.seq, eventBytes e))) b.bat.seq ((o - 0x5100) / 32)) (o % 32) else 0

/-- The device dispatcher counters by their offset (Table 6.5). -/
def Dispatcher.ctr (d : Dispatcher) : Nat → Ctr
  | 0 => d.grants | 1 => d.coldGrants | 2 => d.trJobs | 3 => d.coopPairs | 4 => d.coopJobs | 5 => d.preempts | 6 => d.holdStalls
  | _ => d.promotions
/-- The crossbar counters of a quadrant by their offset. -/
def Quad.ctr (q : Quad) : Nat → Ctr
  | 0 => q.lost | 1 => q.stale | 2 => q.lockCnt | _ => q.lockTo

/-- The dispatcher's registers (Tables 6.2, 6.3 and 6.5). -/
def Block.readDsp (b : Block) (o : Nat) : Nat :=
  if o = 0x6000 then b.dsp.cfg.toNat
  else if 0x6010 ≤ o ∧ o < 0x6020 then (b.dsp.warm[(o - 0x6010) / 4]?.getD 0).toNat
  else if 0x6100 ≤ o ∧ o < 0x6120 then (b.jobs.filter (fun j => j.listed && j.level.val == (o - 0x6100) / 4)).length
  else if o = 0x6120 then b.holdUsed
  else if o = 0x6124 then b.dsp.skeins.length
  else if o = 0x6128 then (b.jobs.filter (fun j => j.phase == .spilled && !j.ended)).length
  else if o = 0x612C then bitmap 4 (fun q => (b.reservedJob q).isSome)
  else if 0x6140 ≤ o ∧ o < 0x6180 then half (o % 8 == 4) (b.dsp.ctr ((o - 0x6140) / 8)).word
  else if 0x6200 ≤ o ∧ o < 0x6280 then half (o % 8 == 4) ((b.quad ((o - 0x6200) / 32)).ctr (o % 32 / 8)).word
  else 0

/-- The MSI-X table: address, data and mask of each vector. -/
def HostIf.table (h : HostIf) (v : Nat) : Nat → Nat
  | 0 => half false (Tab.get 0 h.msixAddr v).toNat
  | 1 => half true (Tab.get 0 h.msixAddr v).toNat
  | 2 => (Tab.get 0 h.msixData v).toNat
  | _ => b1 (!h.msixOpen.contains v)

/-- What 32 bits of BAR0 read (Table 7.2). A sealed device answers only the ranges of R318. -/
def Block.readBar0 (b : Block) (o : Nat) : Nat :=
  if !b.boot.coreUp && !b.flt.sealed then 0
  else if o < 0x1000 then b.capability (o / 4)
  else if 0x3000 ≤ o ∧ o < 0x4000 then b.readFault o
  else if 0x5000 ≤ o ∧ o < 0x6000 then b.readTamper o
  else if b.flt.sealed then 0
  else if o = 0x1004 then b.mbxStat b.admin
  else if o = 0x1008 then b1 b.admin.irqEn * 2 ^ 31 + b.admin.vector.toNat
  else if 0x1800 ≤ o ∧ o < 0x2000 then ofLe (b.admin.window.readAll (o - 0x1800) 4)
  else if o = 0x2000 then b.host.evtStatus.toNat
  else if o = 0x2004 then b.host.evtEnable.toNat
  else if o = 0x2008 then b.host.evtVector.toNat
  else if o = 0x4000 then half false b.now.toNat
  else if o = 0x4004 then b.nowHi.toNat
  else if o = 0x4008 then b.timStatus
  else if 0x6000 ≤ o ∧ o < 0x7000 then b.readDsp o
  else if 0x7000 ≤ o ∧ o < 0x7100 then bitmap 32 (fun i => b.host.pba.contains (8 * (o - 0x7000) + i))
  else if 0x8000 ≤ o then b.host.table ((o - 0x8000) / 16) (o % 16 / 4)
  else 0

/-- What 32 bits of a slice's page read (Table 7.4). -/
def Block.readPage (b : Block) (s : SliceId) (o : Nat) : Nat :=
  let x := b.slice s
  let n : Fin 8 := Fin.ofNat 8 (o / 16)
  if !b.boot.coreUp || b.flt.sealed || x.st == .free || x.st == .receiving then 0
  else if 0x040 ≤ o ∧ o < 0x060 then (x.sq[Fin.ofNat 8 (o / 4)]).stat
  else if 0x060 ≤ o ∧ o < 0x080 then (x.cq[Fin.ofNat 8 (o / 4)]).stat
  else if 0x100 ≤ o ∧ o < 0x180 then
    let q := x.sq[n]
    match o % 16 / 4 with
    | 0 => half false q.base.toNat | 1 => half true q.base.toNat | 2 => q.cfgWord | _ => 0
  else if 0x180 ≤ o ∧ o < 0x200 then
    let c := x.cq[n]
    match o % 16 / 4 with
    | 0 => half false c.base.toNat | 1 => half true c.base.toNat | 2 => c.cfgWord | _ => c.modWord
  else if o = 0x300 then x.err.word
  else if o = 0x304 then x.err.index.toNat
  else if o = 0x308 ∨ o = 0x30C then half (o == 0x30C) x.err.addr.toNat
  else if o = 0x310 ∨ o = 0x314 then half (o == 0x314) x.err.time.toNat
  else if o = 0x318 then b1 x.err.irqEn * 2 ^ 31 + x.err.vector.toNat
  else if o = 0x31C then x.err.lost.toNat
  else if 0x700 ≤ o ∧ o < 0x728 then
    half (o % 8 == 4) (match (o - 0x700) / 8 with | 0 => x.ctr.admitted | 1 => x.ctr.done | 2 => x.ctr.wait | 3 => x.ctr.run | _ => x.ctr.held).word
  else if o = 0x728 then
    (b.jobs.filter (fun j => j.inSlice s && j.phase == .held && j.holding)).length % 65536 * 65536 +
    (b.jobs.filter (fun j => j.inSlice s && j.listed)).length % 65536
  else if 0x780 ≤ o ∧ o < 0x7B0 then b.capability ((o - 0x780) / 4)
  else if o = 0x7B0 then b.boot.catGen.toNat
  else if o = 0x804 then b.mbxStat x.mbx
  else if o = 0x808 then b1 x.mbx.irqEn * 2 ^ 31 + x.mbx.vector.toNat
  else if 0x1000 ≤ o ∧ o < 0x1800 then ofLe (x.mbx.window.readAll (o - 0x1000) 4)
  else 0

/-- A field of the PCIe configuration as the host set it: payload and read request sizes in PCIe's code, where n stands for 128 · 2^n (log 122); an enable of a
capability that Table 7.1 does not list reads 0. -/
def HostIf.cfg (h : HostIf) : CfgReg → Nat
  | .maxPayload => h.mps.log2 - 7
  | .maxReadRequest => h.mrrs.log2 - 7
  | .relaxedOrdering => b1 h.relaxed
  | .ats => b1 h.ats
  | .pasid => b1 h.pasidOn
  | .msix => b1 h.msixOn
  | .aerStatus => h.aerStatus.toNat
  | .aerMask => h.aerMask.toNat
  | .aspm => 2 * b1 h.l1
  | .ltr => b1 h.ltr
  | .pri | .atomics => 0

/-- What a 32-bit read of a register returns. -/
def Block.readReg (b : Block) (a : RegAddr) : W32 :=
  match a with
  | .cfg r => BitVec.ofNat 32 (b.host.cfg r)
  | .bar0 o => BitVec.ofNat 32 (b.readBar0 o.toNat)
  | .bar2 o => BitVec.ofNat 32 (b.readPage (Fin.ofNat 1024 (o.toNat / 8192)) (o.toNat % 8192))

/-- The slice counters as SLICE_COUNTERS returns them: Table 6.7 from 0x700 to 0x72F. -/
def Block.sliceCounters (b : Block) (s : SliceId) : Bytes :=
  (List.range 12).flatMap (fun i => le 4 (b.readPage s (0x700 + 4 * i)))

end Sys2Proof.Machine
end

