-- ==== Sys2Proof/Machine/Registers.lean ====
section
/-! DEFINITION. Writes to the registers of BAR0 and of the slice pages (R8, R10, R160, R167, R170), and what the time base does beside
counting (R322). A 64-bit write is its two 32-bit halves, lower first; a doorbell takes only a 32-bit write. -/
namespace Sys2Proof.Machine

/-- OVF of a counter is cleared by writing 1 to bit 63: bit 31 of the upper half (R160). -/
def Ctr.ack (c : Ctr) (hi : Bool) (v : W32) : Ctr := if hi && v.getLsbD 31 then { c with ovf := false } else c

/-- A half of a 64-bit word replaced. -/
def putHalf (old : W64) (hi : Bool) (v : W32) : W64 :=
  if hi then BitVec.ofNat 64 (v.toNat * 2 ^ 32 + old.toNat % 2 ^ 32) else BitVec.ofNat 64 (old.toNat / 2 ^ 32 * 2 ^ 32 + v.toNat)

/-- Change the enabled set of events: a message goes out when it changes from empty to not empty (R168). -/
def Block.setEvents (b : Block) (status enable : Byte) : Block :=
  let was := b.host.evtStatus &&& b.host.evtEnable
  let b := { b with host := { b.host with evtStatus := status, evtEnable := enable } }
  if was = 0 ∧ status &&& enable ≠ 0 then b.msix b.host.evtVector.toNat else b

/-- Write four bytes of a frame window; writes while BUSY is 1 are ignored (R185). -/
def Mbx.put (m : Mbx) (o : Nat) (v : W32) : Mbx := if m.busy then m else { m with window := m.window.writeAll o (le 4 v.toNat) }

/-- MBX_STAT.DONE is cleared by writing 1. -/
def Mbx.ack (m : Mbx) (v : W32) : Mbx := if v.getLsbD 30 then { m with done := false } else m

/-- MBX_IRQ. -/
def Mbx.irq (m : Mbx) (v : W32) : Mbx := { m with irqEn := v.getLsbD 31, vector := v.setWidth 11 }

/-- An entry of the MSI-X table: address, data, mask; unmasking sends a pending message (R169). -/
def Block.writeVector (b : Block) (v : Nat) (part : Nat) (x : W32) : Block :=
  let h := b.host
  match part with
  | 0 => { b with host := { h with msixAddr := Tab.put h.msixAddr v (putHalf (Tab.get 0 h.msixAddr v) false x) } }
  | 1 => { b with host := { h with msixAddr := Tab.put h.msixAddr v (putHalf (Tab.get 0 h.msixAddr v) true x) } }
  | 2 => { b with host := { h with msixData := Tab.put h.msixData v x } }
  | _ =>
    if x.getLsbD 0 then { b with host := { h with msixOpen := h.msixOpen.filter (· != v) } } else b.unmask v

/-- DMA_ERR_STAT: VALID clears the latch but COUNT, OVF clears alone (R202). -/
def Chan.ack (c : Chan) (v : W32) : Chan :=
  let c := if v.getLsbD 29 then { c with ovf := false } else c
  if v.getLsbD 31 then
    { c with valid := false, ovf := false, cause := 0, write := false, target := 0, slice := 0, jobSeq := 0, addr := 0, time := 0, remain := 0 }
  else c

/-- The fault collector window: LOG_WRAP, the counters' OVF, the channels' latches. -/
def Block.writeFault (b : Block) (o : Nat) (v : W32) : Block :=
  if o = 0x3000 then (if v.getLsbD 0 then { b with flt := { b.flt with wrap := false } } else b)
  else if 0x3010 ≤ o ∧ o < 0x3038 then
    let c := (o - 0x3010) / 8
    { b with flt := { b.flt with cnt := Tab.put b.flt.cnt c ((Tab.get {} b.flt.cnt c).ack (o % 8 == 4) v) } }
  else if 0x3800 ≤ o ∧ o < 0x3C00 ∧ o % 32 = 0 then b.modChan ((o - 0x3800) / 32) (fun c => c.ack v)
  else b

/-- OVF of a dispatcher counter. -/
def Dispatcher.ack (d : Dispatcher) (i : Nat) (hi : Bool) (v : W32) : Dispatcher :=
  match i with
  | 0 => { d with grants := d.grants.ack hi v }
  | 1 => { d with coldGrants := d.coldGrants.ack hi v }
  | 2 => { d with trJobs := d.trJobs.ack hi v }
  | 3 => { d with coopPairs := d.coopPairs.ack hi v }
  | 4 => { d with coopJobs := d.coopJobs.ack hi v }
  | 5 => { d with preempts := d.preempts.ack hi v }
  | 6 => { d with holdStalls := d.holdStalls.ack hi v }
  | _ => { d with promotions := d.promotions.ack hi v }

/-- OVF of a crossbar counter. -/
def Quad.ack (q : Quad) (i : Nat) (hi : Bool) (v : W32) : Quad :=
  match i with
  | 0 => { q with lost := q.lost.ack hi v }
  | 1 => { q with stale := q.stale.ack hi v }
  | 2 => { q with lockCnt := q.lockCnt.ack hi v }
  | _ => { q with lockTo := q.lockTo.ack hi v }

/-- DSP_CFG, DSP_WARMq (their reserved bits stay 0; a raised POOL wakes wales, R153) and the counters. -/
def Block.writeDsp (b : Block) (o : Nat) (v : W32) : Block :=
  if o = 0x6000 then { b with dsp := { b.dsp with cfg := v &&& 0xFFFFFF01 } }
  else if 0x6010 ≤ o ∧ o < 0x6020 then { b with dsp := { b.dsp with warm := b.dsp.warm.setIfInBounds ((o - 0x6010) / 4) (v &&& 0x00FFFF1F) } }.refill.touchQuiet ((o - 0x6010) / 4)
  else if 0x6140 ≤ o ∧ o < 0x6180 then { b with dsp := b.dsp.ack ((o - 0x6140) / 8) (o % 8 == 4) v }
  else if 0x6200 ≤ o ∧ o < 0x6280 then b.modQuad ((o - 0x6200) / 32) (fun q => q.ack (o % 32 / 8) (o % 8 == 4) v)
  else b

/-- What the host sets in the PCIe configuration (R163): sizes outside Table 7.1 are not taken; enabling MSI-X sends what is pending and open
(log 122). -/
def Block.writeCfg (b : Block) (r : CfgReg) (v : W32) : Block :=
  let h := b.host
  let n := v.toNat % 8
  let on := v.getLsbD 0
  match r with
  | .maxPayload => if n ≤ 2 then { b with host := { h with mps := 128 * 2 ^ n } } else b
  | .maxReadRequest => if n ≤ 5 then { b with host := { h with mrrs := 128 * 2 ^ n } } else b
  | .relaxedOrdering => { b with host := { h with relaxed := on } }
  | .ats => { b with host := { h with ats := on } }
  | .pasid => { b with host := { h with pasidOn := on } }
  | .msix => Block.sendPending (h.pba.filter h.msixOpen.contains) { b with host := { h with msixOn := on } }
  | .aerStatus => { b with host := { h with aerStatus := h.aerStatus &&& ~~~v } }
  | .aerMask => { b with host := { h with aerMask := v } }
  | .aspm => { b with host := { h with l1 := v.getLsbD 1 } }
  | .ltr => { b with host := { h with ltr := on } }
  | .pri | .atomics => b

/-- A 32-bit write to BAR0 (Table 7.2). What MBX_CTRL.GO does stands with the frames (R185). -/
def Block.writeBar0 (b : Block) (o : Nat) (v : W32) : Block :=
  if o = 0x1004 then { b with admin := b.admin.ack v }
  else if o = 0x1008 then { b with admin := b.admin.irq v }
  else if 0x1800 ≤ o ∧ o < 0x2000 then { b with admin := b.admin.put (o - 0x1800) v }
  else if o = 0x2000 then b.setEvents (b.host.evtStatus &&& ~~~(v.setWidth 8)) b.host.evtEnable
  else if o = 0x2004 then b.setEvents b.host.evtStatus (v.setWidth 8)
  else if o = 0x2008 then { b with host := { b.host with evtVector := v.setWidth 11 } }
  else if 0x3000 ≤ o ∧ o < 0x4000 then b.writeFault o v
  else if 0x6000 ≤ o ∧ o < 0x7000 then b.writeDsp o v
  else if 0x8000 ≤ o then b.writeVector ((o - 0x8000) / 16) (o % 16 / 4) v
  else b

/-- A ring base is 4 KiB aligned: bits [11:0] read 0. -/
def ringBase (old : W64) (hi : Bool) (v : W32) : W64 := putHalf old hi v &&& ~~~0xFFF

/-- Configuration of a submission ring (Table 7.6): its fields are written only while ENABLED is 0 (R171). -/
def Block.writeSq (b : Block) (s : SliceId) (n : RingId) (part : Nat) (v : W32) : Block :=
  let q := (b.slice s).sq[n]
  match part with
  | 0 => if q.enable then b else b.modSq s n (fun q => { q with base := ringBase q.base false v })
  | 1 => if q.enable then b else b.modSq s n (fun q => { q with base := ringBase q.base true v })
  | 2 =>
    if v.getLsbD 31 then b.sqOn s n v
    else
      let b := b.sqOff s n
      if q.enable then b else b.modSq s n (fun q => { q with log2 := BitVec.ofNat 5 (bits v.toNat 20 16), cq := Fin.ofNat 8 v.toNat })
  | _ => b

/-- Configuration of a completion ring (Table 7.7). -/
def Block.writeCq (b : Block) (s : SliceId) (n : RingId) (part : Nat) (v : W32) : Block :=
  let c := (b.slice s).cq[n]
  match part with
  | 0 => if c.enable then b else b.modCq s n (fun c => { c with base := ringBase c.base false v })
  | 1 => if c.enable then b else b.modCq s n (fun c => { c with base := ringBase c.base true v })
  | 2 =>
    if v.getLsbD 31 then b.cqOn s n v
    else if c.enable then
      let b := b.cqOff s n
      if ((b.slice s).cq[n]).enable then b else b.modCq s n (fun c => { c with irqEn := v.getLsbD 30 })
    else b.modCq s n (fun c => { c with
      irqEn := v.getLsbD 30, log2 := BitVec.ofNat 5 (bits v.toNat 20 16), vector := BitVec.ofNat 11 v.toNat, mute := false })
  | _ => b.modCq s n (fun c => { c with modTime := BitVec.ofNat 16 (v.toNat / 65536), modCount := v.setWidth 8 })

/-- OVF of a slice counter. -/
def SliceCtrs.ack (c : SliceCtrs) (i : Nat) (hi : Bool) (v : W32) : SliceCtrs :=
  match i with
  | 0 => { c with admitted := c.admitted.ack hi v }
  | 1 => { c with done := c.done.ack hi v }
  | 2 => { c with wait := c.wait.ack hi v }
  | 3 => { c with run := c.run.ack hi v }
  | _ => { c with held := c.held.ack hi v }

/-- A 32-bit write to a slice's page (Table 7.4), where the page takes writes at all (Table 9.1). -/
def Block.writePage (b : Block) (s : SliceId) (o : Nat) (v : W32) : Block :=
  if !b.pageOpen s then b
  else if o < 0x020 then b.tailDoorbell s (Fin.ofNat 8 (o / 4)) v
  else if o < 0x040 then b.headDoorbell s (Fin.ofNat 8 (o / 4)) v
  else if 0x100 ≤ o ∧ o < 0x180 then b.writeSq s (Fin.ofNat 8 (o / 16)) (o % 16 / 4) v
  else if 0x180 ≤ o ∧ o < 0x200 then b.writeCq s (Fin.ofNat 8 (o / 16)) (o % 16 / 4) v
  else if o = 0x300 then
    let b := if v.getLsbD 30 then b.modSlice s (fun x => { x with err := { x.err with ovf := false } }) else b
    if v.getLsbD 31 then b.clearLatch s else b
  else if o = 0x318 then b.modSlice s (fun x => { x with err := { x.err with irqEn := v.getLsbD 31, vector := v.setWidth 11, mute := false } })
  else if 0x700 ≤ o ∧ o < 0x728 then b.modSlice s (fun x => { x with ctr := x.ctr.ack ((o - 0x700) / 8) (o % 8 == 4) v })
  else if o = 0x804 then b.modSlice s (fun x => { x with mbx := x.mbx.ack v })
  else if o = 0x808 then b.modSlice s (fun x => { x with mbx := x.mbx.irq v })
  else if 0x1000 ≤ o ∧ o < 0x1800 then b.modSlice s (fun x => { x with mbx := x.mbx.put (o - 0x1000) v })
  else b

/-- Does the device take register writes: its core domain runs and it is not sealed (R318)? -/
def Block.takesWrites (b : Block) : Bool := b.boot.coreUp && !b.flt.sealed

/-- TIM_NOW_LO_READ: the upper half is latched (R322). -/
def execTimNowLoRead (s : State) : Host.Outcome State Fault Refusal :=
  let b := s.toBlock
  done (if b.takesWrites then { b with nowHi := BitVec.ofNat 32 (b.now.toNat / 2 ^ 32) } else b) s

/-- TIME_BASE_WRAP: the counter passes from 2^64 − 1 to 0 and WRAPPED is set; intervals are taken modulo 2^64 (R322). -/
def execTimeBaseWrap (s : State) : Host.Outcome State Fault Refusal :=
  let b := s.toBlock
  done (if b.boot.coreUp then { b with now := 0, wrapped := true } else b) s

end Sys2Proof.Machine
end

