-- ==== Sys2Proof/Machine/Mailbox.lean ====
section
/-! DEFINITION. Mailboxes (R185 to R191, R419): a request frame is checked, served and answered. Each command is a submission of its
frame by GO. -/
namespace Sys2Proof.Machine

/-- What a command's tables say of it: its code, its mailboxes, the payload lengths of its layout, the lifecycle states it is accepted
in, whether it is served before the ready indication (R378) and in recovery (R376), and the longest payload its DMA carries. -/
structure Cmd where
  code : W16
  admin : Bool := true
  slice : Bool := false
  len : Nat → Bool := fun n => n == 0
  states : List Lifecycle := [.factory, .provisioned, .deployed]
  early : Bool := false
  recovery : Bool := false
  most : Nat := 16777216

/-- Every lifecycle state (R419: "Any"). -/
def anyLife : List Lifecycle := [.factory, .provisioned, .deployed, .decommissioned, .spent]
/-- PROVISIONED and DEPLOYED. -/
def ownedLife : List Lifecycle := [.provisioned, .deployed]

/-- A payload of exactly n bytes. -/
def exactly (n : Nat) : Nat → Bool := fun k => k == n

/-- Is a GO taken (R185, R188, Table 9.1)? Recovery's ROM serves the admin mailbox (R376). -/
def Block.takesGo (b : Block) (x : Option SliceId) : Bool :=
  b.boot.coreUp && !b.flt.sealed && !(b.box x).busy &&
  (match x with
   | none => b.boot.rimUp || b.boot.recovery
   | some s => b.boot.rimUp && (b.slice s).st != .free && (b.slice s).st != .wedged && (b.slice s).st != .receiving)

/-- The window's payload, or the response capacity of a DMA request (R186). -/
def replyRoom (r : Req) : Nat := if r.dma then r.respCap else 2032

/-- What is wrong with a request's frame: its version, a command its mailbox does not serve, its reserved fields, its length (R187). -/
def Block.frameFails (c : Cmd) (r : Req) : List (Bool × W16 × W32) :=
  [(r.version != 3, St.badParam, 0),
   (!(if r.box.isNone then c.admin else c.slice), St.badOpcode, 0),
   (r.reserved != 0 || r.declared != r.payload.length && r.readFault.isNone || decide (c.most < r.declared) ||
     (!r.dma && decide (2032 < r.declared)), St.badParam, 0)]

/-- The checks every command shares: its frame, the host read of the payload, readiness (R378), then the refusals of its own: `own` is its slice
command's state check (R212), which comes before the lifecycle as every narrower refusal does (R419). -/
def Block.refuses (b : Block) (c : Cmd) (r : Req) (own : Option (W16 × W32)) : Option (W16 × W32) :=
  let cause := r.readFault.getD 0
  firstFail (Block.frameFails c r ++ [
    (r.readFault.isSome, causeStatus cause, dmaDetail .input cause (Config.freeNat 12 r.seq.toNat) false),
    (!c.len r.payload.length, St.badParam, 0),
    (b.boot.recovery && !c.recovery, St.contextBusy, 0xE0),
    (!b.boot.ready && !b.boot.recovery && !c.early, St.contextBusy, 0xE0),
    ((match r.box with
      | some s => (b.slice s).st != .active && (c.code.toNat < 0x120 || 0x122 < c.code.toNat)
      | none => false),
      St.contextBusy, match r.box with | some s => BitVec.ofNat 32 (b.slice s).st.code | none => 0),
    (own.isSome, (own.getD (0, 0)).1, (own.getD (0, 0)).2),
    (!c.states.contains b.otp.lifecycle && !b.boot.recovery, St.keyState, BitVec.ofNat 32 b.otp.lifecycle.code)])

/-- Answer a served command: a payload longer than its room is not written and the command has no effect (R186); a failure has none. -/
def Block.answer (b : Block) (c : Cmd) (r : Req) (x : Block × Reply) : Block :=
  if x.2.status ≠ St.success then x.1.reply r c.code { x.2 with out := [] }
  else if replyRoom r < x.2.out.length then b.reply r c.code (.fail St.outputTooSmall (BitVec.ofNat 32 x.2.out.length))
  else x.1.reply r c.code x.2

/-- Take a GO: a DMA payload is read first, from a slice's mailbox as its tokens allow (R186, R204); then `go` serves the command. -/
def Block.taken (b : Block) (c : Cmd) (r : Req) (go : Block → Block) : Block :=
  if !b.takesGo r.box then b else
  if r.dma && !(b.box r.box).fetched && (firstFail (Block.frameFails c r)).isNone then
    let (b', a, n) := Block.boxReads r.box (r.declared + 1) r.reqAddr r.declared b
    if n = 0 then go b'
    else b'.modBox r.box (fun m => { m with busy := true, cmd := some r, code := c.code, toRead := some (a, n) })
  else go b

/-- A command served at once; `own` is the state check of a slice command. -/
def Block.commandIn (b : Block) (c : Cmd) (r : Req) (own : Block → Option (W16 × W32)) (body : Block → Block × Reply) : Block :=
  b.taken c r (fun b => match b.refuses c r (own b) with
    | some (st, d) => b.reply r c.code (.fail st d)
    | none => b.answer c r (body b))

/-- A command without such a check. -/
def Block.command (b : Block) (c : Cmd) (r : Req) (body : Block → Block × Reply) : Block := b.commandIn c r (fun _ => none) body

/-- A command whose answer may have to wait: `body` gives either an answer or the block in which it is in progress, BUSY set. -/
def Block.commandWait (b : Block) (c : Cmd) (r : Req) (own : Block → Option (W16 × W32)) (body : Block → Block ⊕ (Block × Reply)) : Block :=
  b.taken c r (fun b => match b.refuses c r (own b) with
    | some (st, d) => b.reply r c.code (.fail st d)
    | none =>
      match body b with
      | .inl x => x.modBox r.box (fun m => { m with busy := true, cmd := some r, code := c.code })
      | .inr y => b.answer c r y)

/-- The Rim has stopped: RIM_UP clears, RIM_DOWN sets, and every busy mailbox answers ABORTED, Detail 1 (R188); so does the job that the admin
mailbox's command runs (R248). Digest contexts are IDLE and SPDM sessions lost (R256, Table 16.6). -/
def Block.rimStops (b : Block) : Block :=
  let b := { b with boot := { b.boot with rimUp := false } }.event 7
  let b := { b with att := { b.att with digs := [] }, host := { b.host with doe := {}, mctp := {} } }
  let b := Block.failJobs (b.jobsWhere (·.dev)) St.aborted 1 b
  let b := b.complete none (.fail St.aborted 1)
  (b.slices.map (·.1)).foldl (fun b i =>
    if (b.slice i).mbx.busy then b.complete (some (Fin.ofNat 1024 i)) (.fail St.aborted 1) else b) b

/-! ### Versions and the catalogue (Tables 7.16, 7.17, R189) -/

/-- GET_VERSION: minor protocol version and the running image; recovery reports firmware version 0. -/
def execGetVersion (r : Req) (s : State) : Host.Outcome State Fault Refusal :=
  done (s.toBlock.command { code := 0x0001, slice := true, states := anyLife, early := true, recovery := true } r (fun b =>
    let sl := b.boot.slots[b.boot.running]
    let v := if b.boot.recovery then 0 else sl.version.toNat
    (b, .ok (le 1 3 ++ le 1 (Config.freeNat 13 v) ++ le 2 0 ++ le 4 v ++ le 4 (if b.boot.recovery then 0 else sl.security) ++
      le 4 b.boot.catGen.toNat ++ le 4 (b.visible r.box).length)))) s

/-- CAT_QUERY: entries from an index on, in ascending opcode order, as many as are asked for and fit (R189). -/
def execCatQuery (r : Req) (s : State) : Host.Outcome State Fault Refusal :=
  done (s.toBlock.command { code := 0x0002, slice := true, len := exactly 8 } r (fun b =>
    let p := r.payload
    let all := b.visible r.box
    let n := fld p 4 2
    let n := if r.dma then n else min n 63
    let l := (all.drop (fld p 0 4)).take n
    if fld p 6 2 ≠ 0 then (b, .fail St.badParam 0)
    else (b, .ok (le 4 b.boot.catGen.toNat ++ le 4 all.length ++ le 2 l.length ++ le 2 0 ++ l.flatMap entryBytes)))) s

/-! ### Wale registers (R75, R76, R190) -/

/-- The wale index of a WAL_ payload, or how it fails. -/
def walIndex (p : Bytes) : Except Reply WaleId :=
  if fld p 2 2 ≠ 0 then .error (.fail St.badParam 0)
  else if h : fld p 0 2 < 64 then .ok ⟨fld p 0 2, h⟩ else .error (.fail St.badParam 1)

/-- A WAL_ command that reads one register. -/
def Block.walRead (b : Block) (code : W16) (r : Req) (f : Block → Nat → Nat) : Block :=
  b.command { code := code, len := exactly 4 } r (fun b =>
    match walIndex r.payload with
    | .error e => (b, e)
    | .ok w => (b, .ok (le 4 (f b w))))

def execWalCfgRead (r : Req) (s : State) : Host.Outcome State Fault Refusal := done (s.toBlock.walRead 0x0010 r Block.walCfg) s
def execWalStatRead (r : Req) (s : State) : Host.Outcome State Fault Refusal := done (s.toBlock.walRead 0x0012 r Block.walStat) s
def execWalCsbRead (r : Req) (s : State) : Host.Outcome State Fault Refusal :=
  done (s.toBlock.walRead 0x0013 r (fun b w => (b.wale w).csb.toNat)) s

/-- Does a wale hold a job, a spilled job of its own or a wipe in progress (R76)? -/
def Block.waleHolds (b : Block) (w : Nat) : Bool :=
  b.waleBusy w || (b.quad (w / 16)).spills.any (fun y => y.home == w)

/-- WAL_CFG_WRITE: SLOT_LEN takes effect on an idle wale, else it is held pending (R76). -/
def execWalCfgWrite (r : Req) (s : State) : Host.Outcome State Fault Refusal :=
  done (s.toBlock.command { code := 0x0011, len := exactly 8 } r (fun b =>
    match walIndex r.payload with
    | .error e => (b, e)
    | .ok w =>
      let v := BitVec.ofNat 2 (fld r.payload 4 4)
      (if b.waleHolds w then b.modWale w (fun x => { x with slotPend := some v })
       else b.modWale w (fun x => { x with slotLen := v, slotPend := none }), .ok []))) s

end Sys2Proof.Machine
end

