-- ==== Sys2Proof/Machine/ControlStore.lean ====
section
/-! DEFINITION. Customer images (R126 to R132, Tables 5.12 to 5.14): their checks, CS_LOAD with its drain, CS_UNLOAD, measurement (R254,
R255), and the end of a wipe, which a load may wait for. -/
namespace Sys2Proof.Machine

/-! ### Measurement (R254, R255) -/

/-- SHA-384 of a byte string. -/
def sha384 (d : Bytes) : Bytes := digestOf 2 d
/-- SHA3-384 of a byte string. -/
def sha3of384 (d : Bytes) : Bytes := digestOf 6 d

/-- Extend a register with a pair of digests, and record it in the event log of 1,024 entries (the kinds' codes:
log 21). -/
def Block.extend (b : Block) (m : Nat) (d d' : Bytes) : Block :=
  let x : Bank := Tab.get {} b.att.regs m
  let e : MeasEvent := ⟨m, b.now, d, d', BitVec.ofNat 8 (Config.freeNat 15 m)⟩
  { b with att := { b.att with
    regs := Tab.put b.att.regs m { sha2 := sha384 (x.sha2 ++ d), sha3 := sha3of384 (x.sha3 ++ d') },
    events := if b.att.events.length < 1024 then b.att.events ++ [e] else b.att.events,
    overflow := b.att.overflow || decide (1024 ≤ b.att.events.length) } }

/-- Measure an image as it passes the snooper. -/
def Block.measure (b : Block) (m : Nat) (image : Bytes) : Block := b.extend m (sha384 image) (sha3of384 image)

/-- Register 5: lifecycle state, KST_POLICY, tamper policy and fuse disables, in a 64-byte record (Table 10.10). -/
def Block.measurePolicies (b : Block) : Block :=
  b.measure 5 (algBytes .image 5 [le 1 b.otp.lifecycle.code, le 4 b.kst.policy.toNat, policyBytes b.tam.policy, le 2 b.otp.fused.toNat, [b.wty.fzPolicy]] 64)

/-! ### The image (Tables 5.12 and 5.13) -/

/-- Length of header and body. -/
def imgSigned (p : Bytes) : Nat := 0x80 + 32 * imgEntries p + 4 * imgMicro p + 24 * imgNano p

/-- Entry record i of an image (Table 5.13). -/
def imgEntry (p : Bytes) (i : Nat) : Bytes := sub p (0x80 + 32 * i) 32

/-- Reserved values of a microword, its unused byte among them (Tables 5.3 and 5.4). -/
def microBad (v : Nat) : Bool :=
  decide (2 ^ 24 ≤ v) || microReserved v ||
  (bit v 23 && ((bits v 22 18 == 6 && bits v 17 16 != 0) || (bits v 22 18 == 7 && bits v 13 2 != 0)))

/-- A maker-only SEQ operation. -/
def microMaker (v : Nat) : Bool := bit v 23 && (bits v 22 18 == 0x0A || bits v 22 18 == 0x0D || bits v 22 18 == 0x0E)

/-- Reserved values and bits of a nanoword (Tables 5.5 to 5.8). -/
def nanoBad (v : Nat) : Bool :=
  nanoReserved v || bit v 190 || bits v 167 160 != 0 || bits v 93 92 != 0 || bits v 66 56 != 0 || bits v 29 28 != 0 || bits v 15 0 != 0 ||
  bits v 121 120 == 3 || bits v 119 118 == 3

/-- A customer nanoword breaks R126, R113 or R114. -/
def nanoForbidden (v : Nat) : Bool :=
  bit v 191 || decide (1 < bits v 189 187) || decide (0x20 ≤ bits v 55 50) || (bits v 186 184 != 0 && bits v 183 180 != 0) ||
  (bits v 23 20 != 0 && bits v 23 20 == bits v 19 16)

/-- Is a maker nanoword one of the published library: MAKER 0 (R126)? -/
def library (n : Nat) : Bool := !bit (makerNano n) 191

/-- Does a microword name a nanoword it may not? -/
def nanoMissing (p : Bytes) (v : Nat) : Bool :=
  !bit v 23 && (let n := bits v 22 12
    if n < 0x600 then !library n else decide (n < imgNanoAt p) || decide (imgNanoAt p + imgNano p ≤ n))

/-- A static target outside the customer-open region. -/
def targetBad (v : Nat) : Bool :=
  let op := bits v 22 18; let t := bits v 13 0
  bit v 23 && (((op == 1 || op == 2 || op == 4 || op == 5 || op == 8) && decide (t < 0x3000)) ||
    (op == 9 && (decide (t < 0x3000) || decide (0x3FFF < t + 63))))

/-- The length of a customer entry's key: of a type whose length varies, the greatest. -/
def entryKeyLen (t : Nat) : Nat := if t = 0x0C00 ∨ t = 0x0D00 then 512 else if t = 0x0900 then 4 + 2048 else secretLen t 0

/-- The operand memory of an entry in KiB (R128). -/
def entryOpmem (e : Bytes) : Nat :=
  let fl := fld e 7 1
  let r n := roundUp n 4096
  (r (fld e 8 4) + r (fld e 0xC 4) + (if bit fl 0 then r (entryKeyLen (fld e 0x16 2)) else 0) + (if bit fl 2 then 4096 else 0) +
   fld e 0x14 1 * r (fld e 0x10 4) + (if fld e 4 1 = 2 then r (fld e 0xC 4) else 0)) / 1024

/-- An entry record breaks check 11. -/
def entryBad (p e : Bytes) : Bool :=
  let op := fld e 0 2; let at_ := fld e 2 2; let fl := fld e 7 1; let t := fld e 0x16 2
  decide (op < 0x2000) || decide (0x2FFF < op) || decide (at_ < imgMicroAt p) || decide (imgMicroAt p + imgMicro p ≤ at_) ||
  decide (2 < fld e 4 1) || decide (2 < fld e 5 1) || decide (7 < fld e 6 1) || decide (31 < fl) ||
  decide (12 < fld e 0x14 1) || fld e 0x15 1 != 0 || fld e 0x1C 4 != 0 || decide (fld e 0x18 4 < 1) || decide (2 ^ 24 < fld e 0x18 4) ||
  (if bit fl 0 then !typeListed t else t != 0) || decide (512 < entryOpmem e)

/-- Does a list repeat an element? -/
def repeats : List Nat → Bool
  | [] => false
  | a :: r => r.contains a || repeats r

/-- The nanoword that an image's EXEC microword names: its own, or one of the library. -/
def imgNames (p : Bytes) (v : Nat) : Nat :=
  let n := bits v 22 12
  if n < 0x600 then makerNano n else imgNanoword p (n - imgNanoAt p)

/-- The addresses a microword may be followed by (R107, Table 5.4); a RET returns to the word after some CALL, which counts as that CALL's. -/
def follows (v a : Nat) : List Nat :=
  let t := bits v 13 0
  if bit v 23 then
    match bits v 22 18 with
    | 1 => [t] | 2 => [t, a + 1] | 3 => [] | 4 => [t, a + 1] | 5 => [t, a + 1] | 8 => [t, a + 1] | 9 => (List.range 64).map (t + ·) | 0xB => []
    | _ => [a + 1]
  else if bits v 1 0 = 2 then [] else [a + 1]

/-- The addresses of an image that a run may reach from those `todo`; fuel bounds the words and the branches followed. -/
def reached (p : Bytes) : Nat → List Nat → List Nat → List Nat
  | 0, _, seen => seen
  | _, [], seen => seen
  | n + 1, a :: r, seen =>
    if seen.contains a || decide (a < imgMicroAt p) || decide (imgMicroAt p + imgMicro p ≤ a) then reached p n r seen
    else reached p n (follows (imgWord p (a - imgMicroAt p)) a ++ r) (a :: seen)

/-- Does an entry execute DRAW, directly or through a library nanoword: does some EXEC word it may reach name a nanoword with SEED 1 (R128)? -/
def imgDraws (p e : Bytes) : Bool :=
  (reached p (66 * (imgMicro p + 1)) [fld e 2 2] []).any (fun a =>
    let v := imgWord p (a - imgMicroAt p)
    !bit v 23 && bits (imgNames p v) 186 184 == 1)

/-- The catalogue entry of an entry record (R131). -/
def customerOf (draws : Bool) (e : Bytes) : Entry :=
  let fl := fld e 7 1
  let op := fld e 0 2
  let base : Entry := {
    opcode := BitVec.ofNat 16 op, takesKey := bit fl 0, secretIn := bit fl 1, takesParam := bit fl 2, kstore := bit fl 4, draws := draws,
    customer := true, cls := Fin.ofNat 3 (fld e 4 1), order := Fin.ofNat 3 (fld e 5 1),
    wales := if fld e 4 1 = 2 then 2 else 1, opmem := entryOpmem e, maxIn := fld e 8 4, maxOut := fld e 0xC 4,
    address := BitVec.ofNat 14 (fld e 2 2), keyType := BitVec.ofNat 16 (fld e 0x16 2), scratch := fld e 0x14 1, scratchLen := fld e 0x10 4,
    limit := fld e 0x18 4 }
  { finishEntry op base with latClass := Fin.ofNat 8 (fld e 6 1), preemptible := bit fl 3 }

/-- Insert an entry by its opcode. -/
def insertEntry (e : Entry) : List Entry → List Entry
  | [] => [e]
  | a :: r => if e.opcode < a.opcode then e :: a :: r else a :: insertEntry e r

/-- The checks of Table 5.14 in order: the reason code of the first that fails. -/
def Block.imageFails (b : Block) (p : Bytes) : Option Nat :=
  let ws := (List.range (imgMicro p)).map (imgWord p)
  let ns := (List.range (imgNano p)).map (imgNanoword p)
  let es := (List.range (imgEntries p)).map (imgEntry p)
  let body := sub p 0x80 (imgSigned p - 0x80)
  (firstFail [
    (fld p 0 4 != 0x57434D49 || fld p 4 2 != 1 || fld p 6 2 != 0x80 || imgMicro p == 0 || decide (4096 < imgMicro p) ||
      decide (512 < imgNano p) || imgEntries p == 0 || decide (256 < imgEntries p) || fld p 0x16 2 != 0 || fld p 0x7C 4 != 0 ||
      fld p 0x78 4 != imgSigned p - 0x80 || p.length != imgSigned p + 4723 || decide (1048576 < p.length), 0, 1),
    (sub p 0x48 48 != b.otp.ownerKeyId, 0, 2),
    (sub p 0x18 48 != sha384 body || !Config.ask .ownerSigOk 1 [b.otp.ownerKeyId, p], 0, 3),
    (decide (fld p 8 4 < b.counter 1), 0, 4),
    (decide (imgMicroAt p < 0x3000) || decide (0x4000 < imgMicroAt p + imgMicro p) ||
      (imgNano p != 0 && (decide (imgNanoAt p < 0x600) || decide (0x800 < imgNanoAt p + imgNano p))), 0, 5),
    (ws.any microBad || ns.any nanoBad, 0, 6),
    (ws.any microMaker, 0, 7),
    (ws.any (nanoMissing p), 0, 8),
    (ns.any nanoForbidden, 0, 9),
    (ws.any targetBad, 0, 0xA),
    (es.any (entryBad p) || repeats (es.map (fun e => fld e 0 2)), 0, 0xB),
    (!ownedLife.contains b.otp.lifecycle, 0, 0xC)]).map (fun x => x.2.toNat)

/-! ### Loading (R130, R132) -/

/-- Kill the spilled customer jobs (R130, step 4). -/
def Block.killSpilled (b : Block) : Block :=
  Block.failJobs (b.jobsWhere (fun j => j.entry.customer && j.phase == .spilled)) St.aborted 0 b

/-- Withdraw every customer opcode and kill the spilled customer jobs (R130, steps 3 and 4). -/
def Block.withdrawCustomer (b : Block) : Block :=
  (if b.boot.custEntries.isEmpty then b else { b with boot := { b.boot with custEntries := [] } }.advanceCat).killSpilled

/-- Does a customer job still run? -/
def Block.customerRuns (b : Block) : Bool := b.jobs.any (fun j => j.entry.customer && j.granted && j.phase != .spilled)

/-- Steps 5 and 6: the wales that are free and not fenced are written, a busy one when it becomes free; one whose read-back fails is fenced with an
F1 note (its kind and Detail are not stated: log 4); the entries are registered and the floor rises (R129). -/
def Block.installImage (b : Block) (p : Bytes) (bad : W64) : Block × Reply :=
  let b := { b with
    boot := { b.boot with custImage := p }, wales := b.wales.map (fun (w : Nat × Wale) => (w.1, { w.2 with custOk := false })) }
  let ws := (List.range 64).filter (fun i => b.waleAvail i && b.storePort i && (b.wale i).atRest)
  let failed := ws.filter (fun i => bad.getLsbD i)
  let b := ws.foldl Block.loadLate b
  let b := failed.foldl (fun (b : Block) i =>
    let n : Note := { b.noteOf { source := Src.waleUnit i 1, kind := 0, cls := 1, detail := 0 } with
      kind := BitVec.ofNat 8 (Config.freeNat 14 i), detail := BitVec.ofNat 32 (Config.freeNat 16 i) }
    (b.takeNote n).fenceUnit (.wale i) n) b
  let es := (List.range (imgEntries p)).foldl (fun l i => insertEntry (customerOf (imgDraws p (imgEntry p i)) (imgEntry p i)) l) []
  let b := { b with boot := { b.boot with custEntries := es } }.raiseCounter 1 (fld p 8 4)
  (b.advanceCat, .ok (le 2 (ws.length - failed.length) ++ le 2 failed.length))

/-- The rest of CS_UNLOAD: the customer-open region of every wale reads zero, and register 4 takes a zero digest. -/
def Block.clearImage (b : Block) : Block × Reply := (b.dropCustomer.extend 4 (zeros 48) (zeros 48), .ok [])

/-- Go on with a CS_LOAD or CS_UNLOAD that waited for running customer jobs; one that has been spilled meanwhile is killed too. -/
def Block.csContinue (b : Block) : Block :=
  if !b.admin.busy || (b.admin.code ≠ 0x0020 ∧ b.admin.code ≠ 0x0021) || b.customerRuns then b
  else match b.admin.cmd with
    | none => b
    | some r =>
      let b := b.killSpilled
      if b.admin.code = 0x0020 then
        let (b, y) := b.installImage r.payload b.boot.csBad
        b.complete none y
      else if b.admin.code = 0x0021 then
        let (b, y) := b.clearImage
        b.complete none y
      else b

/-- CS_LOAD: measured, checked, and installed once no customer job runs. `bad` are the wales whose read-back will fail. A failed check, the
lifecycle's among them, is INPUT_INVALID with its reason code (log 22). -/
def execCsLoad (r : Req) (bad : W64) (s : State) : Host.Outcome State Fault Refusal :=
  done (s.toBlock.commandWait { code := 0x0020, len := fun _ => true } r (fun _ => none) (fun b =>
    let b := b.measure 4 r.payload
    match b.imageFails r.payload with
    | some n => .inr (b, .fail St.inputInvalid (BitVec.ofNat 32 n))
    | none =>
      let b := b.withdrawCustomer
      if b.customerRuns then .inl { b with boot := { b.boot with csBad := bad } }
      else .inr (b.installImage r.payload bad))) s

/-- CS_UNLOAD (R132). -/
def execCsUnload (r : Req) (s : State) : Host.Outcome State Fault Refusal :=
  done (s.toBlock.commandWait { code := 0x0021 } r (fun _ => none) (fun b =>
    let b := b.withdrawCustomer
    if b.customerRuns then .inl b else .inr b.clearImage)) s

end Sys2Proof.Machine
end

