-- ==== Sys2Proof/Machine/Slices.lean ====
section
/-! DEFINITION. Slices (chapter 09, R211 to R225): creation, attributes, quiesce, wedging and destruction. -/
namespace Sys2Proof.Machine

/-! ### The frame of a slice command (R212) -/

/-- The slice an admin payload names, or how it fails: BAD_PARAM, Detail 1, outside the range; CONTEXT_BUSY with the state code in a state
the command is not accepted in. -/
def Block.named (b : Block) (p : Bytes) (states : List SliceSt) : Except Reply SliceId :=
  if fld p 2 2 ≠ 0 then .error (.fail St.badParam 0)
  else if h : fld p 0 2 < 1024 then
    let s : SliceId := ⟨fld p 0 2, h⟩
    if states.contains (b.slice s).st then .ok s
    else .error (.fail St.contextBusy (BitVec.ofNat 32 (b.slice s).st.code))
  else .error (.fail St.badParam 1)

/-- The slice number of SLICE_CREATE and MIG_PREPARE: 0xFFFF selects the lowest FREE slice (R213). -/
def Block.chosen (b : Block) (p : Bytes) : Except Reply SliceId :=
  if fld p 2 2 ≠ 0 then .error (.fail St.badParam 0)
  else if fld p 0 2 = 0xFFFF then
    match (List.finRange 1024).find? (fun s => (b.slice s.val).st == .free) with
    | some s => .ok s
    | none => .error (.fail St.quota 0)
  else b.named p [.free]

/-- The Detail of SLICE_CREATE and MIG_PREPARE: the number the device chose; 0 where the manager named the slice (R213, Table 7.9). -/
def chosenDetail (p : Bytes) (s : SliceId) : W32 := if fld p 0 2 = 0xFFFF then BitVec.ofNat 32 s.val else 0

/-- The refusal of a slice command in a state that Table 9.2 does not list for it (R212). -/
def Block.stateRefusal (b : Block) (p : Bytes) (states : List SliceSt) : Option (W16 × W32) :=
  let st := (b.slice (fld p 0 2)).st
  if fld p 2 2 = 0 ∧ fld p 0 2 < 1024 ∧ !states.contains st then some (St.contextBusy, BitVec.ofNat 32 st.code) else none

/-- A command on a named slice. -/
def Block.sliceCmd (b : Block) (code : W16) (r : Req) (len : Nat → Bool) (states : List SliceSt)
    (body : Block → SliceId → Block × Reply) : Block :=
  b.commandIn { code := code, len := len } r (fun b => b.stateRefusal r.payload states) (fun b =>
    match b.named r.payload states with
    | .error e => (b, e)
    | .ok s => body b s)

/-- Every state of Table 9.1. -/
def anySlice : List SliceSt := [.free, .quiesced, .active, .quiescing, .wedged, .frozen, .receiving]
/-- QUIESCED and ACTIVE. -/
def setSlice : List SliceSt := [.quiesced, .active]

/-- Is a slice's TDI locked (R225)? -/
def Slice.locked (x : Slice) : Bool := x.tdi == .locked || x.tdi == .run
/-- What a command on a locked slice answers. -/
def lockedReply : Reply := .fail St.contextBusy 0x100

/-- A slice's TDI moves to ERROR when it is locked. -/
def Block.tdiError (b : Block) (s : SliceId) : Block :=
  b.modSlice s (fun x => if x.locked then { x with tdi := .error } else x)

/-! ### Creation and attributes -/

/-- KiB of key store reserved by all slices but one. -/
def Block.kstReserved (b : Block) (but : Nat) : Nat :=
  (b.slices.filter (fun p => p.1 != but && p.2.st != .free)).foldl (fun a p => a + p.2.quota.kst) 0
/-- MiB of DDR5 reserved by all slices but one. -/
def Block.ddrReserved (b : Block) (but : Nat) : Nat :=
  (b.slices.filter (fun p => p.1 != but && p.2.st != .free)).foldl (fun a p => a + p.2.quota.ddr5) 0

/-- A new slice (R213): defaults, a sealing key of a new generation, policy SAME_OWNER, the first templates (R241), a full bucket. -/
def freshSlice (gen : Nat) (adsor : Bool) (st : SliceSt) : Slice :=
  { st := st, adsor := adsor, sealGen := gen, sealCeil := 1024, defTemplate := firstTemplate, sesTemplate := firstSession, bucket := 262144 }

/-- Make a slice anew. -/
def Block.makeSlice (b : Block) (s : SliceId) (adsor : Bool) (st : SliceSt) : Block :=
  (({ b with slices := Tab.put b.slices s (freshSlice ((b.slice s).sealGen + 1) adsor .free) }).sliceTo s st).change (.slice s)

/-- SLICE_CREATE. Its default key-store reservation may not break the sum of R216 (log 23). -/
def execSliceCreate (r : Req) (s : State) : Host.Outcome State Fault Refusal :=
  done (s.toBlock.commandIn { code := 0x0030, len := exactly 6 } r (fun b => b.stateRefusal r.payload [.free]) (fun b =>
    match b.chosen r.payload with
    | .error e => (b, e)
    | .ok sl =>
      let fl := fld r.payload 4 2
      if 1 < fl then (b, .fail St.badParam 0)
      else if 15360 < b.kstReserved sl + 64 then (b, .fail St.quota 6)
      else (b.makeSlice sl (fl == 1) .quiesced, { detail := chosenDetail r.payload sl }))) s

/-- Delete everything of a slice (R223): its keys with their counters, its own counters, its DDR5 objects, its sealing key, bindings, rings
and latch. -/
def Block.destroySlice (b : Block) (s : SliceId) : Block :=
  let b := b.tdiError s
  let b := (b.kst.keys.filter (fun p => p.1 / 2 ^ 21 == s.val)).foldl (fun b p => b.eraseKey (BitVec.ofNat 32 p.1)) b
  let x := b.slice s
  let b := { b with
    bat := { b.bat with
      owners := b.bat.owners.map (fun (p : Nat × CtrOwner) => (p.1, if p.2 = CtrOwner.slice s then .none else p.2)),
      evicted := b.bat.evicted.filter (fun n => decide (b.ctrOwner n ≠ CtrOwner.slice s)) },
    ddr := { b.ddr with objects := b.ddr.objects.filter (fun o => o.slice != s) },
    slices := Tab.put b.slices s { st := x.st, sealGen := x.sealGen, tdi := x.tdi } }
  (b.sliceTo s .free).change (.slice s)

/-- SLICE_DESTROY. -/
def execSliceDestroy (r : Req) (s : State) : Host.Outcome State Fault Refusal :=
  done (s.toBlock.sliceCmd 0x0031 r (exactly 4) [.quiesced] (fun b sl => (b.destroySlice sl, .ok []))) s

/-- What PASID register a slice shows: VALID, PASID (R219). -/
def pasidWord (p : Option (Option (BitVec 20))) : Nat :=
  match p with
  | some (some v) => 2 ^ 31 + v.toNat
  | _ => 0

/-- SLICE_QUERY: state, the time stamp of its last change, mode, quotas, usage and bindings, packed in this order (log 24). -/
def execSliceQuery (r : Req) (s : State) : Host.Outcome State Fault Refusal :=
  done (s.toBlock.sliceCmd 0x0032 r (exactly 4) anySlice (fun b sl =>
    let x := b.slice sl
    let held := b.jobs.filter (fun j => j.granted && j.inSlice sl)
    (b, .ok (le 1 x.st.code ++ le 8 x.since.toNat ++ le 1 (b1 x.adsor) ++ quotaBytes x.quota ++
      le 4 (held.foldl (fun a j => a + j.wales.length) 0) ++ le 4 (held.foldl (fun a j => a + j.entry.qmem) 0) ++
      le 4 (b.ddrOf sl) ++ le 4 ((b.keyUse sl + 1023) / 1024) ++ le 4 (b.jobs.filter (fun j => j.holding && j.inSlice sl)).length ++
      le 4 (b.skeinsOf sl) ++ le 1 x.weight ++ le 1 x.ceiling.val ++ le 4 (pasidWord x.pasid) ++ le 2 x.vecBase ++ le 2 x.vecCount)))) s

/-- The first field of a quota record outside its range: its offset (Table 9.3, R213). -/
def quotaBad (adsor : Bool) (p : Bytes) : Option Nat :=
  let q := parseQuota p
  (firstFail [
    (decide (64 < q.wales), 0, 0x00),
    (decide (q.opmem < 4) || decide (512 < q.opmem) || q.opmem % 4 != 0, 0, 0x02),
    (decide (8 < q.codePairs), 0, 0x04),
    (decide (q.channels < 1) || decide (8 < q.channels), 0, 0x06),
    (decide (28672 < q.qmem) || q.qmem % 4 != 0, 0, 0x08),
    (decide (131072 < q.ddr5), 0, 0x0C),
    (decide (16384 < q.kst), 0, 0x10),
    (decide (16384 < q.hold), 0, 0x14),
    (decide (8192 < q.rate), 0, 0x16),
    (decide (65536 < q.skeins) || (adsor && decide (q.skeins < 32)), 0, 0x18),
    (decide (q.burst < 1) || decide (1024 < q.burst), 0, 0x1C),
    (fld p 0x1E 2 != 0, 0, 0x1E)]).map (fun x => x.2.toNat)

/-- What of a job's footprint exceeds its slice's quota (Table 9.4). -/
def overQuota (q : Quota) (e : Entry) (pages : Nat) : Option (W16 × W32) :=
  firstFail [
    (decide (q.wales < e.wales), St.quota, 1),
    (decide (q.opmem < e.opmem), St.quota, 2),
    (decide (q.codePairs < e.codePairs), St.quota, 3),
    (decide (q.qmem < e.qmem), St.quota, 4),
    (decide (q.ddr5 * 256 < pages), St.quota, 5)]

/-- The jobs still waiting whose footprint exceeds the quota leave their lists (R218). -/
def Block.dropOver (b : Block) (s : SliceId) : Block :=
  (b.jobs.filter (fun j => j.inSlice s && !j.ended && (j.phase == .ready || j.phase == .walking))).foldl (fun b j =>
    match overQuota (b.slice s).quota j.entry (b.ddrPages s j.desc) with
    | some (st, d) => b.failJob j.id st d
    | none => b) b

/-- SLICE_SET_QUOTA (R215, R216, R218). -/
def execSliceSetQuota (r : Req) (s : State) : Host.Outcome State Fault Refusal :=
  done (s.toBlock.sliceCmd 0x0033 r (exactly 36) setSlice (fun b sl =>
    let p := r.payload.drop 4
    let q := parseQuota p
    if (b.slice sl).locked then (b, lockedReply)
    else match quotaBad (b.slice sl).adsor p with
      | some o => (b, .fail St.badParam (BitVec.ofNat 32 (o + 0x10)))
      | none =>
        if b.ddr.fitted[0] + b.ddr.fitted[1] < b.ddrReserved sl + q.ddr5 ∨ q.ddr5 * 256 < b.ddrOf sl then (b, .fail St.quota 5)
        else if 15360 < b.kstReserved sl + q.kst ∨ q.kst * 1024 < b.keyUse sl then (b, .fail St.quota 6)
        else (((b.modSlice sl (fun x => { x with quota := q })).dropOver sl).change (.slice sl), .ok []))) s

/-- SLICE_SET_SCHED: weight and ceiling; a job above a lowered ceiling moves down to it (R218). -/
def execSliceSetSched (r : Req) (s : State) : Host.Outcome State Fault Refusal :=
  done (s.toBlock.sliceCmd 0x0034 r (exactly 6) setSlice (fun b sl =>
    let w := fld r.payload 4 1; let c := fld r.payload 5 1
    if (b.slice sl).locked then (b, lockedReply)
    else if w = 0 ∨ 7 < c then (b, .fail St.badParam 4)
    else
      let lim : Fin 8 := Fin.ofNat 8 c
      let b := b.modSlice sl (fun x => { x with weight := w, ceiling := lim })
      let b := { b with jobs := b.jobs.map (fun (j : Job) => if j.inSlice sl ∧ j.listed ∧ lim < j.level then { j with level := lim } else j) }
      (((List.range 8).foldl (fun (b : Block) l => b.dryDeficit l sl) b).change (.slice sl), .ok []))) s

/-- A new vector count: a ring or latch whose VECTOR is at or above it sends nothing until the tenant rewrites it (R220). -/
def Slice.setVectors (x : Slice) (base n : Nat) : Slice :=
  { x with
    vecBase := base, vecCount := n,
    cq := x.cq.map (fun c => if n ≤ c.vector.toNat then { c with mute := true } else c),
    err := if n ≤ x.err.vector.toNat then { x.err with mute := true } else x.err }

/-- SLICE_SET_VECTORS (R220). -/
def execSliceSetVectors (r : Req) (s : State) : Host.Outcome State Fault Refusal :=
  done (s.toBlock.sliceCmd 0x0035 r (exactly 8) [.quiesced] (fun b sl =>
    let base := fld r.payload 4 2; let n := fld r.payload 6 2
    if (b.slice sl).locked then (b, lockedReply)
    else if n < 1 ∨ 64 < n ∨ 2048 < base + n then (b, .fail St.badParam 6)
    else ((b.modSlice sl (fun x => x.setVectors base n)).change (.slice sl), .ok []))) s

/-- SLICE_BIND_PASID (R219): VALID 0 with PASID 0 binds without PASID, VALID 0 with another unbinds (log 25). -/
def execSliceBindPasid (r : Req) (s : State) : Host.Outcome State Fault Refusal :=
  done (s.toBlock.sliceCmd 0x0036 r (exactly 8) [.quiesced] (fun b sl =>
    let v := fld r.payload 4 4
    let p : BitVec 20 := BitVec.ofNat 20 v
    if (b.slice sl).locked then (b, lockedReply)
    else if bits v 30 20 ≠ 0 then (b, .fail St.badParam 0)
    else if bit v 31 ∧ b.slices.any (fun x => x.1 != sl.val && x.2.pasid == some (some p)) then (b, .fail St.badParam 5)
    else
      let bind : Option (Option (BitVec 20)) := if bit v 31 then some (some p) else if p = 0 then some none else none
      ((b.modSlice sl (fun x => { x with pasid := bind })).change (.slice sl), .ok []))) s

/-! ### Quiesce, resume, counters -/

/-- The forced phase: granted and spilled jobs of the slice end with ABORTED, Detail 2 (R222). -/
def Block.forceQuiesce (b : Block) (s : SliceId) : Block :=
  let b := b.modSlice s (fun x => { x with forced := true, quiesceAt := b.now })
  (Block.failJobs (b.jobsWhere (fun j => j.inSlice s && (j.granted || j.phase == .forwarded))) St.aborted 2 b).checkRest s

/-- SLICE_QUIESCE (R222, R148): what waits leaves with ABORTED, Detail 1, a failed skein member among it (log 114). -/
def execSliceQuiesce (r : Req) (s : State) : Host.Outcome State Fault Refusal :=
  done (s.toBlock.sliceCmd 0x0037 r (exactly 12) [.active] (fun b sl =>
    let q := fld r.payload 4 4; let fl := fld r.payload 8 4
    if 600000 < q ∨ 1 < fl then (b, .fail St.badParam 0)
    else
      let b := (b.sliceTo sl .quiescing).tdiError sl
      let b := b.modSlice sl (fun x => { x with quiesceAt := b.now, quiesceQ := if q = 0 then 1000 else q, forced := false })
      let b := Block.failJobs (b.jobsWhere (fun j => j.inSlice sl && (j.phase == .ready || j.phase == .walking))) St.aborted 1 b
      let b := b.checkRest sl
      ((if fl = 1 ∧ (b.slice sl).st = .quiescing then b.forceQuiesce sl else b), .ok []))) s

/-- QUIESCE_BOUND: Q has elapsed and the forced phase begins. -/
def execQuiesceBound (sl : SliceId) (s : State) : Host.Outcome State Fault Refusal :=
  let b := s.toBlock
  let x := b.slice sl
  done (if x.st ≠ .quiescing ∨ x.forced then b
    else (b.advanceTo x.quiesceAt (x.quiesceQ * 1000000)).forceQuiesce sl) s

/-- A slice wedges (R224): an F2 note names it, and what it holds is fenced with F1 notes. -/
def Block.wedge (b : Block) (s : SliceId) : Block :=
  let held := b.jobs.filter (fun j => j.inSlice s)
  let ws := (List.range 64).filter (fun i => (b.wale i).job.any (fun id => held.any (fun j => j.id == id)) ||
    ((b.wale i).runSlice == some s && (b.wale i).st != .warm && (b.wale i).st != .clockGated && (b.wale i).st != .gated))
  let cs := (List.range 16).filter (fun e => held.any (fun j => j.granted && j.quad == e / 4 && j.codePair.any (fun p => decide (p.val = e % 4 / 2))))
  let ds := (List.range 32).filter (fun c => (b.chan c).xfer.any (fun x => x.slice == s))
  let b := b.sliceTo s .wedged
  let b := b.raise { source := Src.device 1 0, kind := 0x10, cls := 2, detail := openDetail 0x10, slice := some s }
  let fence (b : Block) (src : W16) : Block := b.raise { source := src, kind := 0x10, cls := 1, detail := openDetail 0x10, slice := some s }
  let b := ws.foldl (fun b i => fence b (Src.waleUnit i 0)) b
  let b := cs.foldl (fun b e => fence b (Src.codeEngine (e / 4) (e % 4))) b
  ds.foldl (fun b c => fence b (Src.chan c)) b

/-- WEDGE_TIMER: 100 ms of the forced phase have not brought the slice to rest. -/
def execWedgeTimer (sl : SliceId) (s : State) : Host.Outcome State Fault Refusal :=
  let b := s.toBlock
  let x := b.slice sl
  done (if x.st ≠ .quiescing ∨ !x.forced then b else (b.advanceTo x.quiesceAt 100000000).wedge sl) s

/-- SLICE_RESUME (R214); a locked TDI moves to RUN with it (R225). -/
def execSliceResume (r : Req) (s : State) : Host.Outcome State Fault Refusal :=
  done (s.toBlock.sliceCmd 0x0038 r (exactly 4) [.quiesced] (fun b sl =>
    let x := b.slice sl
    if x.pasid.isNone then (b, .fail St.badParam 2)
    else if x.vecCount = 0 then (b, .fail St.badParam 3)
    else
      let b := b.modSlice sl (fun x => { x with tdi := if x.tdi = .locked then .run else x.tdi })
      ((b.sliceTo sl .active).resumeRings sl, .ok []))) s

/-- SLICE_COUNTERS: the counters of Table 6.7. -/
def execSliceCounters (r : Req) (s : State) : Host.Outcome State Fault Refusal :=
  done (s.toBlock.sliceCmd 0x0039 r (exactly 4) [.quiesced, .active, .quiescing, .wedged, .frozen, .receiving] (fun b sl =>
    (b, .ok (b.sliceCounters sl)))) s

/-! ### The slice mailbox -/

/-- A command of Table 9.2 on the slice mailbox. -/
def Block.ownCmd (b : Block) (code : W16) (r : Req) (len : Nat → Bool) (states : List SliceSt)
    (body : Block → SliceId → Block × Reply) : Block :=
  b.commandIn { code := code, len := len, admin := false, slice := true } r
    (fun b => r.box.bind (fun s =>
      if states.contains (b.slice s).st then none else some (St.contextBusy, BitVec.ofNat 32 (b.slice s).st.code)))
    (fun b => match r.box with
      | none => (b, .fail St.badOpcode 0)
      | some s => body b s)

/-- SLICE_STATE: the state code and the time stamp of its last change (log 24). -/
def execSliceState (r : Req) (s : State) : Host.Outcome State Fault Refusal :=
  done (s.toBlock.ownCmd 0x0122 r (exactly 0) [.quiesced, .active, .quiescing, .frozen] (fun b sl =>
    (b, .ok (le 1 (b.slice sl).st.code ++ le 8 (b.slice sl).since.toNat)))) s

/-- MIG_POLICY_SET (R226): the digest is zero for policies 0 and 1. -/
def execMigPolicySet (r : Req) (s : State) : Host.Outcome State Fault Refusal :=
  done (s.toBlock.ownCmd 0x0120 r (exactly 52) setSlice (fun b sl =>
    let p := fld r.payload 0 1; let d := r.payload.drop 4
    if fld r.payload 1 3 ≠ 0 then (b, .fail St.badParam 0)
    else if 2 < p ∨ (p < 2 ∧ !allZero d) then (b, .fail St.badParam 7)
    else ((b.modSlice sl (fun x => { x with migPolicy := BitVec.ofNat 8 p, migDigest := if p = 2 then d else [] })).change (.slice sl), .ok []))) s

/-- MIG_POLICY_GET: the policy in the layout MIG_POLICY_SET takes. -/
def execMigPolicyGet (r : Req) (s : State) : Host.Outcome State Fault Refusal :=
  done (s.toBlock.ownCmd 0x0121 r (exactly 0) setSlice (fun b sl =>
    (b, .ok (le 4 (b.slice sl).migPolicy.toNat ++ fit 48 (b.slice sl).migDigest)))) s

end Sys2Proof.Machine
end

