-- ==== Sys2Proof/Machine/Attest.lean ====
section
/-! DEFINITION. Measurement, attestation, the digest port, device-scope keys, policy and lifecycle (chapter 10, R248, R253 to R263) and
the SPDM and TDISP responders (R165, R166, R225). -/
namespace Sys2Proof.Machine

/-! ### Statements (R259, R260) -/

/-- A seed of the identity: HKDF-SHA-384 over the unique device secret with a label or an info string (R259, log 2). -/
def Block.idSeed (b : Block) (info : Bytes) : Bytes := algBytes .deviceId 1 [b.otp.uds, info] 88
/-- The public keys of a seed: ML-DSA-87 from its first 32 bytes, P-384 from the next 56 (R259). -/
def idKeys (seed : Bytes) : List Bytes := [algBytes .dsaPk 2 [seed.take 32] 2592, algBytes .ecPk 1 [sub seed 32 56] 97]
/-- The DeviceID's public keys. -/
def Block.deviceKeys (b : Block) : List Bytes := idKeys (b.idSeed [])
/-- The Alias's public keys: they change with registers 0 to 3 and the firmware's security version. -/
def Block.aliasKeys (b : Block) : List Bytes :=
  idKeys (b.idSeed ((List.range 4).flatMap (fun m => (Tab.get {} b.att.regs m : Bank).sha2) ++ le 4 (b.boot.slots[b.boot.running]).security))
/-- The device identity digest: SHA-384 over both DeviceID public keys (R259). -/
def Block.identityDigest (b : Block) : Bytes := sha384 b.deviceKeys.flatten
/-- A chain from the maker to an Alias key, whose certificate carries the measurements (R259, R261, log 2). -/
def Block.certChain (b : Block) (k n : Nat) : Bytes :=
  algBytes .certChain k (b.deviceKeys ++ b.aliasKeys ++ (List.range 4).map (fun m => (Tab.get {} b.att.regs m : Bank).sha2)) n

/-- The bytes of an ML-DSA-87 and a P-384 signature, which a statement or a certificate pair at least holds. -/
def signatures : Nat := 4627 + 96

/-- A statement signed by both Alias keys (R260, Table 10.12): a COSE_Sign structure over the fields, its bytes and length of outside standards (log 2). -/
def Block.statement (b : Block) (typ : Nat) (nonce : Bytes) (sl : Option SliceId) (claim mig : List Bytes) : Bytes :=
  let img := b.boot.slots[b.boot.running]
  algBytes .statement typ
    (b.aliasKeys ++ [nonce, le 8 b.now.toNat, b.identityDigest, [b.otp.stepping], le 1 b.otp.lifecycle.code, le 4 img.version.toNat, le 4 img.security] ++
     (List.range 16).flatMap (fun m => let x : Bank := Tab.get {} b.att.regs m; [x.sha2, x.sha3]) ++
     [(match sl with | some s => le 2 s.val | none => []), b.otp.ownerKeyId] ++ claim ++ [le 1 b.otp.zeroCount] ++ mig ++
     [match b.wty.number with | some n => le 2 n.toNat | none => []]) (signatures + Config.statementLen typ)

/-- A nonce of 16 to 64 bytes. -/
def nonceLen (n : Nat) : Bool := decide (16 ≤ n) && decide (n ≤ 64)

/-- ATTEST_QUOTE: a QUOTE with the requester's nonce. -/
def execAttestQuote (r : Req) (s : State) : Host.Outcome State Fault Refusal :=
  done (s.toBlock.command { code := 0x0101, admin := false, slice := true, len := nonceLen } r (fun b =>
    (b, .ok (b.statement 1 r.payload r.box [] [])))) s

/-- The claim map of a key (Table 10.12, key 12). -/
def keyClaim (h : W32) (k : Key) : List Bytes :=
  [le 4 h.toNat, le 2 k.typ.toNat, le 2 k.usage.toNat, le 1 (b1 k.expire + 2 * b1 k.noMigrate + 4 * b1 k.bound), [k.origin, k.order],
   le 8 k.useLimit.toNat, le 8 k.useCount.toNat, if 4096 < k.publicHalf.length then sha384 k.publicHalf else k.publicHalf, le 8 k.label.toNat]

/-- ATTEST_KEY: a KEY statement for a handle of the slice, or a device-scope key granted to it; any other is KEY_NOT_FOUND. The payload is
the handle and the nonce (log 24). -/
def execAttestKey (r : Req) (s : State) : Host.Outcome State Fault Refusal :=
  done (s.toBlock.command { code := 0x0102, admin := false, slice := true, len := fun n => decide (4 ≤ n) && nonceLen (n - 4) } r (fun b =>
    let h : W32 := BitVec.ofNat 32 (fld r.payload 0 4)
    if b.kst.st ≠ .unlocked then (b, .fail St.keyState 0) else
    match r.box.bind (fun sl => b.visibleKey sl h) with
    | none => (b, .fail St.keyNotFound 0)
    | some k => if k.tombstone then (b, .fail St.keyExpired 0)
      else (b, .ok (b.statement 2 (r.payload.drop 4) r.box (keyClaim h k) [])))) s

/-- CERT_CHAIN: both chains (log 2). -/
def execCertChain (r : Req) (s : State) : Host.Outcome State Fault Refusal :=
  done (s.toBlock.command { code := 0x0103, slice := true, states := anyLife } r (fun b =>
    (b, .ok (b.certChain 0 (2 * signatures + Config.statementLen 6))))) s

/-! ### Measurement registers (R254, R255) -/

/-- MEAS_EXTEND: register 8 to 15 and 48 bytes (log 24). -/
def execMeasExtend (r : Req) (s : State) : Host.Outcome State Fault Refusal :=
  done (s.toBlock.command { code := 0x005A, len := exactly 49 } r (fun b =>
    let m := fld r.payload 0 1; let v := r.payload.drop 1
    if m < 8 ∨ 15 < m then (b, .fail St.badParam 0) else (b.extend m v v, .ok []))) s

/-- MEAS_READ: both banks of all registers, then OVERFLOW and the event log (log 24). -/
def execMeasRead (r : Req) (s : State) : Host.Outcome State Fault Refusal :=
  done (s.toBlock.command { code := 0x0100, slice := true } r (fun b =>
    (b, .ok ((List.range 16).flatMap (fun m => let x : Bank := Tab.get {} b.att.regs m; x.sha2 ++ x.sha3) ++ le 1 (b1 b.att.overflow) ++
      b.att.events.flatMap (fun e => le 1 e.reg ++ le 8 e.ts.toNat ++ e.sha2 ++ e.sha3 ++ [e.kind]))))) s

/-! ### The digest port (R256, R257) -/

/-- The place of a mailbox's context. -/
def digSlot (x : Option SliceId) : Nat := match x with | none => 1024 | some s => s.val
/-- A mailbox's context. -/
def Block.dig (b : Block) (x : Option SliceId) : Dig := Tab.get {} b.att.digs (digSlot x)
/-- Replace a mailbox's context. -/
def Block.setDig (b : Block) (x : Option SliceId) (d : Dig) : Block :=
  { b with att := { b.att with digs := Tab.put b.att.digs (digSlot x) d } }
/-- The longest message of a function in bytes; a Keccak function has none. -/
def phLimit (ph : Nat) : Option Nat := if ph = 1 then some (2 ^ 61 - 1) else if ph ≤ 4 then some (2 ^ 125 - 1) else none
/-- A fresh context of a function. -/
def freshDig (ph : Nat) : Dig := { st := .active, ph := ph, chain := hashInit ph }
/-- A context with data absorbed. -/
def Dig.absorb (d : Dig) (x : Bytes) : Dig :=
  let all := d.part ++ x
  { d with chain := hashBlocks d.ph d.chain all, part := all.drop (all.length / phBlock d.ph * phBlock d.ph), count := d.count + x.length }

/-- A command of the port. -/
def Block.digCmd (b : Block) (code : W16) (r : Req) (len : Nat → Bool) (f : Dig → Except Reply (Dig × Bytes)) : Block :=
  b.command { code := code, slice := true, len := len } r (fun b =>
    match f (b.dig r.box) with
    | .error e => (b, e)
    | .ok (d, out) => (b.setDig r.box d, .ok out))

/-- DIG_INIT: a PH_ID of Table 2.3, one byte (log 24). -/
def execDigInit (r : Req) (s : State) : Host.Outcome State Fault Refusal :=
  done (s.toBlock.digCmd 0x0108 r (exactly 1) (fun _ =>
    let ph := fld r.payload 0 1
    if ph = 0 ∨ 9 < ph then .error (.fail St.badParam 0) else .ok (freshDig ph, []))) s

/-- DIG_UPDATE: on a FINISHED context it begins a new digest with the same function. -/
def execDigUpdate (r : Req) (s : State) : Host.Outcome State Fault Refusal :=
  done (s.toBlock.digCmd 0x0109 r (fun _ => true) (fun d =>
    if d.st = .idle then .error (.fail St.badParam 0x70)
    else
      let d := if d.st = .finished then freshDig d.ph else d
      if (phLimit d.ph).any (fun m => decide (m < d.count + r.payload.length)) then .error (.fail St.lengthMismatch 0)
      else .ok (d.absorb r.payload, []))) s

/-- DIG_FINAL: on a FINISHED context the digest of the empty string. -/
def execDigFinal (r : Req) (s : State) : Host.Outcome State Fault Refusal :=
  done (s.toBlock.digCmd 0x010A r (exactly 0) (fun d =>
    if d.st = .idle then .error (.fail St.badParam 0x70)
    else
      let d := if d.st = .finished then freshDig d.ph else d
      .ok ({ d with st := .finished }, hashEnd d.ph d.chain d.part d.count))) s

/-- DIG_SAVE (Table 10.11): only an ACTIVE context without a partial block. -/
def execDigSave (r : Req) (s : State) : Host.Outcome State Fault Refusal :=
  done (s.toBlock.digCmd 0x010B r (exactly 0) (fun d =>
    if d.st ≠ .active ∨ d.count % phBlock d.ph ≠ 0 then .error (.fail St.badParam 0x71)
    else .ok (d, le 4 0x57445354 ++ le 1 d.ph ++ [1, 0, 0] ++ le 8 d.count ++ fit 200 d.chain))) s

/-- DIG_RESTORE. -/
def execDigRestore (r : Req) (s : State) : Host.Outcome State Fault Refusal :=
  done (s.toBlock.digCmd 0x010C r (exactly 216) (fun _ =>
    let p := r.payload
    let ph := fld p 4 1
    if fld p 0 4 ≠ 0x57445354 ∨ ph = 0 ∨ 9 < ph ∨ fld p 5 1 ≠ 1 ∨ fld p 6 2 ≠ 0 ∨ fld p 8 8 % phBlock ph ≠ 0 then .error (.fail St.inputInvalid 0x72)
    else .ok ({ st := .active, ph := ph, chain := fit 200 (sub p 16 (chainLen ph)), count := fld p 8 8 }, []))) s

/-! ### The key store's status and policy (R253, R423) -/

/-- KiB of the store that the keys of some scopes take. -/
def Block.poolUsed (b : Block) (p : Nat → Bool) : Nat :=
  ((b.kst.keys.filter (fun k => p (k.1 / 2 ^ 21))).foldl (fun a k => a + k.2.space) 0 + 1023) / 1024

/-- KST_STATUS (Table 10.19). What the device's own pool holds is not stated (log 4). -/
def execKstStatus (r : Req) (s : State) : Host.Outcome State Fault Refusal :=
  done (s.toBlock.command { code := 0x0054 } r (fun b =>
    (b, .ok (le 1 b.kst.st.code ++ zeros 3 ++ le 4 (b.poolUsed (fun s => decide (s < 1024))) ++ le 4 (b.poolUsed (fun s => s == 1024)) ++
      le 4 (Config.freeNat 19 0 % 513) ++ le 4 (4032 - (b.bat.owners.filter (fun o => o.2 != .none)).length) ++ le 4 b.kst.lag.length ++
      le 8 b.kst.lastCommit.toNat)))) s

/-- KST_POLICY_GET. -/
def execKstPolicyGet (r : Req) (s : State) : Host.Outcome State Fault Refusal :=
  done (s.toBlock.command { code := 0x0056 } r (fun b => (b, .ok (le 4 b.kst.policy.toNat)))) s

/-- Does a value only tighten KST_POLICY (R253, DEPLOYED)? -/
def tightens (old new : W32) : Bool :=
  (new &&& 0x7F &&& ~~~old) == 0 && decide (bits old.toNat 9 8 ≤ bits new.toNat 9 8)

/-- KST_POLICY_SET: the register and its shadow; register 5 follows. -/
def execKstPolicySet (r : Req) (s : State) : Host.Outcome State Fault Refusal :=
  done (s.toBlock.command { code := 0x0055, len := exactly 4, states := ownedLife } r (fun b =>
    let v : W32 := BitVec.ofNat 32 (fld r.payload 0 4)
    let m := bits v.toNat 9 8
    if m = 0 ∨ m = 3 ∨ v &&& 0xFFFFFC80 ≠ 0 then (b, .fail St.badParam 0x8A)
    else if b.otp.lifecycle = .deployed ∧ !tightens b.kst.policy v then (b, .fail St.keyState 0)
    else (({ b with kst := { b.kst with policy := v, shadow := ~~~v } }.change .policies).measurePolicies, .ok []))) s

/-! ### Device-scope keys (R248): the layouts of their payloads are assumption log 24 -/

/-- A type that some opcode generates, with RSA's key length given: a SHARED_SECRET and the shares and nonces of FROST come of other operations. -/
def deviceType (t nbits : Nat) : Bool := typeListed t && t / 16 != 0x121 && t / 16 != 0x122 && t != 0x0C00 && (t != 0x0900 || nbits != 0)

/-- The opcode that generates a type: a byte string's is KEY_GENERATE's (Table 10.5). -/
def generatorOf (t : Nat) : Nat := if t = 0x0601 then 0x0610 else if t < 0x0C00 ∨ 0x1200 ≤ t then t else 0x1000

/-- What a generation answers besides its handle: the public key, and of a FROST group the shares' handles with their verification shares. -/
def deviceOut (t nbits : Nat) (operand : Bytes) : Nat :=
  match t / 256 with
  | 0x05 | 0x06 => statefulPkLen t operand
  | 0x08 => mcePk (t % 256)
  | 0x12 => frostPoint (t % 16) + fld operand 1 1 * (4 + frostPoint (t % 16))
  | _ => publicLen t nbits

/-- The job of a DEV_KEY_CREATE (R248): priority 7, its template as the parameter block, the generating opcode's own input behind it, an RSA key's
size as the input (log 24). It stands behind every slice's list (log 133). -/
def Block.deviceJob (b : Block) (e : Entry) (t : Nat) (p : Bytes) (ctr : Option Nat) : Job :=
  let input := if t = 0x0900 then sub p 0x1A 2 ++ zeros 6 else p.drop 64
  let d : Desc := { opcode := BitVec.ofNat 16 (generatorOf t), priority := 7, parAddr := 1, inLen := input.length }
  let j : Job := {
    id := b.dsp.next, slice := 0, ring := 0, index := 0, dev := true, level := 7, entry := e, param := p.take 64, input := input,
    desc := d, fixed := input.length, order := b.orderOf 0 (generatorOf t) e d {}, reservedCtr := ctr,
    admittedAt := b.now, readySince := b.now, levelAt := b.now }
  { j with order := j.genOrder }

/-- Begin the generation of a device-scope key, or say why not; an answer that would not fit its room is refused before it (R186). -/
def Block.createDevice (b : Block) (r : Req) : Block ⊕ (Block × Reply) :=
  let p := r.payload
  let t := fld p 0 2
  let nbits := fld p 0x1A 2
  let e := (b.entryOf (generatorOf t)).getD {}
  let lack := b.lacking e
  let ctr := if statefulType t then b.freeCounter else none
  let need := 4 + deviceOut t nbits (p.drop 64)
  match firstFail [
    (b.kst.st != .unlocked, St.keyState, 0),
    (!b.allows 6, St.keyUsage, 0x86),
    (!deviceType t nbits, St.badParam, 0x44),
    (statefulType t && ctr.isNone, St.quota, 8),
    (lack.isSome, St.resourceFenced, lack.getD 0),
    (e.draws && (List.range 4).all (fun q => (b.seeder q).st == .stopped), St.entropyUnavailable, 1),
    (decide (replyRoom r < need), St.outputTooSmall, BitVec.ofNat 32 need)] with
  | some (st, d) => .inr (b, .fail st d)
  | none =>
    let c := match ctr with
      | some n => b.setOwner n (.reserved b.dsp.next)
      | none => b
    .inl { c with jobs := b.jobs ++ [b.deviceJob e t p ctr], dsp := { b.dsp with next := b.dsp.next + 1 } }.refill

/-- DEV_KEY_CREATE: its answer is the job's result, the handle and the public half (R248). -/
def execDevKeyCreate (r : Req) (s : State) : Host.Outcome State Fault Refusal :=
  done (s.toBlock.commandWait { code := 0x0057, len := fun n => decide (64 ≤ n) && decide (n ≤ 128) } r (fun _ => none) (fun b => b.createDevice r)) s

/-- The device-scope key a payload names. -/
def Block.deviceKey (b : Block) (p : Bytes) : Except Reply W32 :=
  let h : W32 := BitVec.ofNat 32 (fld p 0 4)
  if b.kst.st ≠ .unlocked then .error (.fail St.keyState 0)
  else if devScope h ∧ (b.key h).isSome then .ok h else .error (.fail St.keyNotFound 0)

/-- The 16-bit numbers of a byte string. -/
def words16 (p : Bytes) : List W16 := (List.range (p.length / 2)).map (fun i => BitVec.ofNat 16 (fld p (2 * i) 2))

/-- DEV_KEY_GRANT: up to 16 slice numbers, or 0xFFFF. -/
def execDevKeyGrant (r : Req) (s : State) : Host.Outcome State Fault Refusal :=
  done (s.toBlock.command { code := 0x0058, len := fun n => decide (4 ≤ n) && n % 2 == 0 && decide (n ≤ 36) } r (fun b =>
    let l := words16 (r.payload.drop 4)
    match b.deviceKey r.payload with
    | .error e => (b, e)
    | .ok h =>
      if l.any (fun g => decide (1024 ≤ g.toNat) && g != 0xFFFF) then (b, .fail St.badParam 0)
      else ((b.modKey h (fun k => { k with grants := l })).change (.key h), .ok []))) s

/-- DEV_KEY_DELETE. -/
def execDevKeyDelete (r : Req) (s : State) : Host.Outcome State Fault Refusal :=
  done (s.toBlock.command { code := 0x0059, len := exactly 4 } r (fun b =>
    match b.deviceKey r.payload with
    | .error e => (b, e)
    | .ok h => (b.eraseKey h, .ok []))) s

/-! ### Lifecycle (R262, R263, Tables 10.14 to 10.18) -/

/-- The fuses of a lifecycle state, with their inverted shadow. -/
def Block.setLife (b : Block) (l : Lifecycle) : Block :=
  ({ b with otp := { b.otp with lifecycle := l, lifeShadow := ~~~(BitVec.ofNat 8 l.code) } }).measurePolicies

/-- An LC_ command: whatever it does, the nonce of the last LC_CHALLENGE is spent (R263). A slice's mailbox serves none. -/
def Block.lcCmd (b : Block) (c : Cmd) (r : Req) (body : Block → Option Bytes → Block × Reply) : Block :=
  if r.box.isSome || !b.takesGo r.box then b.command c r (fun x => body x none)
  else { b with att := { b.att with nonce := none } }.command c r (fun x => body x b.att.nonce)

/-- LC_STATE (Table 10.18). -/
def execLcState (r : Req) (s : State) : Host.Outcome State Fault Refusal :=
  done (s.toBlock.lcCmd { code := 0x0050, states := anyLife, early := true } r (fun b _ =>
    (b, .ok (le 1 b.otp.lifecycle.code ++ le 1 b.kst.st.code ++ [b.otp.stepping, 0] ++ le 1 b.otp.zeroCount ++ zeros 3 ++ fit 48 b.otp.ownerKeyId)))) s

/-- A failing status that no rule states: one of Table 7.18 (log 4). -/
def unstatedFailure (n : Nat) : Reply := .fail (St.failing.getD (Config.freeNat 18 n % St.failing.length) St.keyState) 0

/-- LC_PROVISION: fuses the owner, draws the root key, captures the Lid's references (R292), and the store is UNLOCKED and empty
(Table 10.15). Which status an absent cell, or a source at ZEROISE or above in alarm (R290), gives is not stated. -/
def execLcProvision (r : Req) (s : State) : Host.Outcome State Fault Refusal :=
  done (s.toBlock.lcCmd { code := 0x0051, states := [.factory], len := exactly 2689 } r (fun b _ =>
    match b.drawDevice 32 with
    | none => (b, .fail St.entropyUnavailable 1)
    | some (root, c) =>
      if !b.bat.supplied || b.tam.active.getLsbD 4 || b.rootBarred then (b, unstatedFailure 0)
      else
        let b := c
        let b := { b with
          otp := { b.otp with ownerKeyId := sha384 r.payload },
          bat := { b.bat with rootKey := some root, zeroised := false },
          kst := { b.kst with st := .unlocked, keys := [] },
          tam := { b.tam with lidRefs := b.tam.lidNow, lidTj := Tjs.hottest b.pwr.tj } }
        ((b.setLife .provisioned).change .policies, .ok []))) s

/-- LC_CHALLENGE: a 32-byte nonce from a seeder; with none that delivers, ENTROPY_UNAVAILABLE (log 166). -/
def execLcChallenge (r : Req) (s : State) : Host.Outcome State Fault Refusal :=
  done (s.toBlock.lcCmd { code := 0x0052 } r (fun b _ =>
    match b.drawDevice 32 with
    | none => (b, .fail St.entropyUnavailable 1)
    | some (n, b) => ({ b with att := { b.att with nonce := some n } }, .ok n))) s

/-- The checks of R263 in order. -/
def Block.authFails (b : Block) (p : Bytes) (nonce : Option Bytes) : Option (W16 × W32) :=
  let t := fld p 0 1
  firstFail [
    (fld p 1 3 != 0, St.badParam, 0),
    (sha384 (sub p 0x54 2689) != b.otp.ownerKeyId, St.inputInvalid, 0x91),
    (nonce != some (sub p 4 32) || sub p 0x24 48 != b.identityDigest, St.inputInvalid, 0x92),
    (!Config.ask .ownerSigOk 2 [p], St.inputInvalid, 0x93),
    (!(t == 3 && b.otp.lifecycle == .provisioned && b.otp.stepping == 0xC0) &&
      !(t == 4 && (b.otp.lifecycle == .provisioned || b.otp.lifecycle == .deployed)), St.badParam, 0x94)]

/-- Entry to DECOMMISSIONED: the zeroise line, every job ended, every slice FREE, the journal erased, the store CLOSED (Table 10.15). -/
def Block.decommission (b : Block) : Block :=
  let b := b.zeroiseLine
  let b := Block.failJobs (b.jobsWhere (fun _ => true)) St.aborted 4 b
  let b := (List.finRange 1024).foldl (fun (b : Block) (s : SliceId) => if (b.slice s).st = .free then b else b.destroySlice s) b
  let b := { b with kst := { b.kst with st := .closed, keys := [], lag := [] }, flash := b.flash.eraseJournal }
  b.setLife .decommissioned

/-- LC_TRANSITION (R263). -/
def execLcTransition (r : Req) (s : State) : Host.Outcome State Fault Refusal :=
  done (s.toBlock.lcCmd { code := 0x0053, len := exactly 7496 } r (fun b nonce =>
    match b.authFails r.payload nonce with
    | some (st, d) => (b, .fail st d)
    | none => if fld r.payload 0 1 = 3 then (b.setLife .deployed, .ok []) else (b.decommission, .ok []))) s

/-! ### SPDM and TDISP (R165, R166, R225, R261) -/

/-- A transport's connection. -/
def Block.spdm (b : Block) : SpdmVia → SpdmConn
  | .doe => b.host.doe
  | .mctp => b.host.mctp

/-- Change a transport's connection. -/
def Block.setSpdm (b : Block) (v : SpdmVia) (c : SpdmConn) : Block :=
  match v with
  | .doe => { b with host := { b.host with doe := c } }
  | .mctp => { b with host := { b.host with mctp := c } }

/-- A response: version, code, two parameters and fields; a long one goes out in chunks, which are not shown (PRESUMED, log 139). -/
def Block.spdmSays (b : Block) (v : SpdmVia) (sec : Bool) (code p1 p2 : Byte) (body : Bytes) : Block :=
  b.emit (.spdm v sec ([if (b.spdm v).version = 0 then 0x10 else (b.spdm v).version, code, p1, p2] ++ body))

/-- The ERROR response with its code (log 139). -/
def Block.spdmError (b : Block) (v : SpdmVia) (sec : Bool) (code : Byte) : Block := b.spdmSays v sec 0x7F code 0 []

/-- The P-384 signature of a response over what the requester sent, the responder's nonce and the fields (R261): 96 bytes of outside standards
(log 2). -/
def spdmSignature (asked nonce body : Bytes) : Bytes := algBytes .ecSig 0x48 [asked, nonce, body] 96

/-- A signed response: it carries a fresh nonce of a seeder and the signature; with no seeder that delivers, Busy (log 166). -/
def Block.spdmSigned (b : Block) (v : SpdmVia) (sec : Bool) (code p1 : Byte) (asked body : Bytes) : Block :=
  match b.drawDevice 32 with
  | none => b.spdmError v sec 0x03
  | some (n, c) => c.spdmSays v sec code p1 0 (body ++ n ++ spdmSignature asked n body)

/-- The capabilities CERT, CHAL, MEAS with signature, ENCRYPT, MAC, KEY_EX and chunking (R165, R261; the bits are log 139's). -/
def spdmCaps : Nat := 0x202D6

/-- May a request be served: after the negotiation, and a secured one within a session? -/
def SpdmConn.serves (c : SpdmConn) (sec : Bool) : Bool := c.algs && (!sec || c.sessions != 0)

/-- SPDM_GET_MEASUREMENTS: blocks 1 to 16 are the SHA-384 banks, block 0xFD a QUOTE over the requester's nonce; another block is an invalid
request. A signature is by P-384 alone (R261). -/
def execSpdmGetMeasurements (m : MeasRequest) (nonce : Bytes) (s : State) : Host.Outcome State Fault Refusal :=
  let b := s.toBlock
  let n := m.block.toNat
  let say (d : Bytes) : Block :=
    if m.signed then b.spdmSigned m.via m.secured 0x60 0 (m.block :: nonce) d else
    match b.drawDevice 32 with
    | none => b.spdmError m.via m.secured 0x03
    | some (n, c) => c.spdmSays m.via m.secured 0x60 0 0 (d ++ n)
  done (
    if !b.boot.rimUp then b
    else if !(b.spdm m.via).serves m.secured then b.spdmError m.via m.secured 0x04
    else if 1 ≤ n ∧ n ≤ 16 then say (Tab.get {} b.att.regs (n - 1) : Bank).sha2
    else if n = 0xFD then say (b.statement 1 nonce none [] [])
    else b.spdmError m.via m.secured 0x01) s

/-- Version, capabilities and algorithms (R165): GET_VERSION begins a connection anew; versions 1.2 and 1.3 are offered; what the requester offers
of the responder's algorithms is selected. FINISH, under the handshake's own keys, opens the session of a key exchange. -/
def Block.spdmNegotiate (b : Block) (v : SpdmVia) (sec : Bool) : SpdmMsg → Option Block
  | .getVersion => some ((b.setSpdm v {}).spdmSays v false 0x04 0 0 [0, 2, 0x00, 0x12, 0x00, 0x13])
  | .getCapabilities ver => some (
      if ver = 0x12 ∨ ver = 0x13 then (b.setSpdm v { b.spdm v with version := ver }).spdmSays v false 0x61 0 0 (le 4 spdmCaps)
      else b.spdmError v false 0x41)
  | .negotiate asym hash dhe aead => some (
      if (b.spdm v).version = 0 then b.spdmError v false 0x04
      else (b.setSpdm v { b.spdm v with algs := asym && hash, kex := asym && hash && dhe && aead }).spdmSays v false 0x63 0 0
        [BitVec.ofNat 8 (b1 asym), BitVec.ofNat 8 (b1 hash), BitVec.ofNat 8 (b1 dhe), BitVec.ofNat 8 (b1 aead)])
  | .finish ok =>
    let c := b.spdm v
    some (
      if c.handshakes = 0 then b.spdmError v sec 0x04
      else if !ok then (b.setSpdm v { c with handshakes := c.handshakes - 1 }).spdmError v sec 0x06
      else (b.setSpdm v { c with handshakes := c.handshakes - 1, sessions := c.sessions + 1 }).spdmSays v sec 0x65 0 0 [])
  | _ => none

/-- Certificates, challenges and sessions. Certificate slot 0 alone holds a chain (R261). -/
def Block.spdmSession (b : Block) (v : SpdmVia) (sec : Bool) (m : SpdmMsg) : Block :=
  let c := b.spdm v
  match m with
  | .getCertificate slot =>
    if slot ≠ 0 then b.spdmError v sec 0x01 else b.spdmSays v sec 0x02 0 0 (b.certChain 1 (Config.statementLen 7))
  | .challenge slot nonce =>
    if slot ≠ 0 then b.spdmError v sec 0x01
    else b.spdmSigned v sec 0x03 0 nonce (sha384 (b.certChain 1 (Config.statementLen 7)))
  | .keyExchange share =>
    if !c.kex || sec then b.spdmError v sec 0x04
    else match b.drawDevice 32 with
      | none => b.spdmError v sec 0x03
      | some (x, d) => (d.setSpdm v { c with handshakes := c.handshakes + 1 }).spdmSigned v sec 0x64 0 share (algBytes .ecdh 0x48 [x, share] 96)
  | .endSession => if !sec then b.spdmError v sec 0x04 else (b.setSpdm v { c with sessions := c.sessions - 1 }).spdmSays v sec 0x6C 0 0 []
  | _ => b

/-- The answer of a TDISP or IDE_KM request inside a vendor-defined response; it fails with TDISP_ERROR (log 139). -/
def Block.tdispSays (b : Block) (v : SpdmVia) (sec : Bool) (code : Byte) (body : Bytes) : Block := b.spdmSays v sec 0x7E 0 0 (code :: body)

/-- IDE stream keys, only within a secured session (R165), and the TDI states of a slice (R166, R225). -/
def Block.tdispRequest (b : Block) (v : SpdmVia) (sec : Bool) (m : SpdmMsg) : Block :=
  let h := b.host
  let no := b.tdispSays v sec 0x7F []
  match m with
  | .ideKeyProgram k =>
    if !sec then b.spdmError v sec 0x04 else { b with host := { h with ide := setBit h.ide k true } }.tdispSays v sec 0x03 []
  | .ideKeyStop k =>
    if !sec then b.spdmError v sec 0x04 else { b with host := { h with ide := setBit h.ide k false } }.tdispSays v sec 0x06 []
  | .tdiLock sl k =>
    let x := b.slice sl
    if x.st = .quiesced ∧ (x.pasid.bind id).isSome ∧ x.tdi = .unlocked ∧ h.ide.getLsbD k then
      (b.modSlice sl (fun x => { x with tdi := .locked, stream := k })).tdispSays v sec 0x03 []
    else no
  | .tdiStart sl =>
    if (b.slice sl).tdi = .locked ∧ (b.slice sl).st = .active then (b.modSlice sl (fun x => { x with tdi := .run })).tdispSays v sec 0x06 [] else no
  | .tdiStop sl => (b.modSlice sl (fun x => { x with tdi := .unlocked })).tdispSays v sec 0x07 []
  | .tdiReport sl => b.tdispSays v sec 0x04 (algBytes .statement 64 [le 2 sl.val] (Config.statementLen 8))
  | _ => b

/-- SPDM_MESSAGE: nothing is answered while the Rim is down (R188). -/
def execSpdmMessage (m : SpdmRequest) (s : State) : Host.Outcome State Fault Refusal :=
  let b := s.toBlock
  done (
    if !b.boot.rimUp then b else
    match b.spdmNegotiate m.via m.secured m.msg with
    | some b' => b'
    | none =>
      if !(b.spdm m.via).serves m.secured then b.spdmError m.via m.secured 0x04 else
      match m.msg with
      | .getCertificate _ | .challenge _ _ | .keyExchange _ | .endSession => b.spdmSession m.via m.secured m.msg
      | _ => b.tdispRequest m.via m.secured m.msg) s

end Sys2Proof.Machine
end

