-- ==== Sys2Proof/Machine/BigNumber.lean ====
section
/-! DEFINITION. The big-number engine of a wale: the primitive micro-operations (R117) and the secret level (R86, Table 5.8). -/
namespace Sys2Proof.Machine

/-- The fields of a parameter laid out as the inline parameter of R87. -/
structure PrimPar where
  form : Nat
  elen : Nat
  len : Nat
  reserved : Nat
deriving DecidableEq, Repr

/-- Read R87's layout. -/
def primPar (v : W64) : PrimPar := ⟨bits v.toNat 33 32, bits v.toNat 31 16, bits v.toNat 15 0, bits v.toNat 63 34⟩

/-- Is a parameter legal for an operation (R87)? -/
def PrimPar.legal (p : PrimPar) (o : Prim) : Bool :=
  p.reserved == 0 && (if o.point then decide (p.form < 2) else p.form == 0) &&
  p.len % 64 == 0 && decide (64 ≤ p.len) && decide (p.len ≤ 16384) &&
  (if o.scalar then decide (1 ≤ p.elen) && decide (p.elen ≤ 16384) else p.elen == 0)

/-- The leading bytes of an operand object, which must hold them and be P (R86, R117). -/
def Wale.bnOperand (w : Wale) (r : Reg) (n : Nat) : Except W32 Bytes :=
  if n = 0 then .ok [] else do
  let o ← w.named r
  check (w.objS o) 0x104
  check (decide (o.len < n)) 0x10E
  w.inSpan o 0 n
  .ok (w.load o 0 n)

/-- A primitive BN operation (an S parameter register is an address from S data, log 14): the result in D and flag 0, or zeros in D and flag 1 where a check of Table 4.8 fails (R117). -/
def bnPrim (op : Prim) (f : BnF) (nx : Nx) (w : Wale) : Except W32 Wale := do
  check (w.regS f.par) 0x102
  let p := primPar (w.reg f.par)
  check (!p.legal op) 0x10E
  let (na, nb, nm) := op.lens p.len p.elen
  let a ← w.bnOperand f.a na
  let b ← w.bnOperand f.b nb
  let m ← w.bnOperand f.m nm
  let d ← w.named f.d
  check (decide (d.len < op.outLen p.len)) 0x10E
  w.inSpan d 0 (op.outLen p.len)
  let r := primRun op (p.form == 1) p.elen p.len a b m
  let out := match r with | .ok v => v | .error _ => zeros (op.outLen p.len)
  let bad := match r with | .ok _ => false | .error _ => true
  ((w.store d 0 out false).setFlag f.flag bad false).after nx

def execBnModAdd (w : WaleId) (b : BnF) (nx : Nx) (s : State) : Host.Outcome State Fault Refusal :=
  done (s.toBlock.micro w (.bnModAdd w b nx) (bnPrim .modAdd b nx)) s
def execBnModSub (w : WaleId) (b : BnF) (nx : Nx) (s : State) : Host.Outcome State Fault Refusal :=
  done (s.toBlock.micro w (.bnModSub w b nx) (bnPrim .modSub b nx)) s
def execBnModMul (w : WaleId) (b : BnF) (nx : Nx) (s : State) : Host.Outcome State Fault Refusal :=
  done (s.toBlock.micro w (.bnModMul w b nx) (bnPrim .modMul b nx)) s
def execBnModRed (w : WaleId) (b : BnF) (nx : Nx) (s : State) : Host.Outcome State Fault Refusal :=
  done (s.toBlock.micro w (.bnModRed w b nx) (bnPrim .modRed b nx)) s
def execBnModInv (w : WaleId) (b : BnF) (nx : Nx) (s : State) : Host.Outcome State Fault Refusal :=
  done (s.toBlock.micro w (.bnModInv w b nx) (bnPrim .modInv b nx)) s
def execBnModExp (w : WaleId) (b : BnF) (nx : Nx) (s : State) : Host.Outcome State Fault Refusal :=
  done (s.toBlock.micro w (.bnModExp w b nx) (bnPrim .modExp b nx)) s
def execBnPtAdd (w : WaleId) (b : BnF) (nx : Nx) (s : State) : Host.Outcome State Fault Refusal :=
  done (s.toBlock.micro w (.bnPtAdd w b nx) (bnPrim .ptAdd b nx)) s
def execBnPtMul (w : WaleId) (b : BnF) (nx : Nx) (s : State) : Host.Outcome State Fault Refusal :=
  done (s.toBlock.micro w (.bnPtMul w b nx) (bnPrim .ptMul b nx)) s

/-- A secret-level operation (values 0x20 to 0x3F, maker only): which arithmetic each value names and which objects it uses the spec
does not say, so D and the flag take free values of the operation, A, B and M (log 14). An S operand makes them S; in a customer
program it is the machine check of R81. -/
def execBnSecret (w : WaleId) (op : BitVec 5) (f : BnF) (nx : Nx) (s : State) : Host.Outcome State Fault Refusal :=
  done (s.toBlock.micro w (.bnSecret w op f nx) (fun x => do
    check (x.regS f.par) 0x102
    let a ← x.named f.a
    let b ← x.named f.b
    let m ← x.named f.m
    let d ← x.named f.d
    let sec := x.objS a || x.objS b || x.objS m
    check (x.micro.customer && sec) 0x104
    x.inSpan a 0 a.len
    x.inSpan b 0 b.len
    x.inSpan m 0 m.len
    x.inSpan d 0 d.len
    let args := [x.load a 0 a.len, x.load b 0 b.len, x.load m 0 m.len, le 8 (x.reg f.par).toNat]
    ((x.store d 0 (algBytes .secretBn op.toNat args d.len) sec).setFlag f.flag (Config.ask .samplerDone op.toNat args) sec).after nx)) s

end Sys2Proof.Machine
end

