-- ==== Sys2Proof/Machine/Migration.lean ====
section
/-! DEFINITION. Migration (R226 to R231, Tables 9.6 and 9.7). The package's header is laid out here; the layouts inside the sealed image
and the wrapped transfer block are not stated, so their bytes and what is read back from them come from the outside standards
(assumption log 2). -/
namespace Sys2Proof.Machine

/-! ### Requests, packages and receipts -/

/-- A MIG_ command: the slice, and the payload behind its four-byte head (R212). -/
def Block.migCmd (b : Block) (code : W16) (r : Req) (len : Nat → Bool) (st : SliceSt) (body : Block → SliceId → Bytes → Block × Reply) : Block :=
  b.sliceCmd code r (fun n => decide (4 ≤ n) && len (n - 4)) [st] (fun b sl => body b sl (r.payload.drop 4))

/-- A payload of any length. -/
def anyLen : Nat → Bool := fun _ => true

/-- The public halves of a destination's transport keys: the ML-KEM-1024 encapsulation key and the uncompressed P-384 key (R227). -/
def transportPublic (secret : Bytes) : Bytes := algBytes .transport 1 [secret] (1568 + 97)

/-- MIG_PREPARE (R227): the token and two key pairs, kept until the next reset; the number chosen is returned in Detail (R213). -/
def execMigPrepare (r : Req) (s : State) : Host.Outcome State Fault Refusal :=
  done (s.toBlock.commandIn { code := 0x0040, len := exactly 4 } r (fun b => b.stateRefusal r.payload [.free]) (fun b =>
    match b.chosen r.payload with
    | .error e => (b, e)
    | .ok sl =>
      if 15360 < b.kstReserved sl + 64 then (b, .fail St.quota 6)
      else match b.drawDevice 128 with
      | none => (b, .fail St.entropyUnavailable 1)
      | some (d, b) =>
        let token := d.take 16; let secret := d.drop 16
        let b := b.makeSlice sl false .receiving
        let b := b.modSlice sl (fun x => { x with mig := { token := some token, secret := secret } })
        (b, { detail := chosenDetail r.payload sl,
              out := b.statement 3 [] (some sl) [] [le 2 sl.val, token, transportPublic secret, b.otp.ownerKeyId, [b.otp.stepping],
                le 1 b.otp.lifecycle.code] }))) s

/-- What an import request says of its destination. -/
def requestOf (q : Bytes) : Nat × Nat × Nat :=
  let l := Config.decoded .importRequest 1 [q]
  (l.getD 0 0, l.getD 1 0, l.getD 2 0)

/-- Does the tenant's policy permit the destination of a request (R226)? -/
def Block.permits (b : Block) (sl : SliceId) (q : Bytes) : Bool :=
  let x := b.slice sl
  if x.migPolicy = 1 then algBytes .importRequest 2 [q] 48 == b.otp.ownerKeyId
  else if x.migPolicy = 2 then algBytes .importRequest 3 [q] 48 == x.migDigest
  else false

/-- Does migration carry a key (Table 9.7)? -/
def Key.carried (k : Key) : Bool := !k.noMigrate && !k.expire && !k.tombstone && k.typ.toNat / 16 != 0x122

/-- The keys of a slice, with their handles. -/
def Block.keysOf (b : Block) (sl : SliceId) : List (W32 × Key) :=
  (b.kst.keys.filter (fun p => p.1 / 2 ^ 21 == sl.val)).map (fun p => (BitVec.ofNat 32 p.1, p.2))

/-- The anti-rollback counters of a slice with their values. -/
def Block.slicesCounters (b : Block) (sl : SliceId) : List (Nat × Nat) :=
  (b.bat.owners.filter (fun p => p.2 == .slice sl)).map (fun p => (p.1, b.counter p.1))

/-- The retained public keys of a slice as kind-2 objects; their contents lie in the DDR5 outside the boundary (R23). -/
def Block.kindTwo (b : Block) (sl : SliceId) : Bytes :=
  (b.ddr.objects.filter (fun o => o.slice == sl && (b.keysOf sl).any (fun k => k.2.pkObject == some o.number.toNat))).flatMap (fun o =>
    objectHeader 2 false sl 0xFFFF 0 o.number.toNat [] (o.len - 48) ++ algBytes .image 9 [le 2 sl.val, le 4 o.number.toNat] (o.len - 48))

/-- The migration package (Table 9.6) for a request, from `seed` drawn for the encapsulation and the ephemeral key. -/
def Block.package (b : Block) (sl : SliceId) (q seed : Bytes) : Bytes :=
  let keys := (b.keysOf sl).filter (fun k => k.2.carried)
  let ctrs := b.slicesCounters sl
  let states := keys.filterMap (fun k => k.2.stateful.map (fun t => le 4 k.1.toNat ++ le 8 t.c ++ le 1 (b1 t.cancelled) ++ t.parents.flatten))
  let token := algBytes .importRequest 1 [q] 16
  let secrets := b.sealKey sl.val ++ ctrs.flatMap (fun c => [le 2 c.1, le 8 c.2]) ++ states
  let t := Config.freeNat 20 (secrets.length + 64 * states.length)
  let attrs := [le 1 (b1 (b.slice sl).adsor), le 1 (b.slice sl).weight, le 1 (b.slice sl).ceiling.val, [(b.slice sl).migPolicy], (b.slice sl).migDigest]
  let content := attrs ++ keys.flatMap (fun k => [le 4 k.1.toNat, attrBytes k.2, k.2.material, k.2.pkDigest])
  let n := Config.freeNat 21 (keys.foldl (fun a k => a + k.2.space) 0)
  let image := b.object 4 sl.val 0xFFFF 0 sl.val (b.sealNonce sl.val (b.slice sl).sealCtr) (fit n content.flatten)
  let ddr := b.kindTwo sl
  let sigLen := signatures + Config.statementLen 9
  let head := le 4 0x574D5047 ++ le 2 1 ++ le 2 sl.val ++ le 2 (requestOf q).1 ++ le 2 (b1 (b.slice sl).adsor) ++ zeros 4 ++ token ++ sha384 q ++
    le 4 t ++ le 4 image.length ++ le 4 ddr.length ++ le 4 sigLen
  let body := head ++ algBytes .transport 2 [q, seed] (1568 + 97) ++ zeros 7 ++ algBytes .transport 3 ([q, seed, token, sha384 (head.take 0x60)] ++ secrets) t ++
    image ++ ddr
  body ++ algBytes .statement 9 [body] sigLen

/-- Change every stateful key of a slice, each a change for the journal (R229, R231, R244). -/
def Block.modStateful (b : Block) (sl : SliceId) (f : Stateful → Stateful) : Block :=
  ((b.keysOf sl).filter (fun k => k.2.stateful.isSome)).foldl (fun (b : Block) (k : W32 × Key) =>
    (b.modKey k.1 (fun k => { k with stateful := k.stateful.map f })).change (.key k.1)) b

/-- MIG_SAVE (R228, R229): the checks in order, the package, and the slice is FROZEN. Where the sealing counter stands at its ceiling the command
first commits the next (R245). With no seeder that delivers it fails with ENTROPY_UNAVAILABLE (log 166). -/
def execMigSave (r : Req) (s : State) : Host.Outcome State Fault Refusal :=
  done (s.toBlock.migCmd 0x0041 r anyLen .quiesced (fun b sl q =>
    let d := requestOf q
    if (b.slice sl).locked then (b, lockedReply) else
    match firstFail [
      (!Config.ask .requestOk 0 [q], St.inputInvalid, 0x21),
      (d.2.1 != 0xC0 || (d.2.2 != 2 && d.2.2 != 3), St.inputInvalid, 0x22),
      (!b.permits sl q, St.keyUsage, 0x23)] with
    | some (st, e) => (b, .fail st e)
    | none =>
      match b.drawDevice 80 with
      | none => (b, .fail St.entropyUnavailable 1)
      | some (seed, b) =>
      let b := if (b.slice sl).sealCeil ≤ (b.slice sl).sealCtr then b.writeChange (.slice sl) else b
      let p := b.package sl q seed
      let b := b.modSlice sl (fun x => { x with sealCtr := x.sealCtr + 1 })
      let b := b.modSlice sl (fun x => { x with mig := { x.mig with savedToken := algBytes .importRequest 1 [q] 16, savedDigest := sha384 p } })
      let b := b.modStateful sl (fun t => { t with migrating := true })
      ((b.sliceTo sl .frozen).change (.slice sl), .ok p))) s

/-! ### Restoring -/

/-- The fields of a package that R230 checks first. -/
def packageShape (p : Bytes) : Bool :=
  fld p 0 4 == 0x574D5047 && fld p 4 2 == 1 && decide (fld p 0xA 2 ≤ 1) && fld p 0xC 4 == 0 && allZero (sub p 0x6E1 7) &&
  p.length == 0x6E8 + fld p 0x50 4 + fld p 0x54 4 + fld p 0x58 4 + fld p 0x5C 4

/-- The checks of R230 in order; last of the reservations, that every counter finds a free one (R246). -/
def Block.restoreFails (b : Block) (sl : SliceId) (p : Bytes) (counters : Nat) : Option (W16 × W32) :=
  let x := b.slice sl
  let free := ((List.range 4032).filter (fun n => b.ctrOwner (n + 64) == .none)).length
  firstFail [
    (!packageShape p, St.inputInvalid, 0x31),
    (x.mig.token != some (sub p 0x10 16), St.inputInvalid, 0x32),
    (!Config.ask .packageOk 3 [p], St.inputInvalid, 0x33),
    (decide (x.quota.kst * 1024 < fld p 0x54 4), St.quota, 6),
    (decide (x.quota.ddr5 * 1048576 < fld p 0x58 4), St.quota, 5),
    (decide (free < counters), St.quota, 8),
    (!Config.ask .packageOk 5 [x.mig.secret, p], St.inputInvalid, 0x34)]

/-- The key at an index of a package (Table 9.7): attributes, material with a share's numbers, and what the store keeps beside them. A key that a
cancelled migration left in KEY_STATE stays so (R231). -/
def carriedKey (secret p : Bytes) (i : Nat) : Key :=
  let a : List Bytes := [secret, p, le 4 i]
  let k := parseAttr (algBytes .image 2 a 64)
  let t := k.typ.toNat
  let sec := secretLen t k.keyLen.toNat
  let pub := if frostKey t then (Config.decoded .image 12 a).getD 0 0 + 3 else publicLen t k.keyLen.toNat
  let obj := (Config.decoded .image 5 a).head?
  let st := Config.decoded .transport 4 a
  let c := st.getD 0 0
  { k.ofMaterial (algBytes .image 3 a (sec + pub)) sec with
    pkObject := obj, pkDigest := algBytes .image 6 a 32,
    stateful := if statefulType t then
        some { u := c, c := c, b := k.granule.toNat, height := st.getD 1 0, levels := st.getD 2 1, bottom := st.getD 3 0, trees := st.getD 4 1,
               parents := (List.range (st.getD 6 0)).map (fun n => algBytes .image 11 (a ++ [le 4 n]) (st.getD 7 0)), cancelled := st.getD 5 0 == 1 }
      else none }

/-- Take a counter for a holder and bring it to a value: the one wanted if it is free, else the first free (log 140): the counter taken and
what it stands above that value (R246). -/
def Block.takeCounter (b : Block) (o : CtrOwner) (want v : Nat) : Block × Nat × Nat :=
  match if 64 ≤ want ∧ want < 4096 ∧ b.ctrOwner want = .none then some want else b.freeCounter with
  | none => (b, 0xFFFFFFFF, 0)
  | some n => ((b.setOwner n o).raiseCounter n v, n, b.counter n - v)

/-- Take a carried anti-rollback counter: the slice knows it by the number it had (log 140). -/
def Block.installCounter (b : Block) (sl : SliceId) (c : Nat × Nat) : Block :=
  let (b, n, _) := b.takeCounter (.slice sl) c.1 c.2
  if n = c.1 then b else b.modSlice sl (fun x => { x with ctrAka := Tab.put x.ctrAka c.1 n })

/-- Install a carried key under its index in the destination slice; a stateful key's counter is set to C and u = C (R229). -/
def Block.installKey (b : Block) (sl : SliceId) (secret p : Bytes) (i : Nat) : Block :=
  let h := handleOf sl (i % 2 ^ 21)
  let k := carriedKey secret p i
  match k.stateful with
  | none => b.enterKey sl h { k with ctr := if k.bound then BitVec.ofNat 32 (b.ctrOf sl k.ctr.toNat) else 0xFFFFFFFF }
  | some t =>
    let (b, n, surplus) := b.takeCounter (.key h) k.ctr.toNat t.c
    b.enterKey sl h { k with ctr := BitVec.ofNat 32 n, stateful := some { t with base := surplus } }

/-- The objects of a package's DDR5 section, walked by their lengths (Table 8.10) and placed as any new object is (R206); the fuel is the
section's length. -/
def Block.installObjects (b : Block) (sl : SliceId) : Nat → Bytes → Block
  | 0, _ => b
  | fuel + 1, d =>
    if d.length < 48 then b else
      let len := 48 + fld d 0x2C 4
      let b := match b.placeObject sl (fld d 0x18 8) len with
        | some o => b.attach o
        | none => b
      Block.installObjects b sl fuel (d.drop len)

/-- Pairs of a list of numbers. -/
def pairs : List Nat → List (Nat × Nat)
  | a :: b :: r => (a, b) :: pairs r
  | _ => []

/-- The anti-rollback counters of a package, number and value. -/
def carriedCounters (secret p : Bytes) : List (Nat × Nat) := pairs (Config.decoded .transport 5 [secret, p])

/-- Install a package (R230, Table 9.7). -/
def Block.install (b : Block) (sl : SliceId) (p : Bytes) : Block :=
  let m := (b.slice sl).mig
  let t := fld p 0x50 4; let i := fld p 0x54 4; let d := fld p 0x58 4
  let at_ := Config.decoded .image 7 [m.secret, p]
  let b := b.modSlice sl (fun x => { x with
    adsor := bit (fld p 0xA 2) 0, weight := max 1 (at_.getD 0 16), ceiling := Fin.ofNat 8 (at_.getD 1 5),
    migPolicy := BitVec.ofNat 8 (at_.getD 2 1), migDigest := algBytes .image 8 [m.secret, p] 48, carried := some (algBytes .transport 6 [m.secret, p] 32),
    aka := fld p 6 2 :: Config.decoded .image 10 [m.secret, p],
    sealCtr := at_.getD 3 0, sealCeil := at_.getD 3 0 + 1024, nextObject := at_.getD 4 0, mig := {} })
  let b := (carriedCounters m.secret p).foldl (fun (b : Block) c => b.installCounter sl c) b
  let b := (Config.decoded .image 1 [m.secret, p]).foldl (fun (b : Block) (k : Nat) => b.installKey sl m.secret p k) b
  b.installObjects sl d (sub p (0x6E8 + t + i) d)

/-- MIG_RESTORE (R230): all or nothing; the commit receipt names the token and the digest of the package. -/
def execMigRestore (r : Req) (s : State) : Host.Outcome State Fault Refusal :=
  done (s.toBlock.migCmd 0x0042 r anyLen .receiving (fun b sl p =>
    let m := (b.slice sl).mig
    let wanted := (carriedCounters m.secret p).length +
      ((Config.decoded .image 1 [m.secret, p]).filter (fun i => (carriedKey m.secret p i).stateful.isSome)).length
    match b.restoreFails sl p wanted with
    | some (st, e) => (b, .fail st e)
    | none =>
      let b := ((b.install sl p).sliceTo sl .quiesced).change (.slice sl)
      (b, .ok (b.statement 4 [] (some sl) [] [m.token.getD [], sha384 p])))) s

/-- MIG_ABANDON: token and transport keys are destroyed; the receipt names the token. -/
def execMigAbandon (r : Req) (s : State) : Host.Outcome State Fault Refusal :=
  done (s.toBlock.migCmd 0x0043 r (exactly 0) .receiving (fun b sl _ =>
    let token := (b.slice sl).mig.token.getD []
    let b := b.destroySlice sl
    (b, .ok (b.statement 5 [] (some sl) [] [token])))) s

/-- Does a receipt chain to the maker and name the token and package of the last MIG_SAVE (R231)? -/
def Slice.accepts (x : Slice) (typ : Nat) (q : Bytes) : Bool := Config.ask .receiptOk typ [q, x.mig.savedToken, x.mig.savedDigest]

/-- MIG_COMMIT. -/
def execMigCommit (r : Req) (s : State) : Host.Outcome State Fault Refusal :=
  done (s.toBlock.migCmd 0x0044 r anyLen .frozen (fun b sl q =>
    if (b.slice sl).accepts 4 q then (b.destroySlice sl, .ok []) else (b, .fail St.inputInvalid 0x35))) s

/-- MIG_UNFREEZE: the stateful keys sign again, from u = C. -/
def execMigUnfreeze (r : Req) (s : State) : Host.Outcome State Fault Refusal :=
  done (s.toBlock.migCmd 0x0045 r anyLen .frozen (fun b sl q =>
    if (b.slice sl).accepts 5 q then
      (((b.modStateful sl (fun t => { t with migrating := false, u := t.c })).sliceTo sl .quiesced).change (.slice sl), .ok [])
    else (b, .fail St.inputInvalid 0x35))) s

/-- MIG_CANCEL: every stateful key stays in KEY_STATE for ever. -/
def execMigCancel (r : Req) (s : State) : Host.Outcome State Fault Refusal :=
  done (s.toBlock.migCmd 0x0046 r (exactly 0) .frozen (fun b sl _ =>
    (((b.modStateful sl (fun t => { t with migrating := false, cancelled := true })).sliceTo sl .quiesced).change (.slice sl), .ok []))) s

end Sys2Proof.Machine
end

