-- ==== Sys2Proof/Machine/Random.lean ====
section
/-! DEFINITION. Noise sources, health tests, conditioners, seeders and wale DRBG reseeds (chapter 11, R264 to R284). -/
namespace Sys2Proof.Machine

/-- Has the randomness come up again after standby (R354): no source is STARTING, and every seeder with a HEALTHY source is SEEDED, a fenced
one apart? -/
def Block.awake (b : Block) : Bool :=
  (List.range 8).all (fun i => (b.source i).st != .starting) &&
  (List.range 4).all (fun q => b.healthy q == 0 || (b.seeder q).st == .seeded || b.flt.fence.has (.seeder q))

/-- A PWR_WAKE in progress is answered once the randomness is up (R354). -/
def Block.checkWake (b : Block) : Block :=
  if b.admin.busy && b.admin.code == 0x00A4 && b.awake then b.complete none (.ok []) else b

/-! ### Sources -/

/-- The Detail of a source's or seeder's note (Table 11.5). -/
def testDetail (test code : Nat) : W32 := BitVec.ofNat 32 (test * 65536 + code)

/-- A source enters STARTING; CODE starts from 512 only where it comes from OFF or FENCED (R264). -/
def Block.startSource (b : Block) (i : Nat) : Block :=
  b.modSource i (fun x => { x with
    st := .starting, since := b.now, code := if x.st = .off ∨ x.st = .fenced then 512 else x.code, quiet := 0, rail := 0 })

/-- A source is switched off. -/
def Block.stopSource (b : Block) (i : Nat) : Block :=
  b.modSource i (fun x => { x with st := .off, since := b.now, code := 512, quiet := 0, rail := 0 })

/-- A source becomes FENCED with an F1 note carrying TEST and CODE at the failure (R264, R268, R270). -/
def Block.fenceSource (b : Block) (i test : Nat) : Block :=
  (b.restSource i).note (Src.noise i) 0x0A 1 (testDetail test (b.source i).code)

/-- The self-test of a fenced unit has ended (R315, R425): a pass lifts the fence, a failure keeps it and raises F1 SELF_TEST; the
FLT_UNFENCE in progress is answered, and a lift clears the unit's escalation counts (R314). A noise source's self-test is its start-up test
(R269, R270): one that passed is HEALTHY, one that failed is FENCED with TEST 4. -/
def Block.endTest (b : Block) (u : FUnit) (passed : Bool) : Block :=
  if !b.flt.tests.contains u.source then b else
  let b := { b with flt := { b.flt with tests := b.flt.tests.filter (· != u.source) } }
  let mine := b.admin.code == 0x0083 && b.admin.busy &&
    b.admin.cmd.any (fun r => FUnit.ofSource (BitVec.ofNat 16 (fld r.payload 0 2)) == some u)
  if passed then
    let b := match u with
      | .noise i => b.modSource i (fun x => { x with st := .healthy, since := b.now, quiet := 0 })
      | _ => b
    let b := if b.flt.fence.has u then b.unfence u else b.settleEntropy
    let b := { b with flt := { b.flt with counted := b.flt.counted.filter (fun c => FUnit.ofSource c.1 != some u) } }
    if mine then b.complete none (.ok []) else b
  else
    let b := match u with
      | .noise i => (b.fenceSource i 4).settleEntropy
      | _ => b
    let b := b.note u.source 0x15 1 (openDetail 0x15)
    if mine then b.complete none (.fail St.unitFault 1) else b

/-- The start-up test of a source fails (R269): it is FENCED directly, TEST 4. Under the factory pattern no test runs (R283). -/
def Block.startFails (b : Block) (i : Nat) : Block :=
  if b.rng.pattern.isSome then b
  else if b.flt.tests.contains (Src.noise i) then b.endTest (.noise i) false else (b.fenceSource i 4).settleEntropy

/-- A continuous test of a source fails (R266 to R270). The tests are bypassed while the factory pattern is applied (R283). In STARTING a
failure counts once the servo has settled. -/
def Block.sourceFails (b : Block) (i test : Nat) : Block :=
  let x := b.source i
  if b.rng.pattern.isSome then b else
  match x.st with
  | .healthy =>
    let recent := match x.lastFail with
      | some t => decide (b.elapsed t < 1000000000)
      | none => false
    let b := b.discardHeld i
    let b := b.modSource i (fun x => { x with
      st := .suspect, lastFail := some b.now, failures := if x.failures = 0xFFFFFFFF then x.failures else x.failures + 1 })
    let b := b.note (Src.noise i) 0x0A 0 (testDetail test x.code)
    (if recent then b.fenceSource i test else b.startSource i).settleEntropy
  | .starting => if x.quiet < 2 then b else b.startFails i
  | _ => b

/-- One servo block of 4,096 samples (R264): CODE steps by one; the count of blocks without a step settles the servo (R269), and 16
consecutive blocks with CODE held at an end of its range are servo saturation (Table 11.2). -/
def execServoBlock (i : SourceId) (ones : Nat) (s : State) : Host.Outcome State Fault Refusal :=
  let b := s.toBlock
  let x := b.source i
  done ((
    if (x.st ≠ .starting ∧ x.st ≠ .healthy) ∨ 4096 < ones then b else
    let code := if 2112 < ones then x.code - 1 else if ones < 1984 then min 1023 (x.code + 1) else x.code
    let settled := x.st == .starting && decide (2 ≤ x.quiet)
    let rail := if x.code = 0 ∨ x.code = 1023 then x.rail + 1 else 0
    let b := b.modSource i (fun x => { x with
      code := code, samples := x.samples + 4096, rail := if 16 ≤ rail then 0 else rail,
      quiet := if settled then x.quiet else if 1984 ≤ ones ∧ ones ≤ 2112 then x.quiet + 1 else 0 })
    if 16 ≤ rail then b.sourceFails i 3 else b).checkWake) s

/-- REPETITION_COUNT: a run of 68 identical samples. -/
def execRepetitionCount (i : SourceId) (s : State) : Host.Outcome State Fault Refusal := done (s.toBlock.sourceFails i 1).checkWake s

/-- STARTUP_TEST_END: 4,096 samples after the servo settled, HEALTHY or FENCED; under the factory pattern no sample can fail (R283). -/
def execStartupTestEnd (i : SourceId) (passed : Bool) (s : State) : Host.Outcome State Fault Refusal :=
  let b := s.toBlock
  let x := b.source i
  done ((
    if x.st ≠ .starting ∨ x.quiet < 2 then b
    else if !passed && b.rng.pattern.isNone then b.startFails i
    else if b.flt.tests.contains (Src.noise i) then b.endTest (.noise i) true
    else (b.modSource i (fun x => { x with st := .healthy, since := b.now, quiet := 0 })).settleEntropy).checkWake) s

/-- SETTLING_TIMEOUT: the servo has not settled within the bound of Table 11.4, which Tcase gives. -/
def execSettlingTimeout (i : SourceId) (s : State) : Host.Outcome State Fault Refusal :=
  let b := s.toBlock
  let x := b.source i
  let bound := if 0 ≤ b.pwr.tcase then 200000 else if -400 ≤ b.pwr.tcase then 1000000 else 4000000
  done ((if x.st ≠ .starting ∨ 2 ≤ x.quiet then b else (b.advanceTo x.since bound).startFails i).checkWake) s

/-! ### Seeds -/

/-- A seeder takes a ready block of its quadrant, where its state calls for one (R271, R421): one never instantiated then runs its
known-answer test; one that returns from PAUSED or STOPPED is SEEDED on the reseed itself. -/
def Block.seedFrom (b : Block) (q : Nat) : Block :=
  let sd := b.seeder q
  if !b.hasSeed q ∨ b.flt.fence.has (.seeder q) then b else
  if !sd.seeded then
    if sd.withheld then b else (b.takeBlocks q 3).modSeeder q (fun x => { x with st := .init, withheld := true, katAt := b.now, donor := none })
  else if sd.st = .seeded then b
  else ((((b.takeBlocks q 3).reseeded q).modSeeder q (fun x => { x with st := .seeded, ts := b.now, donor := none })).settleEntropy).rootIfDue

/-- A conditioned block of 384 bits is released to its quadrant; the relay seeds that waited for it are given (R273). -/
def Block.releaseBlock (b : Block) (q : Nat) : Block :=
  (({ b with rng := { b.rng with blocks := Tab.put b.rng.blocks q (Tab.get 0 b.rng.blocks q + 3) } }).seedFrom q).settleEntropy

/-- CONDITIONER_BLOCK: 384 bits from the HEALTHY sources, held until the windows of their last samples end (R267); made from the factory
pattern they are not held, as no test runs (R283). -/
def execConditionerBlock (q : QuadId) (s : State) : Host.Outcome State Fault Refusal :=
  let b := s.toBlock
  let srcs := [2 * q.val, 2 * q.val + 1].filter (fun i => (b.source i).st == .healthy)
  done ((
    if b.rng.pattern.isSome then b.releaseBlock q
    else if srcs.isEmpty then b
    else { b with rng := { b.rng with held := Tab.put b.rng.held q (Tab.get [] b.rng.held q ++ [⟨srcs, srcs⟩]) } }).checkWake) s

/-- PROPORTION_WINDOW_END: 1,024 samples in which the first sample's value occurred `count` times; 783 fail the test, else the blocks that
waited only for this window are released (R266, R267). -/
def execProportionWindowEnd (i : SourceId) (count : Nat) (s : State) : Host.Outcome State Fault Refusal :=
  let b := s.toBlock
  let q := i.val / 2
  done ((
    if 783 ≤ count then b.sourceFails i 2
    else if (b.source i).st ≠ .healthy then b
    else
      let l := (Tab.get [] b.rng.held q).map (fun (h : HeldBlock) => { h with awaits := h.awaits.filter (· != i.val) })
      let out := l.filter (fun h => h.awaits.isEmpty)
      let b := { b with rng := { b.rng with held := Tab.put b.rng.held q (l.filter (fun h => !h.awaits.isEmpty)) } }
      out.foldl (fun b _ => b.releaseBlock q) b).checkWake) s

/-- SEEDER_RESEED: 64 KiB of output, or 100 µs; while the seeder is PAUSED or STOPPED its limits are suspended (R271, R273, R275). Without 384
fresh bits there is no reseed yet. -/
def execSeederReseed (q : QuadId) (s : State) : Host.Outcome State Fault Refusal :=
  let b := s.toBlock
  let sd := b.seeder q
  done (
    if !b.delivers q then b else
    (if sd.since < 65536 then b.advanceTo sd.lastReseed 100000 else b).reseedSeeder q) s

/-- SEEDER_KAT: the end of a known-answer run of 2 µs, at instantiation or 10 s after the last; a failure fences the seeder (R271). The run after
10 s withholds the output within this one step. -/
def execSeederKat (q : QuadId) (passed : Bool) (s : State) : Host.Outcome State Fault Refusal :=
  let b := s.toBlock
  let sd := b.seeder q
  done ((
    if b.flt.fence.has (.seeder q) ∨ (!sd.seeded ∧ !sd.withheld) then b
    else
      let b := if sd.seeded then (let b := b.advanceTo sd.katAt 10000000000; b.setTime (b.now + 2000)) else b.advanceTo sd.katAt 2000
      if !passed then
        ((b.modSeeder q (fun x => { x with withheld := false })).note (Src.seeder q) 0x0B 1 (testDetail 5 0)).settleEntropy
      else if sd.seeded then b.modSeeder q (fun x => { x with katAt := b.now })
      else
        let own := b.healthy q != 0 || b.rng.pattern.isSome
        ((b.modSeeder q (fun x => { x with
          seeded := true, withheld := false, ts := b.now, since := 0, lastReseed := b.now, katAt := b.now,
          st := if own then .seeded else if x.donor.isSome then .relayed else .paused,
          donor := if own then none else x.donor })).settleEntropy).rootIfDue).checkWake) s

/-! ### Wale DRBGs (R274, R279) -/

/-- DRBG_RESEED_REQUEST: output since the last reseed has reached I / 2. -/
def execDrbgReseedRequest (w : WaleId) (s : State) : Host.Outcome State Fault Refusal :=
  let b := s.toBlock
  let x := b.wale w
  let q := w.val / 16
  done (
    if !x.drbgSeeded || x.drbgWant || x.drbgSent || !b.delivers q then b
    else (b.modWale w (fun x => { x with drbgWant := true })).modSeeder q (fun z => { z with queue := z.queue ++ [w] })) s

/-- DRBG_INTERVAL_REACHED: the output reaches I before the reseed; I doubles up to 16 MiB and the request rises to rank 3. While the seeder is
PAUSED or STOPPED the limits are suspended (R275). -/
def execDrbgIntervalReached (w : WaleId) (s : State) : Host.Outcome State Fault Refusal :=
  let b := s.toBlock
  let x := b.wale w
  done (
    if (!x.drbgWant && !x.drbgSent) || !b.delivers (w.val / 16) then b
    else b.modWale w (fun x => { x with
      drbgUrgent := true, drbgLog := if x.drbgLog < 14 then x.drbgLog + 1 else x.drbgLog,
      drbgStretch := if x.drbgLog < 14 ∧ x.drbgStretch ≠ 0xFFFFFF then x.drbgStretch + 1 else x.drbgStretch })) s

/-- SEEDER_REQUEST: of the wale DRBGs that wait, the seeder serves the first in the order of Table 11.7. -/
def execSeederRequest (q : QuadId) (s : State) : Host.Outcome State Fault Refusal := done (Block.serveSeeds q 1 s.toBlock) s

/-- DRBG_RESEED: the reseed lands; if the output has not reached I first, I becomes max(I / 2, 64 KiB). -/
def execDrbgReseed (w : WaleId) (s : State) : Host.Outcome State Fault Refusal :=
  let b := s.toBlock
  done (
    if !(b.wale w).drbgSent then b
    else b.modWale w (fun x => { x with
      drbgSent := false, drbgUrgent := false, drbgLog := if x.drbgUrgent then x.drbgLog else max 6 (x.drbgLog - 1) })) s

/-! ### Commands (Tables 11.11 to 11.13) -/

/-- Table 11.13. -/
def Block.rngRecord (b : Block) : Bytes :=
  (List.range 8).flatMap (fun i => let x := b.source i
    le 1 x.st.code ++ [0] ++ le 2 x.code ++ le 4 x.failures.toNat ++ le 8 x.samples.toNat) ++
  (List.range 4).flatMap (fun q => let x := b.seeder q
    le 1 x.st.code ++ le 1 (match x.donor with | some d => d.val | none => 0xFF) ++ zeros 2 ++ le 4 x.relays.toNat ++
    le 8 x.reseeds.toNat ++ le 8 x.bytes.toNat ++ le 8 x.ts.toNat) ++
  (List.range 64).flatMap (fun w => let x := b.wale w; le 4 (x.drbgStretch.toNat * 256 + x.drbgLog))

/-- RNG_STATUS. -/
def execRngStatus (r : Req) (s : State) : Host.Outcome State Fault Refusal :=
  done (s.toBlock.command { code := 0x0060, states := anyLife } r (fun b => (b, .ok b.rngRecord))) s

/-- Sources follow SRC_ENABLE: a cleared bit holds OFF, a set one starts a source that is OFF and not fenced (Table 11.3). -/
def Block.followEnables (b : Block) : Block :=
  ((List.range 8).foldl (fun (b : Block) (i : Nat) =>
    let st := (b.source i).st
    if !b.sourceOn i then (if st = .off then b else (b.discardHeld i).stopSource i)
    else if st = .off ∧ b.boot.coreUp ∧ b.pwr.dev ≠ .standby then (if b.flt.fence.has (.noise i) then b.restSource i else b.startSource i)
    else b) b).settleEntropy

/-- RNG_CFG_SET (Table 11.12). -/
def execRngCfgSet (r : Req) (s : State) : Host.Outcome State Fault Refusal :=
  done (s.toBlock.command { code := 0x0061, len := exactly 4 } r (fun b =>
    let v := fld r.payload 0 4
    if bits v 31 16 ≠ 0 ∨ bits v 7 1 ≠ 0 then (b, .fail St.badParam 0)
    else (({ b with rng := { b.rng with cfg := BitVec.ofNat 32 v } }.followEnables).change .policies, .ok []))) s

/-- RNG_CFG_GET. -/
def execRngCfgGet (r : Req) (s : State) : Host.Outcome State Fault Refusal :=
  done (s.toBlock.command { code := 0x0062 } r (fun b => (b, .ok (le 4 b.rng.cfg.toNat)))) s

/-- RNG_RETEST: a source whose fence has been lifted starts; any other is CONTEXT_BUSY. -/
def execRngRetest (r : Req) (s : State) : Host.Outcome State Fault Refusal :=
  done (s.toBlock.command { code := 0x0063, len := exactly 4 } r (fun b =>
    let i := fld r.payload 0 1
    if 7 < i ∨ fld r.payload 1 3 ≠ 0 then (b, .fail St.badParam 0)
    else if (b.source i).st ≠ .fenced ∨ !b.noiseAvail i then (b, .fail St.contextBusy 0)
    else ((b.startSource i).settleEntropy, .ok []))) s

/-- RNG_RAW_CAPTURE: the source leaves service, its raw samples go to the host eight per byte, and it restarts in STARTING. -/
def execRngRawCapture (r : Req) (samples : Bytes) (s : State) : Host.Outcome State Fault Refusal :=
  done (s.toBlock.command { code := 0x0064, len := exactly 8, states := [.factory, .provisioned] } r (fun b =>
    let i := fld r.payload 0 1; let n := fld r.payload 4 4
    if 7 < i ∨ fld r.payload 1 3 ≠ 0 ∨ n = 0 ∨ 16777216 < n then (b, .fail St.badParam 0)
    else if (b.source i).st = .off ∨ (b.source i).st = .fenced then (b, .fail St.contextBusy 0)
    else (((b.discardHeld i).startSource i).settleEntropy, .ok (fit ((n + 7) / 8) samples)))) s

/-- RNG_TEST_PATTERN (R283): a pattern is applied at every conditioner, or a zero payload removes it, when every source returns to STARTING
and every seeder to INIT. -/
def execRngTestPattern (r : Req) (s : State) : Host.Outcome State Fault Refusal :=
  done (s.toBlock.command { code := 0x0065, len := exactly 8, states := [.factory] } r (fun b =>
    if !allZero r.payload then
      ({ b with rng := { b.rng with pattern := some (BitVec.ofNat 64 (ofLe r.payload)), patternFrom := b.rng.draws, blocks := [], held := [] } }, .ok [])
    else if b.rng.pattern.isNone then (b, .ok [])
    else
      let b := { b with rng := { b.rng with pattern := none, blocks := [], held := [] } }
      let b := (List.range 4).foldl (fun (b : Block) (q : Nat) =>
        b.modSeeder q (fun x => { x with st := .init, seeded := false, withheld := false, donor := none, ts := b.now })) b
      (((List.range 8).foldl (fun (b : Block) (i : Nat) =>
        if (b.source i).st = .off ∨ (b.source i).st = .fenced then b else b.startSource i) b).settleEntropy, .ok []))) s

end Sys2Proof.Machine
end

