-- ==== Sys2Proof/Machine/Tamper.lean ====
section
/-! DEFINITION. The tamper domain, the battery domain and the OTP zeroisation counter (chapter 12, R285 to R306). -/
namespace Sys2Proof.Machine

/-! ### Sources in and out of alarm -/

/-- Is main power present, so that the sources of the main domain are watched? -/
def Block.watching (b : Block) : Bool := b.boot.aonUp && !b.bat.onVbat

/-- The sources watched on battery (Table 12.1). -/
def onBattery (t : Nat) : Bool := t == 0 || t == 4 || t == 6 || (decide (9 ≤ t) && decide (t ≤ 14))

/-- What a response does on battery: ZEROISE_SEAL acts as ZEROISE (R298). -/
def Block.onCell (b : Block) (r : Resp) : Resp := if (b.actual r).code = 4 then .zeroise else b.actual r

/-- A source's condition on battery, where it was not in alarm (R298): the battery log of 16 records, in the order of BAT_RTC and source (R304), and
the sticky flag; ZEROISE and ZEROISE_SEAL erase the root key and every counter but the device's own at once, with one pending OTP step where a root
key was present (R290, R303). A start finds the source still in alarm unless its condition has gone. -/
def Block.batteryAlarm (b : Block) (t : TamperId) (detail : W32) : Block :=
  if !b.bat.onVbat || !onBattery t || b.otp.fused.getLsbD t || b.tam.active.getLsbD t then b else
  let conf := b.respOf t
  let act := b.onCell conf
  let same := decide (0 < b.bat.batch) && b.bat.log.head?.any (fun e => e.rtc == b.bat.rtc)
  let batch := if same then b.bat.batch else 0
  let before := if same then b.bat.before else b.bat.level
  let e : Event := ⟨0, b.bat.rtc, Src.tamper t, conf, act, detail, 0, 1⟩
  let had := b.bat.rootKey.isSome
  let b := { b with
    bat := { b.bat with
      seq := b.bat.seq + 1, sticky := setBit b.bat.sticky t true, battEvent := true,
      level := some (Resp.after b.bat.level act), batch := batch + 1, before := before,
      log := (enterEvent b.onCell before batch b.bat.seq e b.bat.log).take 16, logOver := b.bat.logOver || decide (16 ≤ b.bat.log.length) },
    tam := { b.tam with active := setBit b.tam.active t true, details := Tab.put b.tam.details t detail } }
  if act.code < 3 then b
  else { b with bat := { b.bat with
    rootKey := none, zeroised := true, zeroPin := b.bat.zeroPin || had, counters := b.bat.counters.filter (fun e => decide (e.1 < 64)),
    owners := [], evicted := [], otpPending := b.bat.otpPending + (if had then 1 else 0) } }.dropCarried

/-- A source's condition is present: its alarm is raised where it was not already in alarm (log 152). -/
def Block.alarmOn (b : Block) (t : TamperId) (detail : W32) : Block :=
  if b.watching then (if b.tam.active.getLsbD t then b else b.tamperAlarm t detail) else b.batteryAlarm t detail

/-- A source's condition has gone. -/
def Block.alarmOff (b : Block) (t : TamperId) : Block := { b with tam := { b.tam with active := setBit b.tam.active t false, due := setBit b.tam.due t false } }

/-! ### The Lid (R291, R292) -/

/-- Does a line show another bit than the one driven on it? -/
def LidLine.wrong (driven : Bool) : LidLine → Bool
  | .follows => false
  | .held v => v != driven
  | .bridged => true

/-- The Lid's LFSR after n steps. -/
def lidSteps : Nat → W64 → W64
  | 0, x => x
  | n + 1, x => lidSteps n (Config.lidNext x)

/-- Is the battery domain's watch running, on main power or on the cell? -/
def Block.watched (b : Block) : Bool := b.watching || b.bat.onVbat

/-- LID_A_SWEEP: each pair takes a fresh bit of the LFSR, its partner the complement (R291); the pairs listed do not both follow. A mismatch of any
pair raises T0 with the pair's number, the lowest of several, in Detail (log 160). -/
def execLidASweep (pairs : List LidPair) (s : State) : Host.Outcome State Fault Refusal :=
  let b := s.toBlock
  done (
    if !b.watched then b else
    let drive (k : Fin 96) : Bool := (lidSteps (k.val + 1) b.bat.lfsr).getLsbD 0
    let bad (k : Fin 96) : Bool := pairs.any (fun p => p.pair == k && (LidLine.wrong (drive k) p.line || LidLine.wrong (!drive k) p.partner))
    let b := { b with bat := { b.bat with lfsr := lidSteps 96 b.bat.lfsr } }
    match (List.finRange 96).find? bad with
    | some k => b.alarmOn 0 (BitVec.ofNat 32 k.val)
    | none => b.alarmOff 0) s

/-- Does a reading lie more than 8 % from its reference? -/
def strays (x ref : Nat) : Bool := decide (8 * ref < 100 * (x - ref)) || decide (8 * ref < 100 * (ref - x))

/-- A pair's reference, corrected where Tj is not what it was at the capture (R292; the correction is log 160). -/
def Block.lidRef (b : Block) (i : Nat) : Nat × Nat :=
  let r := Tab.get (0, 0) b.tam.lidRefs i
  let t := Tjs.hottest b.pwr.tj
  if t = b.tam.lidTj then r else (Config.lidCorrected r.1 b.tam.lidTj t, Config.lidCorrected r.2 b.tam.lidTj t)

/-- Does a pair's latest reading stray from its reference? A pair without a reference does not. -/
def Block.pairStrays (b : Block) (i : Nat) : Bool :=
  Tab.has b.tam.lidRefs i && Tab.has b.tam.lidNow i &&
  (let x := Tab.get (0, 0) b.tam.lidNow i; strays x.1 (b.lidRef i).1 || strays x.2 (b.lidRef i).2)

/-- A signed deviation as a natural number. -/
def deviation (x ref : Nat) : Nat := if ref ≤ x then 2 * (x - ref) else 2 * (ref - x) + 1

/-- T1's Detail holds the pair and the signed deviations of its delay and impedance; how they are packed is not stated (log 4). -/
def Block.lidDetail (b : Block) (i : Nat) : W32 :=
  let x := Tab.get (0, 0) b.tam.lidNow i
  BitVec.ofNat 32 (Config.freeNat 22 (i + 96 * (deviation x.1 (b.lidRef i).1 + 2 ^ 32 * deviation x.2 (b.lidRef i).2)))

/-- LID_B_MEASURE: a reading against its reference, corrected for Tj (R292). -/
def execLidBMeasure (pair : Fin 96) (delay impedance : Nat) (s : State) : Host.Outcome State Fault Refusal :=
  let b := s.toBlock
  done (
    if !b.watching then b else
    let b := { b with tam := { b.tam with lidNow := Tab.put b.tam.lidNow pair.val (delay, impedance) } }
    if b.pairStrays pair then b.alarmOn 1 (b.lidDetail pair)
    else if (List.range 96).any b.pairStrays then b else b.alarmOff 1) s

/-! ### Loops and switches (R294, R296) -/

/-- The filter of a source. -/
def Block.filterOf (b : Block) (t : Nat) : Nat := (b.tam.policy.filter[t]?).getD 0

/-- A sample of a loop or switch: F + 1 consecutive abnormal results raise its source; a normal one ends its alarm. -/
def Block.sampled (b : Block) (t : TamperId) (run : Nat) (code other : Nat) : Block :=
  if code = 0 then b.alarmOff t
  else if b.filterOf t < run then b.alarmOn t (BitVec.ofNat 32 (code + 16 * other)) else b

/-- A loop's result code and, for code 4, the other loop (Table 12.4). Where several rows hold, the order below decides, and where none does the
code is open but not normal (log 161). -/
def loopResult (fwd rev : LoopDrive) : Nat × Nat :=
  match fwd.foreign <|> rev.foreign with
  | some o => (4, o.val)
  | none =>
    if fwd.low || rev.low then (2, 0)
    else if fwd.high || rev.high then (3, 0)
    else if fwd.ohms < 1000 ∧ rev.ohms < 1000 then (6, 0)
    else if fwd.nA = 0 ∧ rev.nA = 0 then (1, 0)
    else if fwd.inWindow ∧ rev.nA < 2000 then (0, 0)
    else if fwd.nA < 2000 ∧ rev.inWindow then (5, 0)
    else (([1, 2, 3, 5, 6][Config.freeNat 82 (fwd.nA + 2 ^ 32 * rev.nA) % 5]?).getD 1, 0)

/-- LOOP_SAMPLE: the loop is driven in both directions, their order and the sample's moment taken from the Lid's LFSR (R294; how is log 161), and
classified by Table 12.4. -/
def execLoopSample (i : Fin 4) (fwd rev : LoopDrive) (s : State) : Host.Outcome State Fault Refusal :=
  let b := s.toBlock
  done (
    if !b.watched then b else
    let (code, other) := loopResult fwd rev
    let run := if code = 0 then 0 else b.tam.loopRun[i] + 1
    let b := { b with
      bat := { b.bat with lfsr := lidSteps 9 b.bat.lfsr },
      tam := { b.tam with
        loops := b.tam.loops.set i (BitVec.ofNat 4 code), loopRun := b.tam.loopRun.set i run,
        loopDrive := b.tam.loopDrive.set i ((lidSteps 1 b.bat.lfsr).getLsbD 0, (lidSteps 9 b.bat.lfsr).setWidth 8) } }
    b.sampled ⟨9 + i.val, by omega⟩ run code other) s

/-- Is a resistance within 5 % of a value? -/
def within5 (r n : Nat) : Bool := decide (95 * r ≤ 100 * n) && decide (100 * n ≤ 105 * r)

/-- A switch's result code (Table 12.5): closed it shows one resistor, open both (R296). A resistance of no row gives an open code (log 161). -/
def switchResult (closed : Bool) : SwitchSeen → Nat
  | .rail => 3
  | .ohms n =>
    if n < 1000 then 3
    else if 50000 < n then 2
    else if within5 4700 n then (if closed then 0 else 1)
    else if within5 9400 n then (if closed then 1 else 0)
    else Config.freeNat 83 n % 4

/-- SWITCH_SAMPLE: the rest state is the one the policy's polarity names. -/
def execSwitchSample (i : Fin 2) (seen : SwitchSeen) (s : State) : Host.Outcome State Fault Refusal :=
  let b := s.toBlock
  done (
    if !b.watched then b else
    let code := switchResult (b.tam.policy.closed.getLsbD i) seen
    let run := if code = 0 then 0 else b.tam.switchRun[i] + 1
    let b := { b with tam := { b.tam with switches := b.tam.switches.set i (BitVec.ofNat 4 code), switchRun := b.tam.switchRun.set i run } }
    b.sampled ⟨13 + i.val, by omega⟩ run code 0) s

/-! ### Sensors and shadows (R293, R301) -/

/-- Is a sensor disarmed: T2, T5, T7 and T8 while PWR_OK is low (R398), and while VDD_AON has fallen (R293)? -/
def Block.disarmed (b : Block) (t : Nat) : Bool := (b.tam.disarmed || b.tam.falling) && (t == 2 || t == 5 || t == 7 || t == 8)

/-- Does a reading lie outside the limits of Table 12.3? VDD_AON below 0.72 V for 20 µs is a loss of main power and no alarm (R293). -/
def outside (t : Nat) : Reading → Bool
  | .supply v n =>
    match t with
    | 2 => (decide (v < 600) || decide (920 < v)) && decide (2 ≤ n)
    | 3 => (decide (900 < v) && decide (2 ≤ n)) || (decide (v < 720) && decide (2 ≤ n) && decide (n < 20000))
    | 4 => decide (v < 2100) || decide (3600 < v)
    | _ => false
  | .clocks ref period rc => t == 5 && (decide (ref < 95000) || decide (105000 < ref) || decide (period < 70) || decide (rc < 14000) || decide (18000 < rc))
  | .temperature x => t == 6 && (decide (1500 < x) || decide (x < -650))
  | .light n => t == 7 && decide (40 < n)
  | .canaries l => t == 8 && !l.isEmpty

/-- Is a reading the start of a fall of VDD_AON below 0.72 V? -/
def Reading.falls : Reading → Bool
  | .supply v n => decide (v < 720) && n == 0
  | _ => false

/-- The Detail of a sensor's alarm, which no rule gives (log 162). -/
def sensorDetail (t : Nat) : W32 := BitVec.ofNat 32 (Config.freeNat 84 t)

/-- SENSOR_ALARM: one of T2 to T8 reads outside Table 12.3. A fall of VDD_AON disarms T2, T5, T7 and T8 from its start; how long it lasted tells
an alarm of T3 from a loss of main power, which is BATTERY_SWITCH (R293). -/
def execSensorAlarm (t : TamperId) (seen : Reading) (s : State) : Host.Outcome State Fault Refusal :=
  let b := s.toBlock
  done (
    if t.val < 2 ∨ 8 < t.val then b else
    let b := if t.val = 3 ∧ b.watching then { b with tam := { b.tam with falling := Reading.falls seen } } else b
    if b.disarmed t ∨ outside t seen = false then b else b.alarmOn t (sensorDetail t)) s

/-- SENSOR_ALARM_END: the condition is back inside its limits. -/
def execSensorAlarmEnd (t : TamperId) (s : State) : Host.Outcome State Fault Refusal :=
  done (if t.val < 2 ∨ 8 < t.val then s.toBlock else s.toBlock.alarmOff t) s

/-- The inverted copy of a shadowed register with bits of it upset. -/
def Block.upsetShadow (b : Block) (r : Shadowed) (x : W64) : Block :=
  match r with
  | .lifecycle => { b with otp := { b.otp with lifeShadow := b.otp.lifeShadow ^^^ x.setWidth 8 } }
  | .tamperPolicy => { b with tam := { b.tam with shadow := { b.tam.shadow with closed := b.tam.shadow.closed ^^^ x.setWidth 2 } } }
  | .kstPolicy => { b with kst := { b.kst with shadow := b.kst.shadow ^^^ x.setWidth 32 } }
  | .fenceMap => { b with flt := { b.flt with shadow := { b.flt.shadow with wale := b.flt.shadow.wale ^^^ x } } }
  | .walCsb w => b.modWale w (fun y => { y with csbShadow := y.csbShadow ^^^ x.setWidth 32 })

/-- Does a shadowed register agree with its inverted copy? -/
def Block.shadowOk (b : Block) : Shadowed → Bool
  | .lifecycle => b.otp.lifeShadow == ~~~(BitVec.ofNat 8 b.otp.lifecycle.code)
  | .tamperPolicy => b.tam.shadow == b.tam.policy
  | .kstPolicy => b.kst.shadow == ~~~b.kst.policy
  | .fenceMap => b.flt.shadow == b.flt.fence.inv
  | .walCsb w => (b.wale w).csbShadow == ~~~(b.wale w).csb

/-- Every shadowed register. -/
def allShadowed : List Shadowed := [.lifecycle, .tamperPolicy, .kstPolicy, .fenceMap] ++ (List.finRange 64).map Shadowed.walCsb

/-- The Detail of T15 (R301, Table 12.11). -/
def shadowDetail : Shadowed → W32
  | .lifecycle => 1 | .tamperPolicy => 2 | .kstPolicy => 3 | .fenceMap => 4 | .walCsb w => BitVec.ofNat 32 (5 + 256 * w.val)

/-- SHADOW_COMPARE: after an upset of the copy (none where it is zero) the pair is compared; a mismatch raises T15. -/
def execShadowCompare (r : Shadowed) (upset : W64) (s : State) : Host.Outcome State Fault Refusal :=
  let b := s.toBlock
  done (
    if !b.watching then b else
    let b := b.upsetShadow r upset
    if !b.shadowOk r then b.alarmOn 15 (shadowDetail r)
    else if allShadowed.all b.shadowOk then b.alarmOff 15 else b) s

/-! ### After a response (R288, R289, R306) -/

/-- HALT_RECORD_DEADLINE: 100 µs after the response every ended job's record is written, in skein order, or discarded and counted where its
completion ring takes none; one that has concluded since and waits for its journal commit waits on (R244). -/
def execHaltRecordDeadline (s : State) : Host.Outcome State Fault Refusal :=
  let b := s.toBlock
  done (match b.tam.haltAt with
    | none => b
    | some t => (b.jobsWhere (fun j => j.ended && !b.kst.waits.contains j.id)).foldl Block.finish (b.advanceTo t 100000)) s

/-- ZEROISE_OUTPUT_TIMEOUT: an output transfer not ended 1.0 ms after the line is cut off and its slots and pages are swept; its job ends with
ABORTED, Detail 5. -/
def execZeroiseOutputTimeout (c : ChanId) (s : State) : Host.Outcome State Fault Refusal :=
  let b := s.toBlock
  done (match b.tam.lineAt, (b.chan c).xfer with
    | some t, some x =>
      if !x.write then b else
      let b := b.advanceTo t 1000000
      let b := match b.job x.job with
        | some j => ((Block.wipeAll j.wales b).modQuad j.quad (fun z => z.dropJob j)).modJob j.id (fun j => { j with
            result := { status := St.aborted, detail := 5 }, ended := true, wales := [], pages := [], phase := .waiting, needDdr := false, needOut := false })
        | none => b
      b.closeXfer c { x with pieces := [], asked := [] }
    | _, _ => b) s

/-- TAM_ZERO_PULSE_END: 10 ms after the erasure the TAM_ZERO_N pin is released. -/
def execTamZeroPulseEnd (s : State) : Host.Outcome State Fault Refusal :=
  let b := s.toBlock
  done (
    if !b.bat.zeroPin then b else
    let b := match b.tam.lineAt with
      | some t => b.advanceTo t 10000000
      | none => b
    { b with bat := { b.bat with zeroPin := false } }) s

/-! ### OTP steps (R303) -/

/-- The counter that saturates moves the lifecycle to SPENT: the store is CLOSED (Table 10.15). -/
def Block.spend (b : Block) : Block :=
  if b.otp.zeroCount < 255 ∨ b.otp.lifecycle = .spent then b
  else ({ b with kst := { b.kst with st := .closed, keys := [], lag := [] } }).setLife .spent

/-- OTP_STEP_WRITE: a step falling due is written; three failed verifications seal the device with an F4 note. -/
def execOtpStepWrite (verified : Bool) (s : State) : Host.Outcome State Fault Refusal :=
  let b := s.toBlock
  done (
    if b.otp.stepDue = 0 ∨ !b.boot.aonUp then b
    else if verified then
      ({ b with otp := { b.otp with zeroCount := min 255 (b.otp.zeroCount + 1), stepDue := b.otp.stepDue - 1, tries := 0 } }).spend
    else if b.otp.tries < 2 then { b with otp := { b.otp with tries := b.otp.tries + 1 } }
    else ({ b with otp := { b.otp with tries := 0 } }).note (Src.device 13 0) 0x17 4 (openDetail 0x17)) s

/-! ### Battery events (R297, R298, R400) -/

/-- BATTERY_ALARM. -/
def execBatteryAlarm (t : TamperId) (detail : W32) (s : State) : Host.Outcome State Fault Refusal := done (s.toBlock.batteryAlarm t detail) s

/-- BATTERY_RETURN: VDD_AON has been in range for 1 ms; no state is lost. -/
def execBatteryReturn (s : State) : Host.Outcome State Fault Refusal :=
  let b := s.toBlock
  done (if b.boot.aonUp then { b with bat := { b.bat with onVbat := false } } else b) s

/-- XTAL_FAIL: the internal oscillator takes over; the note follows at the next start with main power. -/
def execXtalFail (s : State) : Host.Outcome State Fault Refusal :=
  let b := s.toBlock
  done { b with bat := { b.bat with rtcInternal := true, xtalNote := some (b.bat.rtc.setWidth 32) } } s

/-! ### Commands (Table 12.8) -/

/-- TAM_POLICY_GET. -/
def execTamPolicyGet (r : Req) (s : State) : Host.Outcome State Fault Refusal :=
  done (s.toBlock.command { code := 0x0070 } r (fun b => (b, .ok (policyBytes b.tam.policy)))) s

/-- Table 12.7 read from 64 bytes; a reserved code reads as LOG. -/
def parsePolicy (p : Bytes) : Policy :=
  { resp := (List.range 16).map (fun i => (Resp.ofCode (fld p (4 + i) 1 % 8)).getD .log),
    filter := (List.range 16).map (fun i => fld p (4 + i) 1 / 16), closed := BitVec.ofNat 2 (fld p 0x14 1) }

/-- A reserved field or value, or a filter where none is allowed (R299). -/
def policyBad (p : Bytes) : Bool :=
  fld p 0 1 != 1 || fld p 1 3 != 0 || decide (3 < fld p 0x14 1) || !allZero (p.drop 0x15) ||
  (List.range 16).any (fun i => let v := fld p (4 + i) 1
    decide (4 < v % 8) || bit v 3 || (decide (16 ≤ v) && !(i == 4 || i == 6 || (decide (9 ≤ i) && decide (i ≤ 14)))))

/-- Does a policy lower a response, raise a filter or change a polarity (R299)? -/
def loosens (old new : Policy) : Bool :=
  (old.resp.zip new.resp).any (fun x => decide (x.2.code < x.1.code)) ||
  (old.filter.zip new.filter).any (fun x => decide (x.1 < x.2)) || old.closed != new.closed

/-- TAM_POLICY_SET: the policy and its shadow; register 5 follows. -/
def execTamPolicySet (r : Req) (s : State) : Host.Outcome State Fault Refusal :=
  done (s.toBlock.command { code := 0x0071, len := exactly 64 } r (fun b =>
    let p := r.payload
    let new := parsePolicy p
    if policyBad p then (b, .fail St.badParam 0xB0)
    else if ((new.resp[15]?).getD Resp.log).code < 2 then (b, .fail St.badParam 0xB1)
    else if b.otp.lifecycle = .deployed ∧ loosens b.tam.policy new then (b, .fail St.keyState 0)
    else (({ b with tam := { b.tam with policy := new, shadow := new } }.change .policies).measurePolicies, .ok []))) s

/-- TAM_FUSE_DISABLE: a fused source never alarms again; its bits read 0 (R300). Register 5 follows (Table 10.10). -/
def execTamFuseDisable (r : Req) (s : State) : Host.Outcome State Fault Refusal :=
  done (s.toBlock.command { code := 0x0072, len := exactly 2, states := [.factory, .provisioned] } r (fun b =>
    let m : BitVec 16 := BitVec.ofNat 16 (fld r.payload 0 2)
    ({ b with
      otp := { b.otp with fused := b.otp.fused ||| m },
      tam := { b.tam with active := b.tam.active &&& ~~~m, due := b.tam.due &&& ~~~m },
      bat := { b.bat with sticky := b.bat.sticky &&& ~~~m } }.measurePolicies, .ok []))) s

/-- TAM_STICKY_CLEAR (R302): the flags of sources in alarm stay. The source and response fields of its record are not stated (log 4). -/
def execTamStickyClear (r : Req) (s : State) : Host.Outcome State Fault Refusal :=
  done (s.toBlock.command { code := 0x0073, len := exactly 2, states := ownedLife } r (fun b =>
    let m : BitVec 16 := BitVec.ofNat 16 (fld r.payload 0 2) &&& ~~~b.tam.active
    let b := { b with bat := { b.bat with sticky := b.bat.sticky &&& ~~~m, battEvent := false } }
    (b.logEvent (BitVec.ofNat 16 (Config.freeNat 23 0)) .log .log (m.setWidth 32) 4, .ok []))) s

/-- TAM_LOG_READ: the main log and the battery log, oldest first, then the overflow bit (log 24). -/
def execTamLogRead (r : Req) (s : State) : Host.Outcome State Fault Refusal :=
  done (s.toBlock.command { code := 0x0074, states := anyLife, early := true } r (fun b =>
    (b, .ok (b.tam.log.reverse.flatMap eventBytes ++ b.bat.log.reverse.flatMap eventBytes ++ le 4 (b1 b.bat.logOver))))) s

/-- TAM_LID_READ: the latest reading and the reference of every pair, each delay then impedance (log 24). -/
def execTamLidRead (r : Req) (s : State) : Host.Outcome State Fault Refusal :=
  done (s.toBlock.command { code := 0x0075, states := anyLife } r (fun b =>
    let side (t : Tab (Nat × Nat)) : Bytes := (List.range 96).flatMap (fun i => let x := Tab.get (0, 0) t i; le 4 x.1 ++ le 4 x.2)
    (b, .ok (side b.tam.lidNow ++ side b.tam.lidRefs)))) s

/-- TAM_ACK: once no active source is at ALERT or above and no higher response is in force, TAM_ALARM_N is released and an ALERT is left
(R306, Table 12.2). -/
def execTamAck (r : Req) (s : State) : Host.Outcome State Fault Refusal :=
  done (s.toBlock.command { code := 0x0076, states := anyLife } r (fun b =>
    let held := b.tam.halted || (List.range 16).any (fun t => b.tam.active.getLsbD t && decide (1 ≤ (b.respOf t).code))
    (if held then b else { b with tam := { b.tam with alarmN := false, level := .log, batch := 0 } }, .ok []))) s

/-- TAM_LID_CAL: captures the references again, only while T1 is not in alarm; the status it fails with otherwise is not stated. -/
def execTamLidCal (r : Req) (s : State) : Host.Outcome State Fault Refusal :=
  done (s.toBlock.command { code := 0x0077, states := [.provisioned] } r (fun b =>
    if b.tam.active.getLsbD 1 then (b, unstatedFailure 1)
    else ({ b with tam := { b.tam with lidRefs := b.tam.lidNow, lidTj := Tjs.hottest b.pwr.tj } }, .ok []))) s

end Sys2Proof.Machine
end

