-- ==== Sys2Proof/Machine/Faults.lean ====
section
/-! DEFINITION. The fault collector's events and commands (chapter 13, R307 to R322, R425), and the ends of wipes and transfers, at which
a fence that waited for a job takes effect (R316). -/
namespace Sys2Proof.Machine

/-! ### Notes -/

/-- The status a note's job completes with, by its kind (R42, R53, R79, R81, R93, R97, R158, R201); the Detail is the note's but where
the rule fixes another. -/
def noteStatus (kind : Byte) (detail : W32) : Option (W16 × W32) :=
  if kind = 0x02 then some (St.unitFault, 0x402)
  else if kind = 0x03 ∨ kind = 0x04 then some (St.microcodeFault, detail)
  else if kind = 0x05 then some (St.redundancyMismatch, detail)
  else if kind = 0x07 then some (St.unitFault, 0x401)
  else if kind = 0x08 then some (St.unitFault, detail)
  else if kind = 0x09 then some (causeStatus (BitVec.ofNat 8 (bits detail.toNat 23 16)), detail)
  else if kind = 0x0C then some (St.unitFault, 0x301)
  else if kind = 0x0D then some (St.unitFault, 0x201)
  else none

/-- The channel whose own buffers a note reports as failed (Table 8.6, cause 0x30). -/
def ownBuffers (n : NoteIn) : Option Nat :=
  match FUnit.ofSource n.source with
  | some (.chan c) => if n.kind = 0x09 ∧ bits n.detail.toNat 23 16 = 0x30 then some c else none
  | _ => none

/-- FAULT_NOTE: a unit's note reaches the collector at most 500 ns after its time stamp (R312); its class reacts at once, and the job it names fails as
its kind's rule says (R309 to R311). A parity error in the buffers of a channel that moves data ends its transfer as any error does: it halts, latches,
drains and writes its record, from which the note is formed (R201, R203); but output of which bytes have gone to the host is completed from the slots
(R15, R101, log 153). -/
def execFaultNote (n : NoteIn) (s : State) : Host.Outcome State Fault Refusal :=
  let b := s.toBlock
  done (
    if !b.boot.aonUp then b else
    match (ownBuffers n).filter (fun c => (b.chan c).xfer.any (fun x => !((b.job x.job).any (·.sent) && x.write && x.target == 0))) with
    | some c => b.failXfer c 0x30 false
    | none =>
    let r : Raise := { source := n.source, kind := n.kind, cls := n.cls, detail := n.detail, addr := n.addr, job := n.job, ago := min 500 n.ago }
    let ts := (b.noteOf r).ts
    let b := b.raise r
    (match n.job, noteStatus n.kind n.detail with
    | some id, some (st, d) => b.failNoted id (ts, n.source) st d
    | _, _ => b).checkWake) s

/-- The note that the log takes next: earliest time stamp modulo 2^64, then lowest source (R20, R312, R322). -/
def firstNote : List Note → Option Note
  | [] => none
  | n :: r =>
    match firstNote r with
    | some m => if Note.before (m.ts, m.source) (n.ts, n.source) then some m else some n
    | none => some n

/-- Take one occurrence out of a list. -/
def takeOut {α : Type} [DecidableEq α] (x : α) : List α → List α
  | [] => []
  | y :: r => if y = x then r else y :: takeOut x r

/-- The log with room for one more of 2,048: the oldest F0 note leaves, else the oldest of all (R320). The list is newest first. -/
def makeRoom (l : List (W32 × Note)) : List (W32 × Note) :=
  match l.reverse.find? (fun p => p.2.cls == 0) with
  | some p => (takeOut p l.reverse).reverse
  | none => l.dropLast

/-- The sequence number of the next note. -/
def nextSeq (q : W32) : W32 := if q = 0xFFFFFFFF then 1 else q + 1

/-- Place a note in the log (R312, R320, Tables 13.1 and 16.1), START at every start: its sequence, the fence record that names it, the flash region's copy of
class F1 and above, and the FAULT_NOTE event. -/
def Block.placeNote (b : Block) (n : Note) : Block :=
  let f := b.flt
  let recent := f.kept.find? (fun k => k.1 == n.source && k.2.1 == n.kind)
  let held := n.cls == 0 && n.kind != 0x18 && (match recent with
    | some k => decide ((n.ts - k.2.2).toNat < 1000000)
    | none => false)
  if held then b else
  let seq := nextSeq f.seq
  let full := decide (2048 ≤ f.log.length)
  let b := { b with flt := { f with
    seq := seq, log := (seq, n) :: (if full then makeRoom f.log else f.log),
    lost := if full ∧ f.lost ≠ 0xFFFFFFFF then f.lost + 1 else f.lost, wrap := f.wrap || full,
    kept := if n.cls = 0 then (n.source, n.kind, n.ts) :: f.kept.filter (fun k => !(k.1 == n.source && k.2.1 == n.kind)) else f.kept,
    recs := f.recs.map (fun (p : Nat × FenceRec) =>
      (p.1, if p.2.source = n.source ∧ p.2.kind = n.kind ∧ p.2.ts = n.ts ∧ p.2.boot = f.boot then { p.2 with seq := seq } else p.2)) } }
  if n.cls = 0 then b
  else { b with flash := { b.flash with faults := ((seq, n) :: b.flash.faults).take 4096 } }.event 2

/-- MERGE_WINDOW: 1 µs after its time stamp the first of the held notes is placed; the record of a job it ended follows (R311). -/
def execMergeWindow (s : State) : Host.Outcome State Fault Refusal :=
  let b := s.toBlock
  done (match firstNote b.flt.merging with
    | none => b
    | some n =>
      let b := b.advanceTo n.ts 1000
      ({ b with flt := { b.flt with merging := takeOut n b.flt.merging } }.placeNote n).releaseNoted) s

/-- HEARTBEAT: 10 µs without one from a quadrant's sub-collector; its note fences the quadrant (R313, R422). -/
def execHeartbeat (q : QuadId) (s : State) : Host.Outcome State Fault Refusal :=
  let b := s.toBlock
  done (if !b.boot.coreUp then b else b.note (Src.quadUnit q 4) 0x14 1 (openDetail 0x14)) s

/-- FENCE_FLASH_COPY: the oldest change of the fence map reaches the flash fault region (R315). -/
def execFenceFlashCopy (s : State) : Host.Outcome State Fault Refusal :=
  let b := s.toBlock
  done (
    if !b.boot.rimUp then b else
    match b.flt.copyDue with
    | [] => b
    | u :: r =>
      let others := b.flash.fences.filter (fun x => x.unit != u)
      let now := (b.flt.recs.filter (fun p => p.2.unit == u)).map (·.2)
      { b with flt := { b.flt with copyDue := r }, flash := { b.flash with fences := others ++ now } }) s

/-- SELF_TEST_END: a unit's self-test ends; the unit may be named by any source its bit stands for (R315, R422). A noise source's test is its start-up
test, which ends by STARTUP_TEST_END (R269, R270). -/
def execSelfTestEnd (u : Source) (passed : Bool) (s : State) : Host.Outcome State Fault Refusal :=
  let b := s.toBlock
  done (match FUnit.ofSource u with
    | some (.noise _) => b
    | some f => (b.endTest f passed).checkWake
    | none => b) s

/-! ### Fences that wait (R316) -/

/-- WIPE_END; a control-store command or a fence that waited for the wale's job goes on. -/
def execWipeEnd (w : WaleId) (readsZero : Bool) (s : State) : Host.Outcome State Fault Refusal :=
  done (s.toBlock.wipeEnd w readsZero).csContinue.takeFences s

/-- DMA_RECORD_CONSUME; a fence that waited for the transfer takes effect. -/
def execDmaRecordConsume (q : QuadId) (s : State) : Host.Outcome State Fault Refusal :=
  done (s.toBlock.consumeRecord q).takeFences s

/-! ### Commands (Table 13.7) -/

/-- The place of a sequence number in the log's order: a number above the newest was given before the counter wrapped to 1 (R320, log 158). -/
def Faults.place (f : Faults) (n : Nat) : Nat := if n ≤ f.seq.toNat then n + 2 ^ 32 else n

/-- FLT_LOG_READ: notes from a sequence on, oldest first, of the log or of the flash fault region, whose numbers are compared as they are (log 158). -/
def execFltLogRead (r : Req) (s : State) : Host.Outcome State Fault Refusal :=
  done (s.toBlock.command { code := 0x0080, len := exactly 8, states := anyLife, early := true, recovery := true } r (fun b =>
    let p := r.payload
    let n := fld p 4 4
    if 1 < fld p 0 1 ∨ fld p 1 3 ≠ 0 then (b, .fail St.badParam 0)
    else
      let l := if fld p 0 1 = 0 then b.flt.log.filter (fun x => n == 0 || decide (b.flt.place n ≤ b.flt.place x.1.toNat))
        else b.flash.faults.filter (fun x => decide (n ≤ x.1.toNat))
      (b, .ok (l.reverse.flatMap (fun x => noteBytes x.2))))) s

/-- FLT_LOG_CLEAR: notes up to a sequence leave, but none of class F3 or F4 logged since the last start (R321). A number that no note has had yet clears
all (log 158). -/
def execFltLogClear (r : Req) (s : State) : Host.Outcome State Fault Refusal :=
  done (s.toBlock.command { code := 0x0081, len := exactly 4 } r (fun b =>
    let f := b.flt
    let n := fld r.payload 0 4
    let all := decide (f.seq.toNat < n) && !f.log.any (fun x => decide (f.seq < x.1))
    let stays (x : W32 × Note) : Bool :=
      (!all && decide (f.place n < f.place x.1.toNat)) ||
      (decide (3 ≤ x.2.cls.val) && decide (f.place f.startSeq.toNat ≤ f.place x.1.toNat))
    ({ b with flt := { f with log := f.log.filter stays } }, .ok []))) s

/-- A fence record as it is read: its sequence is 0 where its note is not in the log of this start (Table 13.13). -/
def Faults.recNow (f : Faults) (r : FenceRec) : FenceRec := if f.log.any (fun x => x.1 == r.seq) then r else { r with seq := 0 }

/-- FLT_FENCE_READ (Tables 13.12 and 13.13). -/
def execFltFenceRead (r : Req) (s : State) : Host.Outcome State Fault Refusal :=
  done (s.toBlock.command { code := 0x0082, states := anyLife } r (fun b =>
    let m := b.flt.fence
    (b, .ok (le 8 m.wale.toNat ++ le 4 m.unit.toNat ++ le 4 m.dma.toNat ++ le 4 m.grp.toNat ++ le 4 m.dev.toNat ++
      le 4 b.flt.recs.length ++ zeros 4 ++ b.flt.recs.flatMap (fun p => fenceRecBytes (b.flt.recNow p.2)))))) s

/-- The unit a FLT_FENCE or FLT_UNFENCE payload names. -/
def fenceTarget (p : Bytes) : Except Reply (W16 × FUnit) :=
  let src : W16 := BitVec.ofNat 16 (fld p 0 2)
  if fld p 2 2 ≠ 0 then .error (.fail St.badParam 0)
  else match FUnit.ofSource src with
    | some u => .ok (src, u)
    | none => .error (.fail St.badParam 1)

/-- Is a fence one that FLT_UNFENCE does not lift (R315): CS_PARITY short of the escalation of R314, AGE_MARGIN, or a DDR5 channel's
under R199? -/
def Block.fenceStays (b : Block) (u : FUnit) : Bool :=
  match (b.flt.recs.find? (fun p => p.1 == u.source.toNat)).map (·.2) with
  | none => false
  | some r =>
    (r.kind == 0x03 && !r.held) || r.kind == 0x0E ||
    (r.kind == 0x09 && (match u with | .ddr _ => true | _ => false))

/-- FLT_UNFENCE (R315, R425): the self-test starts, and the command stays in progress until it ends. The test of a noise source is RNG_RETEST, which
runs on no source whose enable bit is 0 (Table 11.3, log 159). -/
def execFltUnfence (r : Req) (s : State) : Host.Outcome State Fault Refusal :=
  done (s.toBlock.commandWait { code := 0x0083, len := exactly 4 } r (fun _ => none) (fun b =>
    match fenceTarget r.payload with
    | .error e => .inr (b, e)
    | .ok (_, u) =>
      if b.flt.halted || b.tam.halted then .inr (b, .fail St.keyState 0)
      else if !b.flt.fence.has u then .inr (b, { detail := 2 })
      else if b.fenceStays u || (match u with | .noise i => !b.sourceOn i | _ => false) then .inr (b, .fail St.contextBusy 0)
      else
        let b := { b with flt := { b.flt with tests := b.flt.tests ++ [u.source] } }
        .inl (match u with
          | .noise i => (b.startSource i).settleEntropy
          | _ => b))) s

/-- FLT_FENCE (R316): at once on a unit that holds no job, else when its job has ended. -/
def execFltFence (r : Req) (s : State) : Host.Outcome State Fault Refusal :=
  done (s.toBlock.commandWait { code := 0x0084, len := exactly 4 } r (fun _ => none) (fun b =>
    match fenceTarget r.payload with
    | .error e => .inr (b, e)
    | .ok (src, u) =>
      if b.unitHolds u then .inl { b with flt := { b.flt with fencesDue := b.flt.fencesDue ++ [src] } }
      else .inr ((b.note src 0x16 1 (openDetail 0x16)), .ok []))) s

end Sys2Proof.Machine
end

