-- ==== Sys2Proof/Machine/Fabric.lean ====
section
/-! DEFINITION. The Withy fabric (chapter 14, R323 to R348): links, plan, time lock, members and masters, replication, zeroise notices and
the spreading of jobs. What a link carries outward is put on `link` as frames whose bodies the spec does not lay out. -/
namespace Sys2Proof.Machine

/-! ### Plan and joining (R327, R328) -/

/-- The entries of a plan record: number, digest, flags, and a reserved byte, 52 bytes each (log 24). -/
def parsePlan (p : Bytes) : List PlanEntry :=
  (List.range (p.length / 52)).map (fun i =>
    { member := BitVec.ofNat 12 (fld p (52 * i) 2), digest := sub p (52 * i + 2) 48, standby := bit (fld p (52 * i + 50) 1) 0 })

/-- Reserved bits or a number above 4,095 in an entry. -/
def planReserved (p : Bytes) : Bool :=
  (List.range (p.length / 52)).any (fun i => decide (4095 < fld p (52 * i) 2) || decide (1 < fld p (52 * i + 50) 1) || fld p (52 * i + 51) 1 != 0)

/-- Are all of a list different? -/
def distinct {α : Type} [DecidableEq α] : List α → Bool
  | [] => true
  | x :: r => !r.contains x && distinct r

/-- A plan with duplicates, without member 0, or with more than two standby masters (R327). -/
def planBad (l : List PlanEntry) : Bool :=
  !distinct (l.map (·.member)) || !distinct (l.map (·.digest)) || !l.any (fun e => e.member == 0) || decide (2 < (l.filter (·.standby)).length)

/-- Why the master refuses a device at JOIN, or the number it joins under (R328). -/
def Block.joinCause (b : Block) (digest : Bytes) (depth : Nat) : Except Nat (BitVec 12) :=
  match b.wty.plan.find? (fun e => e.digest == digest) with
  | none => .error 1
  | some e =>
    let m := Tab.get {} b.wty.members e.member.toNat
    if m.joined then .error 2 else if 7 < depth then .error 3 else if m.quarantined then .error 4 else .ok e.member

/-- A port comes up. -/
def Block.linkUp (b : Block) (p : PortId) (peer : BitVec 12) : Block :=
  b.modPort p (fun x => { x with
    st := .up, peer := peer, frame := 0, sent := 0, drops := 0, keyFrames := 0, lastValid := b.now, keyedAt := b.now, refusedAt := none, idle := 0 })

/-- A stage fails: the port returns to TRAINING after 100 ms (R324); after a refused join the JOIN stage is not tried again for 1 s (R328). -/
def Block.stageFails (b : Block) (p : PortId) (reason : BitVec 4) : Block :=
  let b := b.modPort p (fun x => { x with
    reason := reason, retryAt := some b.now, refusedAt := if reason = 6 then some b.now else x.refusedAt, keys := [] })
  b.fabricF0 p 0 0x20 (reason.setWidth 32)

/-- A plan as it goes to a standby master, in the layout of WTY_PLAN_SET (log 24). -/
def planBytes (l : List PlanEntry) : Bytes := l.flatMap (fun e => le 2 e.member.toNat ++ fit 48 e.digest ++ le 1 (b1 e.standby) ++ [0])

/-- The DOWN port by which a device reaches a member of its subtree. -/
def Block.pathTo (b : Block) (m : BitVec 12) : Option PortId :=
  match (List.finRange 4).find? (fun p => (b.port p).st == .up && (b.port p).role == .down && (b.port p).peer == m) with
  | some p => some p
  | none => ((b.wty.paths.find? (fun x => x.1 == m.toNat)).map (·.2)).filter (fun p => (b.port p).st == .up)

/-- The master sends its plan to a standby master that it reaches; no other member receives it (R327). -/
def Block.sendPlan (b : Block) (e : PlanEntry) : Block :=
  match b.pathTo e.member with
  | some p => if e.standby && e.member != b.self then b.sendFrame p "plan" (planBytes b.wty.plan) else b
  | none => b

/-- The master decides on a joining device, whose request came by a port (R328): a refusal is noted, else the device is joined under its number, and a
standby master is sent the plan. -/
def Block.decideJoin (b : Block) (p : PortId) (digest : Bytes) (depth : Nat) : Except Nat (BitVec 12) × Block :=
  match b.joinCause digest depth with
  | .error c => (.error c, b.fabricF0 p 0 0x22 (BitVec.ofNat 32 (c * 256)))
  | .ok m => (.ok m, b.modWty (fun f => { f with
      members := Tab.put f.members m.toNat { joined := true, lastSeen := b.now, depth := depth }, paths := Tab.put f.paths m.toNat p }))

/-- The JOIN stage of a port ends: the master checks the device against the plan; a member's DOWN port relays what the master answered, and its UP
port makes it a member (R324, R328, R329). -/
def Block.joinEnd (b : Block) (p : PortId) (peer self : BitVec 12) (digest : Bytes) (depth : Nat) (plan : Option Bytes) : Block :=
  match (b.port p).role with
  | .off => b
  | .alt => b.linkUp p peer
  | .down =>
    if b.wty.master then
      match b.decideJoin p digest depth with
      | (.error _, b) => b.stageFails p 6
      | (.ok m, b) => (b.wty.plan.filter (fun e => e.member == m)).foldl Block.sendPlan (b.linkUp p m)
    else if b.joined then (b.linkUp p peer).modWty (fun f => { f with isolated := f.isolated.filter (· != peer) })
    else b
  | .up =>
    let b := (b.linkUp p peer).modWty (fun f => { f with
      number := some self, depth := depth, lastMaster := b.now, lostMaster := false, cutOff := false,
      standby := plan.isSome, eligible := plan.isSome, plan := match plan with | some x => parsePlan x | none => f.plan })
    { b with timeFabric := true }

/-- What a link that is up carries of a JOIN or a plan (R327, R328): the request of a device deeper in the tree, which a member sends on and the master
decides, and a plan sent later to a standby master. -/
def Block.relayedJoin (b : Block) (p : PortId) (digest : Bytes) (depth : Nat) (plan : Option Bytes) : Block :=
  match (b.port p).role with
  | .down =>
    if b.wty.master then
      match b.decideJoin p digest depth with
      | (.error c, b) => b.sendFrame p "refused" (digest ++ le 1 c)
      | (.ok m, b) => (b.wty.plan.filter (fun e => e.member == m)).foldl Block.sendPlan (b.sendFrame p "joined" (digest ++ le 2 m.toNat))
    else match b.upLink with
      | some u => b.sendFrame u "join" (digest ++ le 1 depth)
      | none => b
  | .up => match plan with
    | some x => if b.wty.standby then b.modWty (fun f => { f with plan := parsePlan x }) else b
    | none => b
  | _ => b

/-- LINK_STAGE_END. The KEYS stage leaves a key for each direction (R325; their values are free, log 3). The master refuses a link to an isolated
sender, at a DOWN port as a quarantined device (R328, R342). -/
def execLinkStageEnd (p : PortId) (e : StageEnd) (s : State) : Host.Outcome State Fault Refusal :=
  let b := s.toBlock
  let x := b.port p
  done (
    if x.retryAt.isSome || b.stopped || !b.boot.coreUp then b else
    match x.st, e with
    | .training, .ok l _ _ _ _ _ => if l = 0 then b.stageFails p 1 else b.modPort p (fun x => { x with st := .auth, lanes := BitVec.ofNat 2 l.val })
    | .auth, .ok _ _ _ _ _ _ => b.modPort p (fun x => { x with st := .keys })
    | .keys, .ok _ _ _ _ _ _ => (b.drew 64).modPort p (fun x => { x with st := .join, keys := b.anyBytes 64 })
    | .join, .ok _ peer self digest depth plan =>
      if x.refusedAt.isSome then b
      else if b.wty.isolated.contains peer && b.wty.master && x.role != .down then b.stageFails p 6
      else b.joinEnd p peer self digest depth plan
    | .up, .ok _ _ _ digest depth plan => b.relayedJoin p digest depth plan
    | .join, .failed r => if x.refusedAt.isSome then b else b.stageFails p r
    | .training, .failed r | .auth, .failed r | .keys, .failed r => b.stageFails p r
    | _, _ => b) s

/-- LINK_STAGE_RETRY: 100 ms after a failed stage. -/
def execLinkStageRetry (p : PortId) (s : State) : Host.Outcome State Fault Refusal :=
  let b := s.toBlock
  done (match (b.port p).retryAt with
    | none => b
    | some t => (b.advanceTo t 100000000).modPort p (fun x => { x with st := .training, retryAt := none, lanes := 0 })) s

/-- JOIN_RETRY: 1 s after a refusal the JOIN stage may be tried again. -/
def execJoinRetry (p : PortId) (s : State) : Host.Outcome State Fault Refusal :=
  let b := s.toBlock
  done (match (b.port p).refusedAt with
    | none => b
    | some t => (b.advanceTo t 1000000000).modPort p (fun x => { x with refusedAt := none })) s

/-! ### Frames (R325, R326) -/

/-- FRAME_RECEIVE: the next frame with a good tag is taken; any other is dropped, and a frame retransmitted eight times takes the link
down. -/
def execFrameReceive (p : PortId) (number : W64) (tagOk : Bool) (s : State) : Host.Outcome State Fault Refusal :=
  let b := s.toBlock
  let x := b.port p
  done (
    if x.st ≠ .up then b
    else if tagOk ∧ number = x.frame then
      b.modPort p (fun x => { x with frame := x.frame + 1, keyFrames := x.keyFrames + 1, drops := 0, lastValid := b.now })
    else if 7 ≤ x.drops then b.linkDown p
    else b.modPort p (fun x => { x with drops := x.drops + 1 })) s

/-- LINK_SILENCE: 10 µs without a valid frame. -/
def execLinkSilence (p : PortId) (s : State) : Host.Outcome State Fault Refusal :=
  let b := s.toBlock
  done (if (b.port p).st ≠ .up then b else (b.advanceTo (b.port p).lastValid 10000).linkDown p) s

/-- LINK_KEY_RENEWAL: after 2^32 frames or an hour the keys are new; traffic and its frame numbers keep flowing. -/
def execLinkKeyRenewal (p : PortId) (s : State) : Host.Outcome State Fault Refusal :=
  let b := s.toBlock
  let x := b.port p
  done (
    if x.st ≠ .up then b else
    let b := if x.keyFrames < 2 ^ 32 then b.advanceTo x.keyedAt 3600000000000 else b
    (b.drew 64).modPort p (fun x => { x with keyedAt := b.now, keyFrames := 0, keys := b.anyBytes 64 })) s

/-- LINK_ERRORS: the port is fenced with an F1 note. -/
def execLinkErrors (p : PortId) (s : State) : Host.Outcome State Fault Refusal :=
  let b := s.toBlock
  done (
    if (b.port p).role = .off ∨ (b.port p).st = .fenced then b else
    let peer := (b.port p).peer
    let b := b.linkDown p
    if (b.port p).st = .fenced then b else b.note (Src.fabric p 0) 0x21 1 (farEnd 0x21 peer)) s

/-! ### Time (R330 to R332) -/

/-- Step the counter forward to a value; each step raises TIME_STEP with its length in µs (R331). -/
def Block.stepTo (b : Block) (t : W64) : Block :=
  let us := (t - b.now).toNat / 1000
  let b := { b with now := t, wrapped := b.wrapped || decide (t.toNat < b.now.toNat) }
  b.fabricF0 0 1 0x26 (BitVec.ofNat 32 (min us 0xFFFFFFFF))

/-- A correction within 2 ns: the member's frequency offset is what it measured (a free value, log 155); the third in a row locks it and ends holdover
(R330, R332). -/
def Block.aligned (b : Block) (t : W64) : Block :=
  let n := b.wty.good + 1
  let q : Int := (Config.freeNat 80 t.toNat % 200001 : Nat) - 100000
  let b := b.modWty (fun f => { f with good := n, freq := q, rate := q })
  if n < 3 || b.timeLocked then b else
  let b := if b.holdover then (b.modWty (fun f => { f with holdSince := none })).fabricF0 0 1 0x25 (openDetail 0x25) else b
  b.setLock true false

/-- SYNC_FRAME: the far end's time is its stamp and half the measured round trip. On the UP link of a member: a counter behind steps forward to the
master's value, once locked only where the master has stepped (log 145), and is else steered faster; one ahead is slewed at −100 ppm and never stepped
back; within ±100 ppm the rate is open (log 155). On a DOWN link a member more than 1 ms ahead makes the master step to its value plus 1 µs; a device
between them sends the time on. -/
def execSyncFrame (p : PortId) (x : SyncStamp) (s : State) : Host.Outcome State Fault Refusal :=
  let b := s.toBlock
  let t := x.stamp + BitVec.ofNat 64 (x.roundTrip / 2)
  let ahead := (b.now - t).toNat
  let behind := (t - b.now).toNat
  done (
    if (b.port p).st ≠ .up ∨ !b.joined then b
    else if (b.port p).role = .down then
      if behind ≤ 1000000 ∨ 2 ^ 63 ≤ behind then b
      else if b.wty.master then b.stepTo (t + 1000)
      else match b.upLink with
        | some u => b.sendFrame u "sync" (le 8 t.toNat)
        | none => b
    else if b.wty.master ∨ (b.port p).role ≠ .up then b
    else if behind ≤ 2 ∨ ahead ≤ 2 then b.aligned t
    else
      let b := b.modWty (fun f => { f with good := 0, rate := if behind < 2 ^ 63 then (Config.freeNat 81 t.toNat % 100001 : Nat) else -100000 })
      if (!b.timeLocked ∨ 1000000 < behind) ∧ behind < 2 ^ 63 then b.stepTo t else b) s

/-- HOLD_LIMIT: a HOLDOVER note; the member carries on counting. -/
def execHoldLimit (s : State) : Host.Outcome State Fault Refusal :=
  let b := s.toBlock
  done (match b.wty.holdSince with
    | none => b
    | some t => ((b.advanceTo t (b.wty.holdLimit * 1000000000)).modWty (fun f => { f with holdSince := none })).fabricF0 0 1 0x25 (openDetail 0x25)) s

/-! ### Members and masters (R333 to R337) -/

/-- KEEP_ALIVE of a member (R333, R334): the master notes one that is joined or LOST and replies along the path it came by; another device relays
towards the master what comes from its subtree, and down what the master replies; its own reply says that the master is there. -/
def execKeepAlive (p : PortId) (member : BitVec 12) (s : State) : Host.Outcome State Fault Refusal :=
  let b := s.toBlock
  let x := b.port p
  done (
    if x.st ≠ .up ∨ !b.joined then b
    else if b.wty.master then
      let m := Tab.get {} b.wty.members member.toNat
      if (!m.joined && !m.lost) ∨ m.quarantined then b
      else (b.modWty (fun f => { f with
          members := Tab.put f.members member.toNat { m with joined := true, lost := false, lastSeen := b.now }, paths := Tab.put f.paths member.toNat p })).sendFrame
        p "keepalive" (le 2 member.toNat)
    else if x.role = .up then
      if member = b.self then b.modWty (fun f => { f with lastMaster := b.now, lostMaster := false, cutOff := false })
      else match b.pathTo member with
        | some d => if d = p then b else b.sendFrame d "keepalive" (le 2 member.toNat)
        | none => b
    else match b.upLink with
      | some u => (b.modWty (fun f => { f with paths := Tab.put f.paths member.toNat p })).sendFrame u "keepalive" (le 2 member.toNat)
      | none => b) s

/-- MEMBER_LOST, on the master: no keep-alive for 1 ms. -/
def execMemberLost (member : BitVec 12) (s : State) : Host.Outcome State Fault Refusal :=
  let b := s.toBlock
  let m := Tab.get {} b.wty.members member.toNat
  done (
    if !b.wty.master ∨ !m.joined then b else
    let b := b.advanceTo m.lastSeen 1000000
    (b.modWty (fun f => { f with members := Tab.put f.members member.toNat { m with joined := false, lost := true } })).fabricF0
      0 6 0x23 (member.setWidth 32)) s

/-- MASTER_LOST: nothing heard from the master for 1 ms. -/
def execMasterLost (s : State) : Host.Outcome State Fault Refusal :=
  let b := s.toBlock
  done (
    if !b.joined || b.wty.master || b.wty.lostMaster then b else
    let b := b.advanceTo b.wty.lastMaster 1000000
    ((b.modWty (fun f => { f with lostMaster := true })).fabricF0 0 6 0x24 (b.wty.masterNo.setWidth 32)).enterHoldover) s

/-- A standby becomes the master: the term advances, its links towards the old master become links down the tree (the master has no UP port, R323,
log 156), a holdover ends with its note, and it announces itself down the tree (R337). -/
def Block.becomeMaster (b : Block) : Block :=
  let b := b.raiseCounter 2 (b.counter 2 + 1)
  let b := b.modWty (fun f => { f with
    master := true, masterNo := b.self, committing := true, lostMaster := false, cutOff := false, standby := false, depth := 0, holdSince := none,
    rate := 0, ports := f.ports.map (fun x => if x.role = .up ∨ x.role = .alt then { x with role := .down, promoted := false } else x) })
  let b := if b.holdover then b.fabricF0 0 1 0x25 (openDetail 0x25) else b
  let b := (b.setLock false false).fabricF0 0 6 0x29 (b.self.setWidth 32)
  ((List.finRange 4).foldl (fun (b : Block) (p : PortId) =>
    if (b.port p).st = .up then b.sendFrame p "master" (le 2 b.self.toNat ++ le 8 (b.counter 2)) else b) b).change .policies

/-- TAKEOVER: eligible, the master unreachable for 50 ms, and more than half of the plan's members reached. -/
def execTakeover (reached : Nat) (s : State) : Host.Outcome State Fault Refusal :=
  let b := s.toBlock
  done (
    if !b.wty.standby || !b.wty.eligible || !b.wty.lostMaster || decide (2 * reached ≤ b.wty.plan.length) then b
    else (b.advanceTo b.wty.lastMaster 50000000).becomeMaster) s

/-- QUORUM_LOSS: for 50 ms a master has reached this many of the plan's members; at half or fewer it stops committing, above it resumes. -/
def execQuorumLoss (reached : Nat) (s : State) : Host.Outcome State Fault Refusal :=
  let b := s.toBlock
  done (
    if !b.wty.master then b
    else (b.modWty (fun f => { f with committing := decide (f.plan.length < 2 * reached) })).releaseWaits) s

/-! ### Replicated stores (R338 to R340) -/

/-- REPLICATION_CHANGE: the slice's sequence advances, the member is of its replica set; a member more than 65,536 changes behind receives a
full snapshot (R338). A standby that has fallen behind is not eligible until it has caught up. -/
def execReplicationChange (c : ReplChange) (s : State) : Host.Outcome State Fault Refusal :=
  let b := s.toBlock
  let x := b.slice c.slice
  done (
    if !b.joined || !x.replicated || (b.wty.master && !b.wty.committing) then b else
    let b := (b.modSlice c.slice (fun x => { x with
      replSeq := x.replSeq + 1, members := if x.members.contains c.member ∨ 64 ≤ x.members.length then x.members else x.members ++ [c.member] })).change
        (.slice c.slice)
    let b := if b.wty.standby && c.member == b.self then b.modWty (fun f => { f with eligible := c.behind == 0 }) else b
    if 65536 < c.behind then b.fabricF0 0 2 0x27 (c.member.setWidth 32) else b) s

/-- The uses of a lease (R339). -/
def leaseSize (remaining members : Nat) : Nat := min remaining (min 1024 (max 1 (remaining / max 1 members)))

/-- LEASE_REQUEST: a member takes a lease on a key's use limit from the master; one cut off from the master takes none. -/
def execLeaseRequest (handle : W32) (member : BitVec 12) (s : State) : Host.Outcome State Fault Refusal :=
  let b := s.toBlock
  done (match b.key handle with
    | none => b
    | some k =>
      if !k.underLease || !b.joined || b.wty.lostMaster then b else
      let n := leaseSize (k.useLimit.toNat - (k.useCount.toNat + k.lease + k.leased)) (b.slice (handleSlice handle)).members.length
      if member = b.self then b.putKey handle { k with lease := k.lease + n }
      else if !b.wty.master then b
      else (b.putKey handle { k with leased := k.leased + n }).change (.key handle)) s

/-- REPL_GRACE: a member cut off that long stops using its replicas. -/
def execReplGrace (s : State) : Host.Outcome State Fault Refusal :=
  let b := s.toBlock
  done (
    if !b.wty.lostMaster || b.wty.cutOff || b.wty.master then b
    else (b.advanceTo b.wty.lastMaster (b.wty.replGrace * 1000000000)).modWty (fun f => { f with cutOff := true })) s

/-- Delete a slice's local replicas. -/
def Block.dropReplicas (b : Block) (sl : Nat) : Block :=
  (b.kst.keys.filter (fun p => p.1 / 2 ^ 21 == sl && p.2.replicated)).foldl (fun (b : Block) (p : Nat × Key) => b.eraseKey (BitVec.ofNat 32 p.1)) b

/-! ### Zeroise notices (R341, R342) -/

/-- ZEROISE_NOTICE: forwarded once on every other port that is up, noted, and acted on by the device's policy; the master quarantines the
sender. -/
def execZeroiseNotice (p : PortId) (sender : BitVec 12) (term : W64) (s : State) : Host.Outcome State Fault Refusal :=
  let b := s.toBlock
  done (
    if (b.port p).st ≠ .up ∨ b.wty.seenNotices.contains (sender, term) then b else
    let pol := b.wty.fzPolicy.toNat
    let b := b.modWty (fun f => { f with seenNotices := (sender, term) :: f.seenNotices })
    let b := (b.sendNotice (some p) sender term.toNat).fabricF0 p 5 0x28 (sender.setWidth 32)
    let put (f : Fabric) : Fabric :=
      { f with members := Tab.put f.members sender.toNat { (Tab.get {} f.members sender.toNat : Member) with quarantined := true, joined := false } }
    let b := if b.wty.master then b.modWty put else b
    let b := if pol = 0 then b else
      let b := b.modWty (fun f => { f with isolated := sender :: f.isolated.filter (· != sender) })
      (List.finRange 4).foldl (fun (b : Block) (q : PortId) => if (b.port q).peer = sender then b.linkDown q else b) b
    let b := if pol < 2 then b else
      (b.slices.filter (fun x => x.2.replicated && x.2.members.contains sender)).foldl (fun (b : Block) (x : Nat × Slice) => b.dropReplicas x.1) b
    if pol < 3 then b else Block.failJobs (b.zeroiseLine.jobsWhere (fun _ => true)) St.aborted 4 b.zeroiseLine) s

/-! ### Spreading jobs (R343 to R345) -/

/-- ADVERTISEMENT: a neighbour's idle wales. -/
def execAdvertisement (p : PortId) (idle : Nat) (s : State) : Host.Outcome State Fault Refusal :=
  let b := s.toBlock
  done (if (b.port p).st ≠ .up then b else b.modPort p (fun x => { x with idle := idle })) s

/-- May a job be forwarded over a port (R343)? -/
def Block.mayForward (b : Block) (j : Job) (p : PortId) : Bool :=
  let x := b.slice j.slice
  let port := b.port p
  b.dispatches && j.phase == .ready && !j.ended && !j.spread && j.remote.isNone && !j.dev && b.startable j &&
  port.st == .up && port.role != .alt && x.replicated && x.spread && x.members.contains port.peer && !b.wty.isolated.contains port.peer &&
  decide (0 < j.entry.wales) && decide (j.entry.wales ≤ port.idle) && !j.entry.customer && !(j.entry.coop && j.desc.coopOk) &&
  ((if j.entry.namesKey j.desc then [j.desc.handle] else []) ++ (if handle2Op j.op then [j.desc.handle2] else [])).all (fun h =>
    (b.key h).any (fun k => k.replicated && k.stateful.isNone)) &&
  j.op / 16 != 0x122 && addrForm j.desc.inAddr != 1 && addrForm j.desc.outAddr != 1 && j.awaits.isNone &&
  !(List.range 64).any (fun w => (b.plan j w).isSome)

/-- SPREAD_WAIT: the job is forwarded, which counts as its grant; its inputs are first read into the origin's buffer (R344). -/
def execSpreadWait (j : Nat) (p : PortId) (s : State) : Host.Outcome State Fault Refusal :=
  let b := s.toBlock
  done (match b.job j with
    | none => b
    | some x =>
      if !b.mayForward x p then b else
      let b := b.advanceTo x.readySince ((b.port p).spreadWait * 1000)
      let b := b.countWait x
      let head := b.isHead x
      let b := b.modJob j (fun z => { { z with fixed := z.desc.inLen, passes := 0 }.withNeeds with
        phase := .loading, wales := [], quad := b.emptyQuad z, holding := !head, grantedAt := b.now, waited := b.elapsed z.levelAt,
        forwardTo := some p, spread := true })
      let b := b.dryDeficit x.level x.list
      b.pump j) s

/-- FORWARDED_JOB: the neighbour admits it under its own copy of the slice, or refuses what does not fit there (R344). Another failure of its
checks is returned as the result. -/
def execForwardedJob (p : PortId) (sl : SliceId) (desc input param : Bytes) (remote : Nat) (s : State) : Host.Outcome State Fault Refusal :=
  let b := s.toBlock
  let x := b.slice sl
  let d := parseDesc desc
  let answer (st : W16) (dt : W32) : Block := b.sendFrame p "result" (le 8 remote ++ le 2 st.toNat ++ le 4 dt.toNat)
  done (
    if (b.port p).st ≠ .up then b
    else if !b.dispatches || !x.replicated || x.st != .active then b.sendFrame p "refused" (le 8 remote)
    else match b.usable sl d.opcode with
      | none => answer St.badOpcode 0
      | some e =>
        match b.admitCheck sl e d with
        | some (st, dt) => if st = St.quota ∨ st = St.resourceFenced then b.sendFrame p "refused" (le 8 remote) else answer st dt
        | none =>
          let op := native d.opcode.toNat
          let k := if e.namesKey d then (b.visibleKey sl d.handle).getD {} else {}
          let k2 := if handle2Op op && !e.customer then (b.visibleKey sl d.handle2).getD {} else {}
          let id := b.dsp.next
          let j : Job := {
            id := id, slice := sl, ring := 0, index := 0, desc := d, entry := e,
            level := if x.ceiling.val < d.priority.toNat % 8 then x.ceiling else Fin.ofNat 8 d.priority.toNat,
            admittedAt := b.now, readySince := b.now, levelAt := b.now, useHeld := e.namesKey d && (keyNeed e op).secret,
            order := b.orderOf sl op e d k, keyObj := k, keyTwo := k2, reservedKst := ((b.knownKey sl e d).map entrySpace).getD 0,
            input := input, param := param, fixed := d.inLen, remote := some (p, remote) }
          let b := b.dryDeficit j.level j.list
          let b := { b with jobs := b.jobs ++ [j], dsp := { b.dsp with next := id + 1 } }
          (j.usedKeys.foldl (fun (b : Block) (h : W32) => b.modKey h (fun k => { k with reserved := k.reserved + 1 })) b).refill) s

/-- FORWARDED_RESULT: the outputs are written at the origin and the record carries the neighbour's status and Detail; a refused job returns to
the head of its ready list, or leaves it at once where its slice has stopped admitting (R148), and what arrives for a job that has ended is discarded (R344, R345). -/
def execForwardedResult (j : Nat) (r : Option FwdResult) (s : State) : Host.Outcome State Fault Refusal :=
  let b := s.toBlock
  done (match b.job j with
    | none => b
    | some x =>
      if x.phase ≠ .forwarded ∨ x.ended then b else
      match r with
      | none =>
        let fixed := b.fixedLen x.slice x.entry x.desc
        let z := { x with
          phase := .ready, forwardTo := none, holding := false, levelAt := b.now - BitVec.ofNat 64 x.waited, readySince := b.now,
          fixed := fixed, passes := streamPasses fixed x.op x.desc }
        let b := { (b.dryDeficit x.level x.list) with jobs := z :: b.jobs.filter (fun y => y.id != j) }.refill
        if (b.slice x.slice).st = .active ∨ x.remote.isSome then b else b.failJob j St.aborted 1
      | some y =>
        let b := b.returnUse x
        (b.modJob j (fun z => { z with
          forwardTo := none, useHeld := false, phase := .comparing, result := { status := y.status, detail := y.detail, out := y.out } })).passed j) s

/-- FORWARD_ABORT: the origin stops a job it had forwarded here. -/
def execForwardAbort (p : PortId) (remote : Nat) (s : State) : Host.Outcome State Fault Refusal :=
  let b := s.toBlock
  done (Block.failJobs (b.jobsWhere (fun j => j.remote == some (p, remote))) St.aborted 0 b) s

/-! ### Commands (Table 14.8): the layouts of their payloads are assumption log 24 -/

/-- A fabric command: PROVISIONED and DEPLOYED only (R348). -/
def Block.wtyCmd (b : Block) (code : W16) (r : Req) (len : Nat → Bool) (body : Block → Block × Reply) : Block :=
  b.command { code := code, len := len, states := ownedLife } r body

/-- Table 14.3. -/
def Port.word (x : Port) : Nat :=
  x.st.code * 2 ^ 29 + x.role.code * 2 ^ 27 + x.lanes.toNat * 2 ^ 25 + b1 x.promoted * 2 ^ 24 + x.peer.toNat * 2 ^ 12 + x.reason.toNat * 2 ^ 8 + x.downs.toNat

/-- WTY_STATUS: member number (open before joining, log 4), term, master, depth, the four port words, and each replica set with its lag. -/
def execWtyStatus (r : Req) (s : State) : Host.Outcome State Fault Refusal :=
  done (s.toBlock.wtyCmd 0x0090 r (exactly 0) (fun b =>
    let num := match b.wty.number with | some n => n.toNat | none => Config.freeNat 24 0 % 65536
    (b, .ok (le 2 num ++ le 8 (b.counter 2) ++ le 2 b.wty.masterNo.toNat ++ le 1 b.wty.depth ++ b.wty.ports.toList.flatMap (fun p => le 4 p.word) ++
      (b.slices.filter (fun x => x.2.replicated)).flatMap (fun x =>
        le 2 x.1 ++ le 2 x.2.members.length ++ x.2.members.flatMap (fun m => le 2 m.toNat) ++
        le 4 (b.kst.lag.filter (fun (c : Change) => (match c with | .slice z => z.val == x.1 | .key h => handleSlice h == x.1 | .policies => false))).length))))) s

/-- WTY_PLAN_SET (R327): a member that is not the master is CONTEXT_BUSY, and so is a device with an UP port, which the master never has (R323,
log 156); the plan goes out to the standby masters. -/
def execWtyPlanSet (r : Req) (s : State) : Host.Outcome State Fault Refusal :=
  done (s.toBlock.wtyCmd 0x0091 r (fun n => n % 52 == 0 && decide (n ≤ 52 * 4096)) (fun b =>
    let l := parsePlan r.payload
    if (b.joined && !b.wty.master) || b.wty.ports.any (fun x => x.role == .up) then (b, .fail St.contextBusy 0)
    else if planReserved r.payload then (b, .fail St.badParam 0)
    else if planBad l then (b, .fail St.badParam 0xC0)
    else
      let b := b.modWty (fun f => { f with plan := l, master := true, number := some b.self, masterNo := b.self })
      let b := l.foldl Block.sendPlan b
      ({ b with timeFabric := true }.change .policies, .ok []))) s

/-- WTY_PORT_CFG: port, role and SPREAD_WAIT in µs; the role changes only while the port is OFF, and there is at most one UP port, none on the
master (R323). -/
def execWtyPortCfg (r : Req) (s : State) : Host.Outcome State Fault Refusal :=
  done (s.toBlock.wtyCmd 0x0092 r (exactly 4) (fun b =>
    let q := fld r.payload 0 1; let role := PortRole.ofCode (fld r.payload 1 1); let w := fld r.payload 2 1
    if h : q < 4 ∧ fld r.payload 1 1 < 4 ∧ w ≠ 0 ∧ fld r.payload 3 1 = 0 then
      let p : PortId := ⟨q, h.1⟩
      if role = (b.port p).role then (b.modPort p (fun x => { x with spreadWait := w }), .ok [])
      else if (b.port p).st ≠ .off then (b, .fail St.contextBusy 0)
      else if role = .up ∧ (b.wty.master ∨ b.wty.ports.any (fun x => x.role == .up)) then (b, .fail St.badParam 0)
      else (b.modPort p (fun x => { x with role := role, spreadWait := w, st := if role = .off then .off else .training }), .ok [])
    else (b, .fail St.badParam 0))) s

/-- WTY_TIME_CFG: HOLD_LIMIT and REPL_GRACE in seconds. -/
def execWtyTimeCfg (r : Req) (s : State) : Host.Outcome State Fault Refusal :=
  done (s.toBlock.wtyCmd 0x0093 r (exactly 8) (fun b =>
    let h := fld r.payload 0 4; let g := fld r.payload 4 4
    if h < 1 ∨ 3600 < h ∨ g < 1 ∨ 86400 < g then (b, .fail St.badParam 0)
    else ((b.modWty (fun f => { f with holdLimit := h, replGrace := g })).change .policies, .ok []))) s

/-- WTY_MEMBER_ADMIT, on the master: a quarantined member may join again (R342). -/
def execWtyMemberAdmit (r : Req) (s : State) : Host.Outcome State Fault Refusal :=
  done (s.toBlock.wtyCmd 0x0094 r (exactly 4) (fun b =>
    let m := fld r.payload 0 2
    if 4095 < m ∨ fld r.payload 2 2 ≠ 0 then (b, .fail St.badParam 0)
    else if !b.wty.master then (b, .fail St.contextBusy 0)
    else (b.modWty (fun f => { f with
      members := Tab.put f.members m { (Tab.get {} f.members m : Member) with quarantined := false },
      isolated := f.isolated.filter (fun x => x.toNat != m) }), .ok []))) s

/-- WTY_FZ_POLICY_SET: in DEPLOYED the policy may only be raised; register 5 follows. -/
def execWtyFzPolicySet (r : Req) (s : State) : Host.Outcome State Fault Refusal :=
  done (s.toBlock.wtyCmd 0x0095 r (exactly 4) (fun b =>
    let v := fld r.payload 0 1
    if 3 < v ∨ fld r.payload 1 3 ≠ 0 then (b, .fail St.badParam 0)
    else if b.otp.lifecycle = .deployed ∧ v < b.wty.fzPolicy.toNat then (b, .fail St.keyState 0)
    else (((b.modWty (fun f => { f with fzPolicy := BitVec.ofNat 8 v })).change .policies).measurePolicies, .ok []))) s

/-- WTY_FZ_POLICY_GET. -/
def execWtyFzPolicyGet (r : Req) (s : State) : Host.Outcome State Fault Refusal :=
  done (s.toBlock.wtyCmd 0x0096 r (exactly 0) (fun b => (b, .ok (le 4 b.wty.fzPolicy.toNat)))) s

/-- WTY_SLICE_JOIN: a QUIESCED slice of a joined device becomes replicated, with its spread permission; the keys that R339 replicates are
replicated from now on. -/
def execWtySliceJoin (r : Req) (s : State) : Host.Outcome State Fault Refusal :=
  done (s.toBlock.wtyCmd 0x0097 r (exactly 6) (fun b =>
    match b.named r.payload [.quiesced] with
    | .error e => (b, e)
    | .ok sl =>
      let fl := fld r.payload 4 2
      if 1 < fl then (b, .fail St.badParam 0)
      else if !b.joined then (b, .fail St.contextBusy 0)
      else
        let b := b.modSlice sl (fun x => { x with
          replicated := true, spread := fl == 1, members := if x.members.contains b.self then x.members else x.members ++ [b.self] })
        let b := (b.keysOf sl).foldl (fun (b : Block) (k : W32 × Key) => b.modKey k.1 (fun k => { k with replicated := b.replicates sl k })) b
        (b.change (.slice sl), .ok []))) s

/-- WTY_SLICE_LEAVE: the local replicas are deleted. -/
def execWtySliceLeave (r : Req) (s : State) : Host.Outcome State Fault Refusal :=
  done (s.toBlock.wtyCmd 0x0098 r (exactly 4) (fun b =>
    match b.named r.payload [.quiesced, .active] with
    | .error e => (b, e)
    | .ok sl =>
      let b := (b.dropReplicas sl).modSlice sl (fun x => { x with replicated := false, spread := false, members := [] })
      (b.change (.slice sl), .ok []))) s

/-- WTY_TAKEOVER on an eligible standby, provided the master is unreachable or agrees; whether it agrees is open (log 4). -/
def execWtyTakeover (r : Req) (s : State) : Host.Outcome State Fault Refusal :=
  done (s.toBlock.wtyCmd 0x0099 r (exactly 0) (fun b =>
    if !b.wty.standby || !b.wty.eligible then (b, .fail St.contextBusy 0)
    else if !b.wty.lostMaster && Config.freeNat 25 (b.counter 2) == 0 then (b, .fail St.contextBusy 0)
    else (b.becomeMaster, .ok []))) s

end Sys2Proof.Machine
end

