-- ==== Sys2Proof/Machine/Power.lean ====
section
/-! DEFINITION. Power states, clocks, the core rail, temperature limits and ageing (chapter 15, R349 to R370). -/
namespace Sys2Proof.Machine

/-- Change the power block. -/
def Block.modPwr (b : Block) (f : Power → Power) : Block := { b with pwr := f b.pwr }
/-- Change the ageing record of a wale. -/
def Block.modAge (b : Block) (w : Nat) (f : Ageing → Ageing) : Block := b.modWale w (fun x => { x with age := f x.age })
/-- A note of the power controller, source 0xA580; the spec gives AVS_FAULT and THERMAL no Detail (log 26). -/
def Block.powerNote (b : Block) (kind : Byte) : Block := b.note (Src.device 11 0) kind 0 (openDetail kind)

/-! ### Need, index, plan (R363 to R365) -/

/-- What ageing has added to Vnew, as the last run found it. -/
def Block.ageing (b : Block) (w : Nat) : Nat := (b.wale w).age.need - Config.vnew w (b.quad (w / 16)).bin
/-- The need of a wale at a bin: the same ageing over that bin's Vnew (the example of chapter 15; log 27). -/
def Block.needAt (b : Block) (w bin : Nat) : Nat := Config.vnew w bin + b.ageing w
/-- The age index at a bin (R364, R365). -/
def Block.indexAt (b : Block) (w bin : Nat) : Nat :=
  if b.reach < b.needAt w bin then 1000 else min 1000 (1000 * b.ageing w / (835 - Config.vnew w bin))
/-- Does every unfenced wale of a quadrant keep within its reach at a bin? -/
def Block.binFits (b : Block) (q bin : Nat) : Bool :=
  (List.range 16).all (fun k => !b.waleAvail (16 * q + k) || decide (b.needAt (16 * q + k) bin ≤ b.reach))

/-- A wale's need exceeds its reach (R365): with BIN_DROP the quadrant moves to the highest lower bin at which every unfenced wale fits, else,
or where none fits, the wale is fenced. -/
def Block.marginFails (b : Block) (w : Nat) : Block :=
  let q := w / 16
  let z := b.quad q
  let cur := z.binWant.getD (z.binTo.getD z.bin)
  if b.needAt w cur ≤ b.reach then b else
  let drop : Option (Fin 5) :=
    if b.pwr.ageCfg.getLsbD 0 then (List.finRange 5).find? (fun (n : Fin 5) => decide (cur.val < n.val) && b.binFits q n.val) else none
  match drop with
  | some n => ((b.modQuad q (fun z => { z with binWant := some n })).planQuad q).note (Src.device 10 0) 0x32 0 (openDetail 0x32)
  | none => b.note (Src.waleUnit w 0) 0x0E 1 (BitVec.ofNat 32 (b.wale w).age.need)

/-- Every unfenced wale whose need exceeds its reach (R358, R365). -/
def Block.checkMargins (b : Block) : Block :=
  (List.range 64).foldl (fun (b : Block) w => if b.waleAvail w && decide (b.reach < (b.wale w).age.need) then b.marginFails w else b) b

/-- A quadrant has reached a bin (R350, R361, R364): needs and indices are those of the bin, every unfenced wale is to be calibrated, and the
targets follow. -/
def Block.reachBin (b : Block) (q : Nat) (n : Fin 5) : Block :=
  let old := b
  let b := b.modQuad q (fun z => { z with bin := n, binTo := none })
  let b := { b with flash := { b.flash with bins := b.flash.bins.set (q % 4) n (Nat.mod_lt _ (by decide)) } }
  let b := (List.range 16).foldl (fun (b : Block) k =>
    let w := 16 * q + k
    let b := b.modAge w (fun a => { a with need := if a.need = 0 then 0 else old.needAt w n, calibrating := a.calibrating || old.waleAvail w })
    b.modAge w (fun a => { a with index := b.indexAt w n })) b
  b.planQuad q

/-! ### Clocks (R349, R350) -/

/-- BIN_CHANGE: the selector moves to the network output and the wale output is retuned. A bin falls at once; it rises once every unfenced wale
of the quadrant has its new target and its calibration. -/
def execBinChange (q : QuadId) (bin : Fin 5) (s : State) : Host.Outcome State Fault Refusal :=
  let b := s.toBlock
  let z := b.quad q
  let raised := (List.range 16).all (fun k =>
    let w := 16 * q.val + k
    !b.waleAvail w || ((b.wale w).age.planned.isNone && !(b.wale w).age.calibrating))
  done (
    if z.binWant ≠ some bin ∨ z.binTo.isSome ∨ !b.boot.rimUp ∨ (bin.val < z.bin.val ∧ (!raised ∨ b.pwr.avsLost)) then b
    else b.modQuad q (fun z => { z with onNet := true, binWant := none, binTo := some bin })) s

/-- PLL_LOCK: the lock ends a start of the PLL, or the retuning of a bin change, whereupon the selector returns to the wale output; while
derating is in force it stays on the network output (R350). -/
def execPllLock (q : QuadId) (s : State) : Host.Outcome State Fault Refusal :=
  let b := s.toBlock
  done (
    if !(b.quad q).pllRun then b else
    let b' := match (b.quad q).binTo with
      | some n => b.reachBin q n
      | none => b
    (b'.modQuad q (fun z => { z with pllLocked := true, onNet := b.pwr.derated })).pumpQuad q) s

/-! ### Rail and targets (R355 to R358) -/

/-- Every retry on the PMBus has failed (R358). -/
def Block.avsFault (b : Block) : Block :=
  if b.pwr.avsLost then b else
  let b := b.modPwr (fun p => { p with avsLost := true, moving := false, lastRail := p.vout, retries := 0 })
  let b := { b with quads := b.quads.map (fun (p : Nat × Quad) =>
    (p.1, if p.2.binWant.any (fun n => decide (n.val < p.2.bin.val)) then { p.2 with binWant := none } else p.2)) }
  let b := (List.range 4).foldl Block.planQuad b
  (b.powerNote 0x30).checkMargins

/-- RAIL_STEP: READ_VOUT is within 5 mV of the command, or 50 µs have passed; the next step is commanded. None stands for a transfer whose
retries all failed. -/
def execRailStep (vout : Option Nat) (s : State) : Host.Outcome State Fault Refusal :=
  let b := s.toBlock
  done (
    if !b.pwr.moving then b else
    match vout with
    | none => b.avsFault
    | some v =>
      let near := decide (v ≤ b.pwr.rail + 5) && decide (b.pwr.rail ≤ v + 5)
      let b := if near then b else b.advanceTo b.pwr.commandedAt 50000
      (b.modPwr (fun p => { p with vout := v, moving := false })).moveRail) s

/-- TARGET_SETTLE: an idle wale whose plan the rail allows has settled on its new target; its set points are to be measured anew, and one that
was raised reads LEVEL_SET 0x00 until then (R356, R361). -/
def execTargetSettle (w : WaleId) (s : State) : Host.Outcome State Fault Refusal :=
  let b := s.toBlock
  let a := (b.wale w).age
  done (match a.planned with
    | none => b
    | some t =>
      if !b.railReady w || !b.idle w || !b.waleAvail w || a.running then b
      else (b.modAge w (fun a => { a with
        target := t, planned := none, calibrating := true, levelBin := if a.target < t then 0 else a.levelBin,
        levelNet := if a.target < t then 0 else a.levelNet })).moveRail) s

/-- CALIBRATION_END: the set points at the bin clock and at 1.2 GHz (R361). -/
def execCalibrationEnd (w : WaleId) (binSet netSet : Byte) (s : State) : Host.Outcome State Fault Refusal :=
  let b := s.toBlock
  let x := b.wale w
  done (
    if !x.age.calibrating || x.age.running || x.job.isSome || (x.st != .warm && x.st != .clockGated && x.st != .gated) then b
    else ((b.modAge w (fun a => { a with levelBin := binSet, levelNet := netSet, calibrating := false })).startRuns).refill) s

/-- IOUT_LIMIT in units of 0.1 A. -/
def Power.limit (p : Power) : Nat := bits p.cfg.toNat 23 16 * 10

/-- PMBUS_POLL: readings, the current limit, and the retries of R358: a fault bit, or READ_VOUT more than 10 mV from a command 200 µs old, is
retried three times. -/
def execPmbusPoll (r : Option PmReading) (s : State) : Host.Outcome State Fault Refusal :=
  let b := s.toBlock
  done (
    if !b.boot.rimUp then b else
    match r with
    | none => b.avsFault
    | some m =>
      let late := decide (200000 ≤ b.elapsed b.pwr.commandedAt)
      let far := decide (b.pwr.rail + 10 < m.vout) || decide (m.vout + 10 < b.pwr.rail)
      let bad := m.fault || (late && far)
      let fails := bad && decide (3 ≤ b.pwr.retries)
      let heavy := decide (b.pwr.limit < m.iout)
      let b := b.modPwr (fun p => { p with
        vout := m.vout, iout := m.iout, retries := if bad then p.retries + 1 else 0,
        overSince := if heavy then some (p.overSince.getD b.now) else none,
        ioutHold := p.ioutHold && !decide (m.iout * 100 < p.limit * 95) })
      if fails then b.avsFault else b) s

/-- IOUT_LIMIT: the current has exceeded the limit for 1 ms; nothing new is granted until it falls below 95 % of it. -/
def execIoutLimit (s : State) : Host.Outcome State Fault Refusal :=
  let b := s.toBlock
  done (match b.pwr.overSince with
    | some t => (b.advanceTo t 1000000).modPwr (fun p => { p with ioutHold := true })
    | none => b) s

/-! ### Temperature (R359, R360) -/

/-- The hottest Tj of a quadrant. -/
def Tjs.ofQuad (t : Tjs) (q : QuadId) : Int :=
  ((List.range 16).map (fun k => t.wales[(Fin.ofNat 64 (16 * q.val + k))])).foldl max t.nets[q]

/-- Every quadrant's selector on the network output, or back on its bin unless the PLL is retuning (R359). -/
def Block.derateQuads (b : Block) (on : Bool) : Block :=
  (List.range 4).foldl (fun (b : Block) q => b.modQuad q (fun z => { z with onNet := on || z.binTo.isSome })) b

/-- THERMAL_SAMPLE: Tcase is the hottest Tj less 0.10 °C for each watt of READ_VOUT × READ_IOUT. Above 105 °C derating starts; below 100 °C its
end begins to be timed. A quadrant at 140 °C is held until it is at or below 135 °C. A Tj outside the limits of Table 12.3 is T6's condition (R293). -/
def execThermalSample (t : Tjs) (s : State) : Host.Outcome State Fault Refusal :=
  let b := s.toBlock
  done (
    if !b.boot.coreUp then b else
    let all := t.wales.toList ++ t.nets.toList ++ [t.rim, t.kst]
    let b := if all.any (fun x => outside 6 (.temperature x)) then b.alarmOn 6 (sensorDetail 6) else b.alarmOff 6
    let scaled : Int := Tjs.hottest t * 10000 - (b.pwr.vout * b.pwr.iout : Nat)
    let b := b.modPwr (fun p => { p with
      tj := t, tcase := scaled / 10000,
      coolSince := if p.derated && decide (scaled < 10000000) then some (p.coolSince.getD b.now) else none })
    let b := (List.finRange 4).foldl (fun (b : Block) (q : QuadId) => b.modQuad q (fun z => { z with
      hold := if 1400 ≤ Tjs.ofQuad t q then true else if Tjs.ofQuad t q ≤ 1350 then false else z.hold })) b
    let b := if decide (10500000 < scaled) && !b.pwr.derated then
        ((b.modPwr (fun p => { p with derated := true })).derateQuads true).powerNote 0x31
      else b
    b.startRuns) s

/-- DERATE_END: the estimate has stayed below 100 °C for 1 s. -/
def execDerateEnd (s : State) : Host.Outcome State Fault Refusal :=
  let b := s.toBlock
  done (match b.pwr.coolSince with
    | some t =>
      if !b.pwr.derated then b else
      (((b.advanceTo t 1000000000).modPwr (fun p => { p with derated := false, coolSince := none })).derateQuads false).powerNote 0x31
    | none => b) s

/-! ### Ageing runs (R362 to R367) -/

/-- AGEING_RUN_DUE: 24 h since the last run. -/
def execAgeingRunDue (w : WaleId) (s : State) : Host.Outcome State Fault Refusal :=
  let b := s.toBlock
  done (
    if !b.boot.rimUp then b else
    ((b.advanceTo (b.wale w).age.lastRun 86400000000000).modAge w (fun a => { a with runWanted := true })).startRuns) s

/-- RING_OSC_READ: a fall of more than 2 % since the last run starts a run. -/
def execRingOscRead (w : WaleId) (khz : Nat) (s : State) : Host.Outcome State Fault Refusal :=
  let b := s.toBlock
  done (
    if !b.boot.rimUp then b else
    let b := b.advanceTo (b.wale w).age.oscAt 10000000000
    (b.modAge w (fun a => { a with oscAt := b.now, runWanted := a.runWanted || decide (khz * 100 < a.runKhz.toNat * 98) })).startRuns) s

/-- The projection of R367, all ones before 168 powered hours or beyond the field. -/
def Block.hoursLeft (b : Block) (w : Nat) : W32 :=
  let h := (b.wale w).age.hours.toNat
  let n := Config.projection (b.needAt w 0) (Config.vnew w 0) h
  if h < 168 ∨ 0xFFFFFFFE < n then 0xFFFFFFFF else BitVec.ofNat 32 n

/-- A projection below WARN raises an AGE_PLAN note, at most once a wale in 24 h (R367); Detail [31:8] is not stated (log 26). -/
def Block.warnAge (b : Block) (w : Nat) : Block :=
  let a := (b.wale w).age
  let warn := bits b.pwr.ageCfg.toNat 31 16 * 64
  let recent := match a.warnedAt with
    | some t => decide (b.elapsed t < 86400000000000)
    | none => false
  if a.left == 0xFFFFFFFF || decide (warn ≤ a.left.toNat) || recent then b
  else (b.modAge w (fun a => { a with warnedAt := some b.now })).note (Src.device 10 0) 0x32 0
    (BitVec.ofNat 32 (w % 256 + openDetail 0x32 >>> 8 <<< 8).toNat)

/-- The monitor's copy of a wale's plan and count in the flash ageing region (R367). -/
def Block.keepAge (b : Block) (w : Nat) : Block :=
  { b with flash := { b.flash with ages := Tab.put b.flash.ages w (b.wale w).age } }

/-- AGEING_RUN_END: the need the canaries show and the ring oscillator. The offset is need less Vnew, rounded up to 5 mV, and falls by at most
5 mV; index, plan, margin, warning and the flash copy follow, and then the calibration that ends the run. A wale under an AGE_MARGIN fence
returns at an index of 950 or below. -/
def execAgeingRunEnd (w : WaleId) (need khz : Nat) (s : State) : Host.Outcome State Fault Refusal :=
  let b := s.toBlock
  done (
    if !(b.wale w).age.running then b else
    let bin := (b.quad (w.val / 16)).bin.val
    let fenced := b.marginFence w
    let b := b.modAge w (fun a => { a with
      running := false, runWanted := false, deferred := false, cold := false, lastRun := b.now, oscAt := b.now, runKhz := BitVec.ofNat 32 khz,
      need := need, offset := min 175 (max (a.offset - 5) (roundUp (need - Config.vnew w bin) 5)) })
    let b := b.modAge w (fun a => { a with index := b.indexAt w bin, left := b.hoursLeft w })
    let b := if fenced then (if (b.wale w).age.index ≤ 950 then b.unfence (.wale w) else b)
      else if b.reach < need then b.marginFails w
      else (b.planWale w).moveRail
    let b := (b.warnAge w).keepAge w
    if b.waleAvail w then b.modAge w (fun a => { a with calibrating := true }) else b.startRuns) s

/-! ### Commands (Tables 15.6 to 15.10) -/

/-- The lifecycle states of "Any except DECOMMISSIONED, SPENT". -/
def liveLife : List Lifecycle := [.factory, .provisioned, .deployed]

/-- The low 16 bits of a signed number. -/
def le16 (x : Int) : Bytes := le 2 (x % 65536).toNat

/-- The device state as PWR_STATUS gives it: RUN while a job is granted (log 28). -/
def Block.devState (b : Block) : DevSt :=
  match b.pwr.dev with
  | .standby => .standby
  | .starting => .starting
  | _ => if b.jobs.any Job.granted then .run else .idle

/-- PWR_STATUS. -/
def execPwrStatus (r : Req) (s : State) : Host.Outcome State Fault Refusal :=
  done (s.toBlock.command { code := 0x00A0, states := anyLife, early := true } r (fun b =>
    let p := b.pwr
    (b, .ok (le 1 b.devState.code ++ le 1 (b1 p.avsLost + 2 * b1 p.ioutHold + 4 * b1 p.derated) ++ le 2 p.rail ++ le 2 p.vout ++ le 2 p.iout ++
      le16 (Tjs.hottest p.tj) ++ le16 p.tcase ++
      (List.range 4).flatMap (fun q => let z := b.quad q
        le 1 (z.bin.val + 8 * b1 z.onNet + 16 * b1 (!z.pllRun) + 32 * b1 z.hold)) ++ le 8 b.now.toNat)))) s

/-- PWR_CFG_SET: the flash ageing region keeps it. -/
def execPwrCfgSet (r : Req) (s : State) : Host.Outcome State Fault Refusal :=
  done (s.toBlock.command { code := 0x00A1, len := exactly 4, states := liveLife } r (fun b =>
    let v := fld r.payload 0 4
    if bits v 15 0 ≠ 0 ∨ bits v 23 16 < 100 ∨ 190 < bits v 23 16 then (b, .fail St.badParam 0xD0)
    else ({ b with pwr := { b.pwr with cfg := BitVec.ofNat 32 v }, flash := { b.flash with pwrCfg := BitVec.ofNat 32 v } }, .ok []))) s

/-- PWR_CFG_GET. -/
def execPwrCfgGet (r : Req) (s : State) : Host.Outcome State Fault Refusal :=
  done (s.toBlock.command { code := 0x00A2, states := liveLife } r (fun b => (b, .ok (le 4 b.pwr.cfg.toNat)))) s

/-- Power down what standby stops (R353, R282): wales, quadrant PLLs, sources and seeders; DDR5 goes into self-refresh. -/
def Block.powerDown (b : Block) : Block :=
  let b := { b with wales := b.wales.map (fun (p : Nat × Wale) => (p.1, { p.2 with
    st := if p.2.st = .fenced then .fenced else .gated, waking := false, opmem := [], sTags := [], drbgSeeded := false, drbgWant := false,
    drbgUrgent := false, drbgSent := false })) }
  let b := (List.range 4).foldl (fun (b : Block) q =>
    (b.modQuad q (fun z => { z with pllRun := false, pllLocked := false })).modSeeder q (fun x => { x with
      st := .init, seeded := false, withheld := false, donor := none, queue := [], ts := b.now })) b
  let b := (List.range 8).foldl (fun (b : Block) i => if (b.source i).st = .fenced then b else b.stopSource i) b
  { b with rng := { b.rng with blocks := [], held := [] }, ddr := { b.ddr with selfRefresh := true }, pwr := { b.pwr with dev := .standby } }

/-- PWR_STANDBY (R353). -/
def execPwrStandby (r : Req) (s : State) : Host.Outcome State Fault Refusal :=
  done (s.toBlock.command { code := 0x00A3, states := ownedLife } r (fun b =>
    match b.slices.find? (fun x => x.2.st != .free && x.2.st != .quiesced && x.2.st != .frozen) with
    | some x => (b, .fail St.contextBusy (BitVec.ofNat 32 x.1))
    | none =>
      if b.wty.ports.toList.any (fun p => p.st == .up) || b.kst.st == .sweeping then (b, .fail St.contextBusy 0xFFFF)
      else (b.powerDown, .ok []))) s

/-- PWR_WAKE (R354): PLLs relock, sources and seeders start, the pools refill; the command is answered once the seeders deliver. A device that
is not in standby is in IDLE already. -/
def execPwrWake (r : Req) (s : State) : Host.Outcome State Fault Refusal :=
  done (s.toBlock.commandWait { code := 0x00A4, states := ownedLife } r (fun _ => none) (fun b =>
    if b.pwr.dev ≠ .standby then .inr (b, .ok [])
    else
      let b := { b with pwr := { b.pwr with dev := .idle }, ddr := { b.ddr with selfRefresh := false } }
      let b := (List.range 4).foldl (fun (b : Block) q => b.modQuad q (fun z => { z with pllRun := true })) b
      let b := b.followEnables.refill
      if b.awake then .inr (b, .ok []) else .inl b)) s

/-- PWR_BIN_SET: a bin that R365 would not allow an unfenced wale, or a rise once AVS is lost (R358), is refused. -/
def execPwrBinSet (r : Req) (s : State) : Host.Outcome State Fault Refusal :=
  done (s.toBlock.command { code := 0x00A5, len := exactly 2, states := ownedLife } r (fun b =>
    let q := fld r.payload 0 1; let n := fld r.payload 1 1
    if 3 < q ∨ 4 < n then (b, .fail St.badParam 0)
    else if !b.binFits q n || (b.pwr.avsLost && decide (n < (b.quad q).bin.val)) then (b, .fail St.badParam 0xD1)
    else
      let bin : Fin 5 := Fin.ofNat 5 n
      let want := if (b.quad q).bin = bin ∧ (b.quad q).binTo.isNone then none else some bin
      ((b.modQuad q (fun z => { z with binWant := want })).planQuad q, .ok []))) s

/-- Table 15.10. -/
def Block.ageRecord (b : Block) (w : Nat) : Bytes :=
  let a := (b.wale w).age
  let bin := (b.quad (w / 16)).bin.val
  le 2 w ++ le 2 a.index ++ le 2 a.need ++ le 2 a.target ++ le 2 (Config.vnew w bin) ++ le 1 bin ++
  le 1 (b1 (b.marginFence w) + 2 * b1 a.deferred + 4 * b1 (a.left != 0xFFFFFFFF)) ++ le 4 a.hours.toNat ++ le 4 a.left.toNat ++
  le 4 a.runKhz.toNat ++ le 8 a.lastRun.toNat

/-- AGE_STATUS: 64 records. -/
def execAgeStatus (r : Req) (s : State) : Host.Outcome State Fault Refusal :=
  done (s.toBlock.command { code := 0x00A6, states := anyLife } r (fun b => (b, .ok ((List.range 64).flatMap b.ageRecord)))) s

/-- AGE_CFG_SET. -/
def execAgeCfgSet (r : Req) (s : State) : Host.Outcome State Fault Refusal :=
  done (s.toBlock.command { code := 0x00A7, len := exactly 4, states := liveLife } r (fun b =>
    let v := fld r.payload 0 4
    if bits v 15 1 ≠ 0 then (b, .fail St.badParam 0xD0)
    else ({ b with pwr := { b.pwr with ageCfg := BitVec.ofNat 32 v }, flash := { b.flash with ageCfg := BitVec.ofNat 32 v } }, .ok []))) s

/-- AGE_CFG_GET. -/
def execAgeCfgGet (r : Req) (s : State) : Host.Outcome State Fault Refusal :=
  done (s.toBlock.command { code := 0x00A8, states := liveLife } r (fun b => (b, .ok (le 4 b.pwr.ageCfg.toNat)))) s

/-- AGE_RUN: runs of one wale or of all under R362. -/
def execAgeRun (r : Req) (s : State) : Host.Outcome State Fault Refusal :=
  done (s.toBlock.command { code := 0x00A9, len := exactly 2, states := liveLife } r (fun b =>
    let i := fld r.payload 0 2
    if 63 < i ∧ i ≠ 0xFFFF then (b, .fail St.badParam 0)
    else
      let ws := if i = 0xFFFF then List.range 64 else [i]
      ((ws.foldl (fun (b : Block) w => b.modAge w (fun a => { a with runWanted := true })) b).startRuns, .ok []))) s

end Sys2Proof.Machine
end

