-- ==== Sys2Proof/Machine/Boot.lean ====
section
/-! DEFINITION. Supplies, start-up, resets, firmware update and JTAG (chapter 16, R21, R297, R371 to R386, R397, R398, R406). -/
namespace Sys2Proof.Machine

/-- Change the start-up block. -/
def Block.modBoot (b : Block) (f : Boot → Boot) : Block := { b with boot := f b.boot }

/-! ### What a loss of supply leaves -/

/-- The battery domain has lost its contents, and watches no source (R21). -/
def Block.loseBattery (b : Block) : Block :=
  { b with bat := { supplied := b.bat.supplied, onVbat := b.bat.onVbat }, tam := { b.tam with active := 0, details := [] } }.dropCarried

/-- VDD_AON is gone: the battery domain, OTP and the boot flash remain, with the policy the battery watch goes by; a step not yet written is
pending (R297, R303, Table 16.6). -/
def Block.powerLoss (b : Block) : Block :=
  let c : Block := {
    bat := { b.bat with onVbat := true, otpPending := b.bat.otpPending + b.otp.stepDue, level := none, batch := 0, before := none }
    otp := { b.otp with stepDue := 0, tries := 0 }
    tam := { policy := b.tam.policy, shadow := b.tam.policy, lidRefs := b.tam.lidRefs, lidTj := b.tam.lidTj }
    kst := { keys := tombstones b.kst.keys, shadow := ~~~0x17F, cursor := b.kst.cursor, commits := b.kst.commits }
    boot := { slots := b.boot.slots, active := b.boot.active, trialSlot := b.boot.trialSlot, trial := b.boot.trial, trialFailed := b.boot.trialFailed }
    rng := { draws := b.rng.draws }
    dsp := { next := b.dsp.next }
    host := { perst := b.host.perst }
    flash := b.flash, link := b.link }
  if b.bat.supplied then c else { c with bat := { c.bat with onVbat := false } }.loseBattery

/-- BATTERY_SWITCH: VDD_AON has been low for 20 µs. With no cell both supplies are absent. -/
def execBatterySwitch (s : State) : Host.Outcome State Fault Refusal :=
  let b := s.toBlock
  done (if !b.boot.aonUp then b else b.powerLoss) s

/-- BATTERY_DOMAIN_LOSS. -/
def execBatteryDomainLoss (s : State) : Host.Outcome State Fault Refusal :=
  let b := s.toBlock
  done (if b.boot.aonUp then b else { b with bat := { b.bat with supplied := false, onVbat := false } }.loseBattery) s

/-! ### The core domain in reset (Tables 9.5 and 16.6) -/

/-- Every note still in its merge window is placed (R312). -/
def Block.placeMerging : Nat → Block → Block
  | 0, b => b
  | n + 1, b =>
    match firstNote b.flt.merging with
    | none => b
    | some x => Block.placeMerging n ({ b with flt := { b.flt with merging := takeOut x b.flt.merging } }.placeNote x)

/-- What a full device reset leaves of a slice (Table 9.5). -/
def Slice.afterReset (x : Slice) : Slice :=
  let st : SliceSt := match x.st with
    | .free => .free
    | .receiving => .free
    | .frozen => .frozen
    | _ => .quiesced
  { st := st, adsor := x.adsor, quota := x.quota, weight := x.weight, ceiling := x.ceiling, pasid := x.pasid, vecBase := x.vecBase,
    vecCount := x.vecCount, migPolicy := x.migPolicy, migDigest := x.migDigest, sealGen := x.sealGen, sealCtr := x.sealCeil,
    sealCeil := x.sealCeil, carried := x.carried, defTemplate := x.defTemplate, sesTemplate := x.sesTemplate,
    bucket := 4096 * x.quota.burst, replicated := x.replicated, spread := x.spread, members := x.members, replSeq := x.replSeq,
    nextObject := x.nextObject, mig := if x.st = .frozen then x.mig else {} }

/-- The ageing record as a start takes it: set points unmeasured, no run in progress. -/
def Ageing.atStart (a : Ageing) : Ageing :=
  { a with planned := none, calibrating := false, running := false, runWanted := false, deferred := false, levelBin := 0, levelNet := 0, cold := false }

/-- A DDR5 channel's fence under R199 lasts until the next full reset (R315). -/
def FenceRec.untilReset (r : FenceRec) : Bool :=
  r.kind == 0x09 && (match FUnit.ofSource r.unit with | some (.ddr _) => true | _ => false)

/-- The ports with the fenced ones in state FENCED (R326). -/
def FenceMap.ports (m : FenceMap) (l : Vector Port 4) : Vector Port 4 := l.mapIdx (fun k x => if m.has (.port k) then { x with st := .fenced } else x)

/-- The core domain in reset (a bare ALERT keeps TAM_ALARM_N low, R306): the always-on and battery domains, OTP and flash remain, and what the journal gives back. The generation of the
availability registers, the device counters and every BAR0 register are at their reset values, but SLICE_EVENT where a slice has changed its state (R211, log 141). A DDR5 channel's fence under R199 ends. -/
def Block.coreReset (b : Block) : Block :=
  let b := Block.placeMerging b.flt.merging.length b
  let f := b.flt
  let drop : Tab FenceRec := f.recs.filter (fun (p : Nat × FenceRec) => p.2.untilReset)
  let map := drop.foldl (fun (m : FenceMap) (p : Nat × FenceRec) => match FUnit.ofSource p.2.unit with | some u => m.put u false | none => m) f.fence
  let src := if b.bat.zeroised then b.slices else b.flash.slices
  let closed := decide (b.otp.lifecycle = .decommissioned ∨ b.otp.lifecycle = .spent)
  let moved := src.any (fun p => decide (p.2.afterReset.st ≠ (b.slice p.1).st)) || b.slices.any (fun p => p.2.st != .free && !src.any (fun q => q.1 == p.1))
  { now := b.now, wrapped := b.wrapped
    bat := b.bat, otp := b.otp
    tam := { b.tam with
      active := setBit b.tam.active 15 false, due := setBit b.tam.active 15 false, any := false, level := .log, halted := false,
      alarmN := b.tam.alarmN && (b.tam.level.code == 1 || b.tam.level.code == 4), batch := 0, before := none,
      shadow := b.tam.policy, haltAt := none, lineAt := none }
    flt := { f with
      halted := false, sealing := false, worst := 0, cnt := [], merging := [], tests := [], fencesDue := [], gen := 0, fence := map, shadow := map.inv,
      recs := (f.recs.filter (fun p => !drop.any (fun d => d.1 == p.1))).map (fun p => (p.1, { p.2 with seq := 0 })),
      copyDue := f.copyDue ++ drop.map (fun p => p.2.unit) }
    rng := { draws := b.rng.draws }
    kst := { st := if closed then .closed else .locked, keys := tombstones b.kst.keys, cursor := b.kst.cursor, commits := b.kst.commits,
             lag := if b.bat.zeroised then (src.map (fun p => Change.slice (Fin.ofNat 1024 p.1))) else [] }
    slices := src.map (fun (p : Nat × Slice) => (p.1, { p.2.afterReset with
      since := if p.2.afterReset.st = (b.slice p.1).st then (b.slice p.1).since else b.now, nextObject := max p.2.nextObject (b.slice p.1).nextObject }))
    dsp := { next := b.dsp.next }
    wales := (List.range 64).map (fun i => (i, { ({} : Wale) with
      st := if map.has (.wale i) || map.has (.quad (i / 16)) then .fenced else .gated, age := (b.wale i).age.atStart,
      csb := (b.wale i).csb, csbShadow := (b.wale i).csbShadow }))
    quads := (List.finRange 4).map (fun q => (q.val, { ({} : Quad) with bin := b.flash.bins[q] }))
    ddr := { objects := b.ddr.objects }
    wty := { ports := map.ports (Vector.replicate 4 {}) }
    host := { perst := b.host.perst, evtStatus := if moved then 0x10 else 0 }
    boot := { b.boot with
      coreUp := false, ready := false, rimUp := false, recovery := false, csLoaded := false, fencesDone := false, restarts := [], catGen := 0,
      custEntries := [], custImage := [], csBad := 0, pmbus := 0 }
    flash := b.flash
    pwr := { b.pwr with
      dev := .starting, avsLost := false, ioutHold := false, derated := false, retries := 0, moving := false, overSince := none, coolSince := none,
      cfg := b.flash.pwrCfg, ageCfg := b.flash.ageCfg }
    link := b.link }

/-! ### A start (R375 to R379) -/

/-- A note placed in the log at once: those that open a start (R318, R320). -/
def Block.noteNow (b : Block) (n : Note) : Block :=
  let b := b.takeNote n
  { b with flt := { b.flt with merging := takeOut n b.flt.merging } }.placeNote n

/-- The slot the ROM chooses first, and whether that boot is a trial (R376, R385). -/
def Boot.chosen (z : Boot) : Fin 2 × Bool :=
  match z.trial, z.trialSlot with
  | .pending (_ + 1), some t => (t, true)
  | .pendingCommit, some t => (t, false)
  | _, _ => (z.active, false)

/-- The check a slot fails, 0 for none: what the ROM finds, an empty slot, or a security version below the floor (R373, R374). -/
def Block.slotFails (b : Block) (f : BootFacts) (k : Fin 2) : Nat :=
  let x := b.boot.slots[k]
  let c := (if k = 0 then f.slotAFail else f.slotBFail).toNat
  if c ≠ 0 then c else if !x.valid then 1 else if x.security < b.otp.fwFloor then 2 else 0

/-- BOOT_FALLBACK. -/
def Block.fallback (b : Block) (k : Fin 2) (check : Nat) : Block := b.note (Src.device 0 0) 0x19 0 (BitVec.ofNat 32 (k.val + 256 * check))

/-- The image is verified and measured: registers 0 to 3, then 5 and 6 (Table 10.10). -/
def Block.measureImage (b : Block) (k : Fin 2) : Block :=
  let d := b.boot.slots[k].digest
  let b := (List.range 4).foldl (fun (b : Block) m => b.extend m (algBytes .image (16 + m) [d] 48) (algBytes .image (32 + m) [d] 48)) b
  b.measurePolicies.measure 6 b.otp.ownerKeyId

/-- Pending OTP steps are written before anything else; one that does not verify in three tries seals the device (R303). -/
def Block.writePending (b : Block) (ok : Bool) : Block :=
  if b.bat.otpPending = 0 then b
  else if ok then
    ({ b with otp := { b.otp with zeroCount := min 255 (b.otp.zeroCount + b.bat.otpPending) }, bat := { b.bat with otpPending := 0 } }).spend
  else b.note (Src.device 13 0) 0x17 4 (openDetail 0x17)

/-- Every unit with a bit in the fence map. -/
def allUnits : List FUnit :=
  (List.range 64).map .wale ++ (List.range 4).map .quad ++ (List.range 8).map .noise ++ (List.range 16).map .code ++ (List.range 32).map .chan ++
  (List.range 20).map .group ++ (List.range 4).map .seeder ++ (List.range 4).map .rimPort ++ (List.range 2).map .ddr ++ (List.range 4).map .port

/-- The fences of a start: those the flash keeps, in one update, at a power-up; with a fault region whose MAC fails every wale counts as
fenced, and every unit with a fence bit tests itself before the ready indication (R315, R371). A fenced source is FENCED and a fenced port stays down (R268,
R326). The update counts where it clears an availability bit (R27). -/
def Block.reapply (b : Block) (ok power : Bool) : Block :=
  let old := { b with flt := { b.flt with fence := {} } }
  let put (b : Block) (r : FenceRec) : Block :=
    match FUnit.ofSource r.unit with
    | some u => { b.setFences (b.flt.fence.put u true) with flt := { (b.setFences (b.flt.fence.put u true)).flt with
        recs := Tab.put b.flt.recs r.unit.toNat { r with seq := 0 } } }
    | none => b
  let b := if power && ok then (b.flash.fences.filter (fun (r : FenceRec) => !r.untilReset)).foldl put b else b
  let b := if ok then b else
    let b := (List.range 64).foldl (fun (b : Block) i =>
      let src := Src.waleUnit i 0
      if b.flt.fence.has (.wale i) then b else put b ⟨src, src, 0x15, 1, openDetail 0x15, 0, b.now, b.flt.boot, false⟩) b
    { b with flt := { b.flt with tests := allUnits.map FUnit.source } }
  let b := { b with
    wales := b.wales.map (fun (p : Nat × Wale) => (p.1, if b.waleAvail p.1 then p.2 else { p.2 with st := .fenced })),
    wty := { b.wty with ports := b.flt.fence.ports b.wty.ports } }
  let b := (((List.range 8).filter (fun i => b.flt.fence.has (.noise i))).foldl Block.restSource b).settleEntropy
  { Block.countAvail old b with boot := { b.boot with fencesDone := true } }

/-- Noise sources start, but for those that are fenced; the seeders are in INIT (R281). -/
def Block.startEntropy (b : Block) : Block :=
  let b := (List.range 8).foldl (fun (b : Block) i =>
    if b.flt.fence.has (.noise i) then b.restSource i
    else if b.sourceOn i then b.startSource i else b) b
  b.settleEntropy

/-- Rail and targets from the ageing plan, and the runs and calibrations of a boot (R355, R361, R362, R368, R371). -/
def Block.startAgeing (b : Block) (ok cold : Bool) : Block :=
  let b := (List.range 64).foldl (fun (b : Block) w => b.modAge w (fun a => { a with
    offset := if ok then a.offset else 175, cold := cold, calibrating := b.waleAvail w, runWanted := true, deferred := cold })) b
  let b := (List.range 64).foldl (fun (b : Block) w => if b.waleAvail w then b.modAge w (fun a => { a with
    target := b.targetAt w (b.quad (w / 16)).bin }) else b) b
  b.moveRail.startRuns

/-- Firmware sets the bounds and LOCK once after power-up (R104), and then loads both regions, the customer's empty. -/
def Wale.loadStores (x : Wale) : Wale := x.lockStores.writeMaker.writeImage []

/-- The firmware runs: WAL_CSB, control stores of the wales it can reach, catalogue, fences, rail, and the Rim is up. -/
def Block.runFirmware (b : Block) (f : BootFacts) (power : Bool) (k : Fin 2) : Block :=
  let b := b.modBoot (fun z => { z with running := k, csLoaded := true, catGen := 1, rimUp := true })
  let b := { b with wales := b.wales.map (fun (p : Nat × Wale) => (p.1, if b.storePort p.1 then p.2.loadStores else p.2)) }
  ((b.measureImage k).reapply f.faultMacOk power).startAgeing f.ageMacOk f.tjBelowZero

/-- The ROM chooses a slot; an invalid one is noted and the other boots; with none, or with a bad configuration block, the device is in recovery
(R372, R376). A trial that failed is cleared, and the boot after it notes check 6 (R385). -/
def Block.bootSlot (b : Block) (f : BootFacts) (power : Bool) : Block :=
  let ctl := if f.ctlMacOk then b.boot else { b.boot with active := 0, trial := .none, trialSlot := none, trialFailed := none }
  let ended : Option (Fin 2) := match ctl.trial, ctl.trialSlot with
    | .pending 0, some t => some t
    | _, _ => ctl.trialFailed
  let ctl := match ended with
    | some _ => { ctl with trial := .none, trialSlot := none, trialFailed := none }
    | none => ctl
  if !f.cfgOk then b.modBoot (fun z => { z with recovery := true }) else
  let b := { b with boot := ctl }
  let b := { b with boot := { b.boot with pmbus := f.pmbus }, ddr := { b.ddr with fitted := #v[1024 * f.ddr0, 1024 * f.ddr1] } }
  let b := match ended with
    | some t => b.fallback t 6
    | none => b
  let (k, trial) := b.boot.chosen
  let b := if trial then b.modBoot (fun z => { z with trial := match z.trial with | .pending n => .pending (n - 1) | t => t }) else b
  let other : Fin 2 := if k = 0 then 1 else 0
  let c := b.slotFails f k
  if c = 0 then b.runFirmware f power k else
  let b := b.fallback k c
  let b := if b.boot.trialSlot = some k then b.modBoot (fun z => { z with
      trial := .none, trialSlot := none, trialFailed := if trial then some k else z.trialFailed }) else b
  if b.slotFails f other = 0 then b.runFirmware f power other else b.modBoot (fun z => { z with recovery := true })

/-- The core domain leaves reset (R375): a start of the device. -/
def Block.startCore (b : Block) (f : BootFacts) (power : Bool) : Block :=
  let b := { b with
    bat := { b.bat with supplied := f.vbat, onVbat := false }
    flt := { b.flt with boot := b.flt.boot + 1, startSeq := nextSeq b.flt.seq }
    ddr := { b.ddr with objects := if power || !f.ddrHeld then [] else b.ddr.objects }
    tam := { b.tam with disarmed := false }
    boot := { b.boot with coreUp := true, pwrOk := true, releasedAt := b.now, interrupted := false } }
  let b := match b.bat.sealRecord with
    | some n => { (b.noteNow n) with bat := { b.bat with sealRecord := none } }
    | none => b
  let b := b.noteNow (b.noteOf { source := Src.device 4 0, kind := 0x18, cls := 0, detail := b.flt.boot })
  let b := match b.bat.xtalNote with
    | some d => { b with bat := { b.bat with xtalNote := none } }.note (Src.device 11 0) 0x33 0 d
    | none => b
  let b := { b with quads := b.quads.map (fun (p : Nat × Quad) => (p.1, { p.2 with pllRun := true })) }
  b.startEntropy.bootSlot f power

/-- The root key as a start finds it (R21, R303): an invalid one in PROVISIONED or DEPLOYED counts a step, unless one is pending or the key was
erased on main power. -/
def Block.checkRoot (b : Block) (f : BootFacts) : Block :=
  let b := if f.rootValid then b else { b with bat := { b.bat with rootKey := none } }.dropCarried
  if b.bat.rootKey.isNone && !b.bat.zeroised && b.bat.otpPending == 0 && (b.otp.lifecycle == .provisioned || b.otp.lifecycle == .deployed)
  then { b with otp := { b.otp with stepDue := b.otp.stepDue + 1 } } else b

/-- The battery log in the main log, oldest first, with time stamp 0 and flag [1] (R304). -/
def copiedLog (l : List Event) : List Event := l.map (fun e => { e with ts := 0, flags := e.flags ||| 2 })

/-- POWER_UP: VDD_AON reaches its range. Flash gives back the slices and the ageing records; the battery log is copied; pending OTP steps are
written; the core domain starts. A step that does not verify seals the device before anything starts. -/
def execPowerUp (f : BootFacts) (s : State) : Host.Outcome State Fault Refusal :=
  let b := s.toBlock
  done (
    if b.boot.aonUp then b else
    let b := { b with boot := { b.boot with aonUp := true }, tam := { b.tam with log := copiedLog b.bat.log } }
    let b := (b.checkRoot f).writePending f.otpOk
    let b := if b.bat.otpPending = 0 then b else b.sweepEnd
    if b.flt.sealed || b.flt.sealing then b else
    let b := { b with wales := (List.range 64).map (fun i => (i, { ({} : Wale) with age := (Tab.get {} b.flash.ages i : Ageing) })) }
    { b.coreReset with now := 0, wrapped := false }.startCore f true) s

/-! ### Full device reset (R380, R382) -/

/-- The three steps before the core domain is reset: the sweep ends, OTP steps are written, and, but for the watchdog, the journal takes every
pending change. -/
def Block.beforeReset (b : Block) (commit : Bool) : Block :=
  let b := b.sweepEnd
  let b := ({ b with otp := { b.otp with zeroCount := min 255 (b.otp.zeroCount + b.otp.stepDue), stepDue := 0, tries := 0 } }).spend
  if commit then (List.range b.kst.lag.length).foldl (fun (b : Block) _ => b.commitOne) b else b

/-- A full device reset and the start that follows. A sealed device takes none; PWR_OK low overrides it. -/
def Block.fullReset (b : Block) (f : BootFacts) (commit : Bool) : Block :=
  if !b.boot.aonUp || !b.boot.pwrOk || b.flt.sealed || b.boot.jtagHeld then b else
  let b := b.beforeReset commit
  if b.flt.sealed then b else (b.coreReset.checkRoot f).startCore f false

/-- BOOT_WATCHDOG: 2 s after the core release without the ready indication; a pending trial has failed. Recovery waits for its manager. -/
def execBootWatchdog (f : BootFacts) (s : State) : Host.Outcome State Fault Refusal :=
  let b := s.toBlock
  done (
    if !b.boot.coreUp || b.boot.ready || b.boot.recovery then b else
    let b := b.advanceTo b.boot.releasedAt 2000000000
    let b := b.modBoot (fun z => { z with trial := match z.trial with | .pending _ => .pending 0 | t => t })
    b.fullReset f false) s

/-- PWR_OK_FALL: the core domain in reset without a commit, T2, T5, T7 and T8 disarmed, an unwritten step pending, a sweep abandoned (R398). A seal that waited for the sweep is taken at once: only the removal of VDD_AON ends an F4 (R310). -/
def execPwrOkFall (s : State) : Host.Outcome State Fault Refusal :=
  let b := s.toBlock
  done (
    if !b.boot.pwrOk then b
    else if b.flt.sealed then b.modBoot (fun z => { z with pwrOk := false })
    else
      let b := { b with
        bat := { b.bat with otpPending := b.bat.otpPending + b.otp.stepDue }, otp := { b.otp with stepDue := 0, tries := 0 } }
      if b.flt.sealing then b.seal.modBoot (fun z => { z with pwrOk := false }) else
      let b := b.coreReset
      { b with boot := { b.boot with pwrOk := false }, tam := { b.tam with disarmed := true } }) s

/-- PWR_OK_RISE: a power-up of the core domain with VDD_AON held: the time base starts from 0 and the windows of the fault collector go on (R314), WAL_CSB is at its reset value, pending steps are
written first (R322, R398). -/
def execPwrOkRise (f : BootFacts) (s : State) : Host.Outcome State Fault Refusal :=
  let b := s.toBlock
  done (
    if !b.boot.aonUp || b.boot.pwrOk then b
    else if b.flt.sealed || b.boot.jtagHeld then b.modBoot (fun z => { z with pwrOk := true })
    else
      let b := (b.checkRoot f).writePending f.otpOk
      let b := if b.bat.otpPending = 0 then b else b.sweepEnd
      if b.flt.sealed || b.flt.sealing then b else
      let c := b.coreReset
      { c with
        now := 0, wrapped := false,
        flt := { c.flt with
          counted := c.flt.counted.map (fun (x : W16 × Byte × W64) => (x.1, x.2.1, x.2.2 - c.now)), kept := c.flt.kept.map (fun (x : W16 × Byte × W64) => (x.1, x.2.1, x.2.2 - c.now)) },
        wales := c.wales.map (fun (p : Nat × Wale) => (p.1, { p.2 with csb := 0x01803000, csbShadow := ~~~0x01803000 })) }.startCore f false) s

/-- SYS_RESET_N. -/
def execSysResetN (f : BootFacts) (s : State) : Host.Outcome State Fault Refusal := done (s.toBlock.fullReset f true) s

/-- PERST_N: a full device reset; while the device is sealed, of the PCIe endpoint alone. Asserted during a boot it holds the core in reset until
its release (R380). -/
def execPerstN (f : BootFacts) (s : State) : Host.Outcome State Fault Refusal :=
  let b := s.toBlock
  done (
    let low (b : Block) : Block := { b with host := { b.host with perst := true, configured := false } }
    if b.flt.sealed then { b with host := { perst := true } }
    else if b.boot.coreUp && !b.boot.ready then
      let b := b.beforeReset true
      if b.flt.sealed then { b with host := { perst := true } } else
      let b := b.coreReset
      low (b.modBoot (fun z => { z with interrupted := true }))
    else low (b.fullReset f true)) s

/-- PERST_N_RELEASE: an interrupted boot starts again; the endpoint answers configuration requests. -/
def execPerstNRelease (f : BootFacts) (s : State) : Host.Outcome State Fault Refusal :=
  let b := s.toBlock
  done (
    let b := { b with host := { b.host with perst := false, configured := b.host.perst || b.host.configured } }
    if b.boot.interrupted && b.boot.pwrOk && !b.flt.sealed && !b.boot.jtagHeld then (b.checkRoot f).startCore f false
    else b.modBoot (fun z => { z with interrupted := false })) s

/-! ### During a start -/

/-- DDR5_TRAINING_END: a channel that fails is fenced with an F1 note. -/
def execDdr5TrainingEnd (c : Fin 2) (ok : Bool) (s : State) : Host.Outcome State Fault Refusal :=
  let b := s.toBlock
  done (
    if !b.boot.coreUp || b.ddr.fitted[c] == 0 || b.ddr.trained[c] then b
    else if ok then { b with ddr := { b.ddr with trained := b.ddr.trained.set c true } }
    else b.note (Src.device 7 c) 0x15 1 (openDetail 0x15)) s

/-- JOURNAL_READ_END: after a zeroisation the store starts empty under a new root key; with no valid root key, an older epoch or an
unreadable journal it is ZEROISED (the latter two with an F2 note); else it is rebuilt and UNLOCKED, the policies come from the journal, and the
next ceiling of every sealing counter, which resumed at its last, is to be committed (R245). In FACTORY it stays LOCKED. -/
def execJournalReadEnd (epoch : W64) (readable : Bool) (s : State) : Host.Outcome State Fault Refusal :=
  let b := s.toBlock
  let empty (b : Block) : Block := { b with
    kst := { b.kst with st := .zeroised, keys := tombstones b.kst.keys, policy := 0x17F, shadow := ~~~0x17F }, bat := { b.bat with zeroised := true } }
  done (
    if b.kst.st != .locked || !b.boot.rimUp || b.boot.ready || (b.otp.lifecycle != .provisioned && b.otp.lifecycle != .deployed) then b
    else if b.bat.zeroised then { (empty b) with kst := { (empty b).kst with rootDue := true }, flash := b.flash.eraseJournal }.rootIfDue
    else if b.bat.rootKey.isNone then empty b
    else if readable && (!b.flash.written || epoch.toNat == b.counter 0) then
      let b' := ((b.slices.map (fun p => Change.slice (Fin.ofNat 1024 p.1))).foldl Block.change b.restoreStore).followEnables
      if b'.kst.policy = b.kst.policy ∧ b'.tam.policy = b.tam.policy ∧ b'.wty.fzPolicy = b.wty.fzPolicy then b' else b'.measurePolicies
    else (empty b).note (Src.device 2 0) 0x11 2 (openDetail 0x11)) s

/-- The sources in alarm at a start take their responses again, T15 where a shadowed register still differs from its copy (R290). -/
def Block.evaluate (b : Block) : Block :=
  let b := match allShadowed.find? (fun r => !b.shadowOk r) with
    | some r => if b.tam.active.getLsbD 15 then b else
        { b with tam := { b.tam with due := setBit b.tam.due 15 true, details := Tab.put b.tam.details 15 (shadowDetail r) } }
    | none => b
  (List.finRange 16).foldl (fun (b : Block) (t : TamperId) =>
    if b.tam.due.getLsbD t then
      { b with tam := { b.tam with due := setBit b.tam.due t false } }.tamperAlarm t (Tab.get 0 b.tam.details t)
    else b) b

/-- Does an unfused source at HALT or above stay in alarm? -/
def Block.heldHalted (b : Block) : Bool :=
  (List.range 16).any (fun t => b.tam.active.getLsbD t && !b.otp.fused.getLsbD t && decide (2 ≤ (b.respOf t).code))

/-- Do the conditions of R377 hold? In FACTORY, and where the store is CLOSED, it need not leave LOCKED. -/
def Block.startMet (b : Block) : Bool :=
  b.boot.coreUp && b.boot.rimUp && b.boot.csLoaded && b.boot.fencesDone && b.flt.tests.isEmpty &&
  (b.kst.st != .locked || b.otp.lifecycle == .factory) && !b.heldHalted &&
  ((List.range 4).any b.delivers || decide (20000000 ≤ b.elapsed b.boot.releasedAt))

/-- READY_INDICATION: the tamper sources are evaluated; DEV_READY goes high where R377 allows it, a trial becomes PENDING_COMMIT, and the Lid's LFSR
takes its seed. -/
def execReadyIndication (s : State) : Host.Outcome State Fault Refusal :=
  let b := s.toBlock
  done (
    if !b.boot.rimUp || b.boot.ready then b else
    let b := b.evaluate
    if !b.startMet then b else
    let b := b.modBoot (fun z => { z with
      ready := true, trial := match z.trial with | .pending _ => .pendingCommit | t => t })
    let b := { b with pwr := { b.pwr with dev := .idle } }
    let b := match b.drawDevice 8 with
      | some (d, b) => { b with bat := { b.bat with lfsr := BitVec.ofNat 64 (ofLe d) } }
      | none => b
    b.refill) s

/-! ### FLR and Rim restart (R383, R384) -/

/-- Every job of every slice ends without a record, and what it held is returned or wiped; a neighbour whose job ran here gets ABORTED. -/
def Block.dropJobs (b : Block) : Block :=
  let b := Block.failJobs (b.jobsWhere (fun j => j.remote.isSome)) St.aborted 0 b
  let b := b.jobs.foldl (fun (b : Block) (j : Job) =>
    let b := ((if j.useHeld then b.returnUse j else b).releaseCtr j)
    let b := match j.forwardTo with
      | some p => b.sendFrame p "abort" (le 8 j.id)
      | none => b
    Block.wipeAll j.wales b) b
  { b with
    jobs := [], dsp := { next := b.dsp.next }, kst := { b.kst with waits := [] },
    quads := b.quads.map (fun (p : Nat × Quad) => (p.1, { p.2 with
      spills := [], mem := [], memS := [], codeHeld := Vector.replicate 4 none, records := [], lost := {}, stale := {}, lockCnt := {}, lockTo := {} })),
    ddr := { b.ddr with writes := [] },
    chans := b.chans.map (fun (p : Nat × Chan) => (p.1, { ({} : Chan) with
      xfer := (p.2.xfer.filter (fun x => !x.asked.isEmpty)).map (fun x => { x with pieces := [] }) })) }

/-- Does an FLR move a slice to QUIESCED (R383)? -/
def Slice.flrMoves (x : Slice) : Bool := x.st == .active || x.st == .quiescing

/-- What an FLR leaves of a slice. -/
def Slice.afterFlr (now : W64) (x : Slice) : Slice :=
  { x with
    st := if x.flrMoves then .quiesced else x.st, since := if x.flrMoves then now else x.since, tdi := .unlocked, sq := Vector.replicate 8 {}, cq := Vector.replicate 8 {},
    err := {}, mbx := {}, ctr := {}, forced := false }

/-- FLR: jobs end without records, DMA drains, ACTIVE and QUIESCING slices are QUIESCED, TDIs unlocked, EXPIRE_AT_RESET keys are tombstones (Table 16.6),
BAR0 registers, PCIe configuration and MSI-X at their reset values. With a WEDGED slice it is a full device reset. The event of a slice that moves is set after the registers are reset (log 141); FLT_STATUS.WORST stays (log 168). -/
def execFlr (f : BootFacts) (s : State) : Host.Outcome State Fault Refusal :=
  let b := s.toBlock
  done (
    if !b.boot.coreUp || b.flt.sealed then b
    else if b.slices.any (fun p => p.2.st == .wedged) then b.fullReset f true
    else
      let moved := b.slices.any (fun p => p.2.flrMoves)
      let b := b.dropJobs
      let b := { b with
        slices := b.slices.map (fun (p : Nat × Slice) => (p.1, p.2.afterFlr b.now)), nowHi := 0, admin := {},
        kst := { b.kst with keys := expireKeys b.kst.keys }, flt := { b.flt with cnt := [], gen := 0 },
        host := { doe := b.host.doe, mctp := b.host.mctp, ide := b.host.ide, perst := b.host.perst, flrAt := some b.now } }
      let b := if moved then b.event 4 else b
      if b.pwr.dev ≠ .standby then b.refill else
      let b := { b with pwr := { b.pwr with dev := .idle }, ddr := { b.ddr with selfRefresh := false },
                        quads := b.quads.map (fun (p : Nat × Quad) => (p.1, { p.2 with pllRun := true })) }
      b.followEnables.refill) s

/-- FLR_TIMEOUT: a wale still wiping or a channel still draining 90 ms after the FLR makes it a full device reset. -/
def execFlrTimeout (f : BootFacts) (s : State) : Host.Outcome State Fault Refusal :=
  let b := s.toBlock
  done (match b.host.flrAt with
    | none => b
    | some t =>
      if (List.range 64).any (fun i => (b.wale i).st == .wiping) || (List.range 32).any (fun c => (b.chan c).xfer.isSome)
      then (b.advanceTo t 90000000).fullReset f true
      else { b with host := { b.host with flrAt := none } }) s

/-- RIM_RESTART: busy mailboxes answer ABORTED, digest contexts return to IDLE, SPDM sessions are lost; a digest that differs or a third restart in
10 min is a full device reset, else RIM_UP sets again. -/
def execRimRestart (digestOk : Bool) (f : BootFacts) (s : State) : Host.Outcome State Fault Refusal :=
  let b := s.toBlock
  done (
    if !b.boot.coreUp || b.boot.recovery || b.flt.sealed then b else
    let b := b.rimStops
    let b := b.modBoot (fun z => { z with restarts := b.now :: z.restarts.filter (fun t => decide (b.elapsed t ≤ 600000000000)) })
    if !digestOk ∨ 3 ≤ b.boot.restarts.length then b.fullReset f true
    else b.modBoot (fun z => { z with rimUp := true })) s

/-! ### Firmware update (R385, Table 16.7) -/

/-- The slot that is not active. -/
def Boot.other (z : Boot) : Fin 2 := if z.active = 0 then 1 else 0
/-- Is a slot PENDING_COMMIT? -/
def Boot.toCommit (z : Boot) : Bool := z.trial == .pendingCommit

/-- A code for the trial state and its count (the layout of FW_STATUS is assumption log 24). -/
def Trial.bytes : Trial → Bytes
  | .none => [0, 0]
  | .pending n => [1, BitVec.ofNat 8 n]
  | .pendingCommit => [2, 0]

/-- FW_STATUS: per slot valid, firmware version and security version; active slot; trial state and count; floor. A slot below the floor is
invalid. -/
def execFwStatus (r : Req) (s : State) : Host.Outcome State Fault Refusal :=
  done (s.toBlock.command { code := 0x00B0, states := anyLife, early := true, recovery := true } r (fun b =>
    (b, .ok (b.boot.slots.toList.flatMap (fun x =>
        le 1 (b1 (x.valid && decide (b.otp.fwFloor ≤ x.security))) ++ le 4 x.version.toNat ++ le 4 x.security) ++
      le 1 b.boot.active.val ++ b.boot.trial.bytes ++ le 1 b.otp.fwFloor)))) s

/-- The checks of R373 and R374 on an image; the Detail of a failed header or digest is not stated (log 29). -/
def Block.imageRefused (b : Block) (p : Bytes) : Option (W16 × W32) :=
  let lens := (List.range 4).map (fun i => fld p (0x10 + 4 * i) 4)
  let l := lens.headD 0
  let rest := (lens.drop 1).foldl (fun a x => a + x) 0
  let other : W32 := BitVec.ofNat 32 (Config.freeNat 27 p.length)
  firstFail [
    (fld p 0 4 != 0x57464957 || fld p 4 2 != 1 || fld p 6 2 != 0x100 || !allZero (sub p 0xB0 80) || decide (64 < fld p 0xC 4) ||
      p.length != 0x100 + l + rest + 4723, St.inputInvalid, other),
    (!Config.ask .makerSigOk 0 [p], St.inputInvalid, 0xE1),
    (sha384 (sub p 0x100 l) != sub p 0x20 48 || sha384 (sub p (0x100 + l) rest) != sub p 0x50 48, St.inputInvalid, other),
    (decide (fld p 0xC 4 < b.otp.fwFloor), St.inputInvalid, 0xE2)]

/-- FW_WRITE: to the slot that is neither active nor on trial; with none, CONTEXT_BUSY. -/
def execFwWrite (r : Req) (s : State) : Host.Outcome State Fault Refusal :=
  done (s.toBlock.command { code := 0x00B1, states := ownedLife, recovery := true, len := fun n => decide (n ≤ 67108864), most := 67108864 } r (fun b =>
    match b.imageRefused r.payload with
    | some (st, d) => (b, .fail st d)
    | none =>
      if b.boot.trialSlot.isSome then (b, .fail St.contextBusy 0)
      else
        let x : FwSlot := { valid := true, version := BitVec.ofNat 32 (fld r.payload 8 4), security := fld r.payload 0xC 4, digest := sha384 r.payload }
        (b.modBoot (fun z => { z with slots := z.slots.set z.other x }), .ok []))) s

/-- FW_ACTIVATE. -/
def execFwActivate (r : Req) (s : State) : Host.Outcome State Fault Refusal :=
  done (s.toBlock.command { code := 0x00B2, states := ownedLife } r (fun b =>
    if b.boot.toCommit then (b, .fail St.contextBusy 0)
    else (b.modBoot (fun z => { z with trialSlot := some z.other, trial := .pending 3 }), .ok []))) s

/-- FW_COMMIT: the slot becomes active and the floor rises to its security version. -/
def execFwCommit (r : Req) (s : State) : Host.Outcome State Fault Refusal :=
  done (s.toBlock.command { code := 0x00B3, states := ownedLife } r (fun b =>
    match b.boot.toCommit, b.boot.trialSlot with
    | true, some t =>
      let b := b.modBoot (fun z => { z with active := t, trial := .none, trialSlot := none })
      ({ b with otp := { b.otp with fwFloor := max b.otp.fwFloor b.boot.slots[t].security } }, .ok [])
    | _, _ => (b, .fail St.contextBusy 0))) s

/-- FW_REVERT: before commit, the trial is cleared. -/
def execFwRevert (r : Req) (s : State) : Host.Outcome State Fault Refusal :=
  done (s.toBlock.command { code := 0x00B4, states := ownedLife } r (fun b =>
    (b.modBoot (fun z => { z with trial := .none, trialSlot := none }), .ok []))) s

/-- DEV_RESET: a full device reset once the response is written. -/
def execDevReset (r : Req) (f : BootFacts) (s : State) : Host.Outcome State Fault Refusal :=
  let c : Cmd := { code := 0x00B5, states := anyLife, recovery := true }
  let b := s.toBlock
  done (
    b.taken c r (fun b => match b.refuses c r none with
      | some (st, d) => b.reply r c.code (.fail st d)
      | none => (b.reply r c.code (.ok [])).fullReset f true)) s

/-! ### JTAG (R406) -/

/-- BYPASS; every code the device does not know acts as it. -/
def execBypass (s : State) : Host.Outcome State Fault Refusal := done (s.toBlock.modBoot (fun z => { z with jtagIr := .bypass })) s

/-- IDCODE, by stepping. -/
def execIdcode (s : State) : Host.Outcome State Fault Refusal :=
  let b := s.toBlock
  done ((b.modBoot (fun z => { z with jtagIr := .idcode })).emit (.jtag (if b.otp.stepping = 0xB0 then 0xB57405D3 else 0xC57405D3))) s

/-- SAMPLE/PRELOAD: the boundary chain, outside the block. -/
def execSamplePreload (s : State) : Host.Outcome State Fault Refusal := done (s.toBlock.modBoot (fun z => { z with jtagIr := .samplePreload })) s

/-- EXTEST or HIGHZ in PROVISIONED and DEPLOYED: first a full device reset, and the core domain stays in reset. -/
def Block.jtagHold (b : Block) (ir : JtagIr) : Block :=
  if b.otp.lifecycle ≠ .provisioned ∧ b.otp.lifecycle ≠ .deployed then b.modBoot (fun z => { z with jtagIr := ir })
  else if b.flt.sealed then b.modBoot (fun z => { z with jtagIr := ir })
  else if !b.boot.coreUp then b.modBoot (fun z => { z with jtagIr := ir, jtagHeld := true })
  else
    let b := b.beforeReset true
    if b.flt.sealed then b.modBoot (fun z => { z with jtagIr := ir })
    else b.coreReset.modBoot (fun z => { z with jtagIr := ir, jtagHeld := true })

/-- EXTEST. -/
def execExtest (s : State) : Host.Outcome State Fault Refusal := done (s.toBlock.jtagHold .extest) s

/-- HIGHZ. -/
def execHighz (s : State) : Host.Outcome State Fault Refusal := done (s.toBlock.jtagHold .highz) s

/-- TRST_N, or TAP reset: a held core domain is released. -/
def execTrstN (f : BootFacts) (s : State) : Host.Outcome State Fault Refusal :=
  let b := s.toBlock
  done (
    let held := b.boot.jtagHeld
    let b := b.modBoot (fun z => { z with jtagIr := .idcode, jtagHeld := false })
    if held && b.boot.pwrOk && b.boot.aonUp && !b.flt.sealed && !b.boot.interrupted then (b.checkRoot f).startCore f false else b) s

end Sys2Proof.Machine
end

