-- ==== Sys2Proof/Machine/Control.lean ====
section
/-! DEFINITION. The microwords that act on a job: grant and release (R118, R119), declassification (R82, R94, R111), the KSTORE, DRAW
and EMIT fields of a nanoword (Tables 5.6, R113), and the run of a customer microprogram (R126, R131). -/
namespace Sys2Proof.Machine

/-! ### Grant (Table 5.9) -/

/-- An object to place: its length, how much of it the operand memory holds, whether it names an object, its bytes and its tag. -/
structure Placed where
  len : Nat
  held : Nat := len
  valid : Bool := true
  bytes : Bytes := []
  secret : Bool := false

/-- Place objects on consecutive slots (R77). -/
def placeAll (slot : Nat) : List Placed → Nat → Mem × List Nat → (Mem × List Nat) × List Obj
  | [], _, acc => (acc, [])
  | p :: r, base, (m, t) =>
    if p.valid then
      let span := roundUp p.held slot / slot
      let m := m.writeAll (base * slot) (p.bytes.take p.held)
      let t := if p.secret then addTags t ((List.range span).map (base + ·)) else t
      let (acc, l) := placeAll slot r (base + span) (m, t)
      (acc, { base := base, span := span, len := p.len, valid := true } :: l)
    else
      let (acc, l) := placeAll slot r base (m, t)
      (acc, {} :: l)

/-- The key a job loads over the key path: the secret half for class 2 and for a customer entry, else the public half. -/
def Job.material (j : Job) : Bytes := if j.entry.customer || j.entry.cls.val == 2 then j.keyObj.secret else j.keyObj.pub

/-- No more than `room` bytes of objects lie in operand memory: the figure of Table 4.10 covers them all (R414, log 138). -/
def within : Nat → List Placed → List Placed
  | _, [] => []
  | room, p :: r =>
    let k := if p.valid then min p.held room else 0
    { p with held := k } :: within (room - k) r

/-- The objects a job places at grant: input (a streamed message in its window of 4 KiB behind the fixed fields, R413), output work area, key,
parameter block, scratch. The large public keys of Classic McEliece lie in quadrant shared memory (R62). -/
def Job.objects (j : Job) : List Placed :=
  let big (n : Nat) : Nat := if j.entry.qmem != 0 && decide (65536 < n) then 0 else n
  within (j.entry.opmem * 1024) <|
  [{ len := j.desc.inLen, held := big (min j.desc.inLen (j.fixed + 4096)), secret := j.entry.secretIn,
     bytes := j.input.take j.fixed ++ windowBytes (j.input.drop j.fixed) },
   { len := j.entry.maxOut, held := big j.entry.maxOut },
   { len := j.material.length, valid := j.entry.takesKey && j.desc.handle != 0, bytes := j.material, secret := true },
   { len := paramLen j.entry j.desc, valid := j.entry.takesParam, bytes := j.param }] ++
  (List.range (min 12 j.entry.scratch)).map (fun _ => { len := j.entry.scratchLen })

/-- The state of a sequencer at the start of a run (Table 5.9): `drawn` and `decisions` of an earlier run stay with it. -/
def Wale.begin (x : Wale) (j : Job) (now : W64) (first : Option (Bytes × Option Bytes × W16 × W32)) (replay : Bytes) (recorded : List Bool) : Wale :=
  let ((m, t), os) := placeAll x.slotBytes j.objects 0 ([], [])
  let g : Vector W64 16 := Vector.replicate 16 0
  let g := (((g.set 0 (BitVec.ofNat 64 j.desc.inLen)).set 1 (BitVec.ofNat 64 j.desc.outCap)).set 2 j.desc.inline).set 3 (BitVec.ofNat 64 j.desc.aux)
  { x with
    opmem := m, sTags := t, second := first.isSome, runAt := now,
    micro := {
      pc := if j.entry.customer then j.entry.address else BitVec.ofNat 14 (Config.freeNat 6 j.entry.opcode.toNat % 0x3000),
      customer := j.entry.customer, issuing := true, g := g, o := Vector.ofFn (fun i => os[i.val]?.getD {}),
      first := first, replay := replay, recorded := recorded } }

/-- A wale in WAIT_WORK whose granted job runs begins its microprogram. -/
def Block.startWork (b : Block) (w : WaleId) : Block :=
  let x := b.wale w
  match x.job.bind b.job with
  | none => b
  | some j =>
    if x.st == .running && j.phase == .running && !x.micro.issuing && x.micro.released.isNone && x.spells w (.waitWork w) then
      b.modWale w (fun y => y.begin j b.now none [] [])
    else b

/-- WAIT_WORK: the wale stays in state 2 until its job has all its inputs, then continues at the catalogue entry (R118). -/
def execWaitWork (w : WaleId) (s : State) : Host.Outcome State Fault Refusal := done (s.toBlock.startWork w) s

/-- CUSTOMER_ENTRY: the wales of a customer job with its inputs in their slots begin the registered microprogram (R131). -/
def execCustomerEntry (id : Nat) (s : State) : Host.Outcome State Fault Refusal :=
  let b := s.toBlock
  done (match b.job id with
    | none => b
    | some j => if j.entry.customer then j.wales.foldl Block.startWork b else b) s

/-! ### Release (R119, R93, R95) -/

/-- What a run presents. -/
def Wale.presents (x : Wale) : Bytes × Option Bytes × W16 × W32 :=
  let r := x.micro.released.getD (0, 0)
  (x.micro.emitted, x.micro.kstore, r.1, r.2)

/-- The result of a run as its job presents it: a KSTORE key becomes a session key whose handle replaces the Detail (Table 5.6). -/
def Block.runResult (b : Block) (j : Job) (p : Bytes × Option Bytes × W16 × W32) : JobResult :=
  { status := p.2.2.1, detail := p.2.2.2, out := p.1,
    effects := match p.2.1 with
      | some k => [.createKey (b.sessionKey j.slice k) true]
      | none => [] }

/-- Has a part's every wale released, a preempted part not being there? -/
def Block.partReleased (b : Block) (j : Job) (p : Nat) : Bool :=
  !(b.partWales j.id p).isEmpty && (b.partWales j.id p).all (fun w => (b.wale w).micro.released.isSome)

/-- What a part presents: what its wales present alike, nothing where they differ. -/
def Block.partPresents (b : Block) (j : Job) (p : Nat) : Option (Bytes × Option Bytes × W16 × W32) :=
  match b.partWales j.id p with
  | [] => none
  | w :: r => if r.all (fun i => (b.wale i).presents = (b.wale w).presents) then some (b.wale w).presents else none

/-- A wale has released: each part is compared on its own wales, and unequal presentations are a mismatch (R93, R48); a part that ends with another
status than SUCCESS ends the job, and once every part has released, what part 0 has assembled passes on (R150). A time-redundant job's first run
is kept and run again with the same drawn values (R95). -/
def Block.settleRelease (b : Block) (j : Job) : Block :=
  match j.wales with
  | [] => b
  | w :: r =>
    let x := b.wale w
    if j.timeRed then
      (if (w :: r).any (fun i => (b.wale i).micro.released.isNone) then b else
      match x.micro.first with
      | none => b.modWale w (fun y => y.begin j b.now (some y.presents) y.micro.drawn y.micro.decisions)
      | some p => if p = x.presents ∧ x.micro.recorded = x.micro.decisions then b.present j.id (b.runResult j p) else b.redundancy j [w] 3)
    else
      let parts := (List.range (max 1 j.width)).filter (b.partReleased j)
      match parts.find? (fun p => (b.partPresents j p).isNone) with
      | some p => b.redundancy j (b.partWales j.id p) 1
      | none =>
        match (parts.filterMap (b.partPresents j)).find? (fun y => y.2.2.1 != St.success) with
        | some y => b.present j.id (b.runResult j y)
        | none =>
          if parts.length < max 1 j.width then b else
          match b.partPresents j 0 with
          | some y => b.present j.id (b.runResult j y)
          | none => b

/-- RELEASE: the status is G[15:0] and the Detail G[47:16]; from an S register it is a machine check. -/
def execRelease (w : WaleId) (g : Reg) (s : State) : Host.Outcome State Fault Refusal :=
  let b := s.toBlock.micro w (.release w g) (fun x => do
    check (x.regS g) 0x103
    .ok { x with micro := { x.micro with issuing := false, released := some ((x.reg g).setWidth 16, ((x.reg g) >>> 16).setWidth 32) } })
  done (match (b.wale w).job.bind b.job with
    | some j => if (s.toBlock.wale w).micro.released.isNone && (b.wale w).micro.released.isSome then b.settleRelease j else b
    | none => b) s

/-! ### Declassification (R94, R111) -/

/-- Does a decision differ from the one that the first run of a time-redundant job recorded at the same DBT? -/
def Wale.decidesElse (x : Wale) (d : Bool) : Bool := x.second && x.micro.recorded[x.micro.decisions.length]? != some d

/-- A wale branches on its declassified decision, which it records. -/
def Wale.takeDecision (x : Wale) (f : Reg) (t : BitVec 14) (d : Bool) : Except W32 Wale :=
  let y := x.setFlag f d false
  Wale.branch { y with micro := { y.micro with decisions := y.micro.decisions ++ [d], presented := none } } d t

/-- Both wales of a pair branch on the decision they agreed on. -/
def Block.decideBoth (b : Block) (l w : WaleId) (f : Reg) (t : BitVec 14) (d : Bool) : Block :=
  match (b.wale l).takeDecision f t d, (b.wale w).takeDecision f t d with
  | .ok x, .ok y => (b.modWale l (fun _ => { x with micro := { x.micro with field := 0, held := none } })).modWale w (fun _ => y.issued true)
  | .error e, _ => b.machineCheck l e
  | _, .error e => b.machineCheck w e

/-- DBT: on a pair the lead presents its decision and holds, its partner presents its own behind it, and after the comparator has found them equal
(`agree`) both branch; unequal decisions end the job with REDUNDANCY_MISMATCH, Detail 2, or 3 in a second run (R94, R111). Maker only. -/
def execDbt (w : WaleId) (f : Reg) (t : BitVec 14) (agree : Bool) (s : State) : Host.Outcome State Fault Refusal :=
  let b := s.toBlock
  let x := b.wale w
  let d := x.flag f
  done (
    if !b.issues w || x.micro.customer then b else
    match x.fetchFault, x.job.bind b.job with
    | some e, _ => b.machineCheck w e
    | none, none => b
    | none, some j =>
      if !x.spells w (.dbt w f t agree) then b else
      match b.partnerOf w with
      | none =>
        if x.decidesElse d || (!agree && x.second) then b.redundancy j [w] 3
        else b.micro w (.dbt w f t agree) (fun y => y.takeDecision f t d)
      | some p =>
        if x.lead then b.modWale w (fun y => { y with micro := { y.micro with presented := some d, count := y.micro.count + 1 } })
        else match (b.wale p).micro.presented with
          | none => b
          | some e => if agree && e == d then b.decideBoth p w f t d else b.redundancy j [p, w] 2) s

/-! ### KSTORE, DRAW, EMIT (Table 5.6) -/

/-- A length or offset register; an S value is a machine check (R81). -/
def Wale.addrReg (x : Wale) (r : Reg) : Except W32 Nat := do
  check (x.regS r) 0x102
  .ok (x.reg r).toNat

/-- Does an entry permit a result key (R119): a customer entry by its flag, a maker entry whose operation makes a key (log 149)? -/
def Job.permitsKey (j : Job) : Bool := if j.entry.customer then j.entry.kstore else makesKey j.op j.desc

/-- KSTORE: the object becomes the job's result key; an entry that permits none is a machine check (R119). -/
def execKstore (w : WaleId) (o : Reg) (nx : Nx) (s : State) : Host.Outcome State Fault Refusal :=
  let b := s.toBlock
  let ok := match (b.wale w).job.bind b.job with
    | some j => j.permitsKey
    | none => false
  done (b.micro w (.kstore w o nx) (fun x => do
    let ob ← x.named o
    check (!ok) 0x103
    x.inSpan ob 0 ob.len
    Wale.after nx { x with micro := { x.micro with kstore := some (x.load ob 0 ob.len) } })) s

/-- The value a DRAW gets: what the first run or another wale of the job, of its pair or of another part, has drawn at the same place, else the next
bytes of the stream (R34, R48, R95). -/
def Block.drawFor (b : Block) (w : WaleId) (n : Nat) : Bytes × Bool :=
  let x := b.wale w
  let k := x.micro.drawn.length
  let mates : List WaleId := ((x.job.bind b.job).map (fun j => j.wales.filter (fun i : WaleId => i != w))).getD []
  let src := if x.second then x.micro.replay else
    match mates.find? (fun (i : WaleId) => decide (k + n ≤ (b.wale i).micro.drawn.length)) with
    | some i => (b.wale i).micro.drawn
    | none => []
  if k + n ≤ src.length then (sub src k n, false) else (b.draw n, true)

/-- DRAW: G[length] bytes over the seed line into the object at G[offset]; the slots become S. It waits while the seeder serves nothing
(R275). -/
def execDraw (w : WaleId) (o : Reg) (off : Reg) (len : Reg) (nx : Nx) (s : State) : Host.Outcome State Fault Refusal :=
  let b := s.toBlock
  let n := ((b.wale w).during.reg len).toNat % 2 ^ 20
  let (d, fresh) := b.drawFor w n
  let q := w.val / 16
  let b' := b.micro w (.draw w o off len nx) (fun x => do
    let ob ← x.named o
    let a ← x.addrReg off
    let l ← x.addrReg len
    check (decide (ob.len < a + l)) 0x10E
    x.inSpan ob a l
    let x := x.store ob a d true
    Wale.after nx { x with micro := { x.micro with drawn := x.micro.drawn ++ d } })
  let ran := b.issues w && decide ((b.wale w).micro.drawn.length < (b'.wale w).micro.drawn.length)
  done (
    if b.issues w && fresh && !b.serves q then b
    else if ran && fresh then b'.seedDraw q n
    else b') s

/-- EMIT: append bytes of the object to the job's output; past the object's end or the output capacity it is a machine check (R113). -/
def execEmit (w : WaleId) (o : Reg) (off : Reg) (len : Reg) (nx : Nx) (s : State) : Host.Outcome State Fault Refusal :=
  let b := s.toBlock
  let cap := ((((b.wale w).job.bind b.job).map (·.desc.outCap)).getD 0)
  done (b.micro w (.emit w o off len nx) (fun x => do
    let ob ← x.named o
    let a ← x.addrReg off
    let l ← x.addrReg len
    check (decide (ob.len < a + l) || decide (cap < x.micro.emitted.length + l)) 0x10E
    x.inSpan ob a l
    Wale.after nx { x with micro := { x.micro with emitted := x.micro.emitted ++ x.load ob a l } })) s

end Sys2Proof.Machine
end

