-- ==== Sys2Proof/Machine/Frames.lean ====
section
/-! DEFINITION. The frame that a write of GO submits (R185 to R187), the register writes, and what the bucket's refill lets go on (R204). -/
namespace Sys2Proof.Machine

/-- What a start finds, where no command carries it: open (log 4). -/
def freeBoot (k : Nat) : BootFacts :=
  let f (i : Nat) : Nat := Config.freeNat (60 + i) k
  { cfgOk := bit (f 0) 0, pmbus := BitVec.ofNat 7 (f 1), ddr0 := f 2, ddr1 := f 3, ctlMacOk := bit (f 4) 0, faultMacOk := bit (f 5) 0,
    ageMacOk := bit (f 6) 0, slotAFail := BitVec.ofNat 8 (f 7), slotBFail := BitVec.ofNat 8 (f 8), rootValid := bit (f 9) 0,
    ddrHeld := bit (f 10) 0, vbat := bit (f 11) 0, otpOk := bit (f 12) 0, tjBelowZero := bit (f 13) 0 }

/-- The request in a mailbox's window (Tables 7.13 and 7.14): its command code and its fields. What a DMA payload holds lies in host memory:
open bytes (log 142). -/
def Block.frame (b : Block) (x : Option SliceId) : W16 × Req :=
  let w := (b.box x).window.readAll 0 2048
  let p := w.drop 16
  let dma := bit (fld w 1 1) 1
  let len := fld w 8 4
  let bad := fld w 1 1 / 4 + fld w 6 2 + fld w 12 4 + (if dma then fld p 0xC 4 + fld p 0x1C 4 else 0)
  (BitVec.ofNat 16 (fld w 2 2), {
    box := x, version := BitVec.ofNat 8 (fld w 0 1), dma := dma, reserved := if bad = 0 then 0 else 1, seq := BitVec.ofNat 16 (fld w 4 2),
    payload := if dma then b.anyBytes (fld p 8 4) else p.take len, declared := len, reqAddr := BitVec.ofNat 64 (fld p 0 8),
    respAddr := BitVec.ofNat 64 (fld p 0x10 8), respCap := fld p 0x18 4, readFault := none })

/-- The admin mailbox's commands by code (Table 7.15): the outcome of a request, none for an unknown code. A read-back of a CS_LOAD is taken as
good, captured samples and a start's findings are open (log 142). -/
def served (code : Nat) (r : Req) (s : State) : Option (Host.Outcome State Fault Refusal) :=
  match code with
  | 0x0001 => some (execGetVersion r s)
  | 0x0002 => some (execCatQuery r s)
  | 0x0010 => some (execWalCfgRead r s)
  | 0x0011 => some (execWalCfgWrite r s)
  | 0x0012 => some (execWalStatRead r s)
  | 0x0013 => some (execWalCsbRead r s)
  | 0x0020 => some (execCsLoad r 0 s)
  | 0x0021 => some (execCsUnload r s)
  | 0x0030 => some (execSliceCreate r s)
  | 0x0031 => some (execSliceDestroy r s)
  | 0x0032 => some (execSliceQuery r s)
  | 0x0033 => some (execSliceSetQuota r s)
  | 0x0034 => some (execSliceSetSched r s)
  | 0x0035 => some (execSliceSetVectors r s)
  | 0x0036 => some (execSliceBindPasid r s)
  | 0x0037 => some (execSliceQuiesce r s)
  | 0x0038 => some (execSliceResume r s)
  | 0x0039 => some (execSliceCounters r s)
  | 0x0040 => some (execMigPrepare r s)
  | 0x0041 => some (execMigSave r s)
  | 0x0042 => some (execMigRestore r s)
  | 0x0043 => some (execMigAbandon r s)
  | 0x0044 => some (execMigCommit r s)
  | 0x0045 => some (execMigUnfreeze r s)
  | 0x0046 => some (execMigCancel r s)
  | 0x0050 => some (execLcState r s)
  | 0x0051 => some (execLcProvision r s)
  | 0x0052 => some (execLcChallenge r s)
  | 0x0053 => some (execLcTransition r s)
  | 0x0054 => some (execKstStatus r s)
  | 0x0055 => some (execKstPolicySet r s)
  | 0x0056 => some (execKstPolicyGet r s)
  | 0x0057 => some (execDevKeyCreate r s)
  | 0x0058 => some (execDevKeyGrant r s)
  | 0x0059 => some (execDevKeyDelete r s)
  | 0x005A => some (execMeasExtend r s)
  | 0x0060 => some (execRngStatus r s)
  | 0x0061 => some (execRngCfgSet r s)
  | 0x0062 => some (execRngCfgGet r s)
  | 0x0063 => some (execRngRetest r s)
  | 0x0064 => some (execRngRawCapture r (s.toBlock.draw 8192) s)
  | 0x0065 => some (execRngTestPattern r s)
  | 0x0070 => some (execTamPolicyGet r s)
  | 0x0071 => some (execTamPolicySet r s)
  | 0x0072 => some (execTamFuseDisable r s)
  | 0x0073 => some (execTamStickyClear r s)
  | 0x0074 => some (execTamLogRead r s)
  | 0x0075 => some (execTamLidRead r s)
  | 0x0076 => some (execTamAck r s)
  | 0x0077 => some (execTamLidCal r s)
  | 0x0080 => some (execFltLogRead r s)
  | 0x0081 => some (execFltLogClear r s)
  | 0x0082 => some (execFltFenceRead r s)
  | 0x0083 => some (execFltUnfence r s)
  | 0x0084 => some (execFltFence r s)
  | 0x0090 => some (execWtyStatus r s)
  | 0x0091 => some (execWtyPlanSet r s)
  | 0x0092 => some (execWtyPortCfg r s)
  | 0x0093 => some (execWtyTimeCfg r s)
  | 0x0094 => some (execWtyMemberAdmit r s)
  | 0x0095 => some (execWtyFzPolicySet r s)
  | 0x0096 => some (execWtyFzPolicyGet r s)
  | 0x0097 => some (execWtySliceJoin r s)
  | 0x0098 => some (execWtySliceLeave r s)
  | 0x0099 => some (execWtyTakeover r s)
  | 0x00A0 => some (execPwrStatus r s)
  | 0x00A1 => some (execPwrCfgSet r s)
  | 0x00A2 => some (execPwrCfgGet r s)
  | 0x00A3 => some (execPwrStandby r s)
  | 0x00A4 => some (execPwrWake r s)
  | 0x00A5 => some (execPwrBinSet r s)
  | 0x00A6 => some (execAgeStatus r s)
  | 0x00A7 => some (execAgeCfgSet r s)
  | 0x00A8 => some (execAgeCfgGet r s)
  | 0x00A9 => some (execAgeRun r s)
  | 0x00B0 => some (execFwStatus r s)
  | 0x00B1 => some (execFwWrite r s)
  | 0x00B2 => some (execFwActivate r s)
  | 0x00B3 => some (execFwCommit r s)
  | 0x00B4 => some (execFwRevert r s)
  | 0x00B5 => some (execDevReset r (freeBoot s.rng.draws) s)
  | 0x0100 => some (execMeasRead r s)
  | 0x0101 => some (execAttestQuote r s)
  | 0x0102 => some (execAttestKey r s)
  | 0x0103 => some (execCertChain r s)
  | 0x0108 => some (execDigInit r s)
  | 0x0109 => some (execDigUpdate r s)
  | 0x010A => some (execDigFinal r s)
  | 0x010B => some (execDigSave r s)
  | 0x010C => some (execDigRestore r s)
  | 0x0120 => some (execMigPolicySet r s)
  | 0x0121 => some (execMigPolicyGet r s)
  | 0x0122 => some (execSliceState r s)
  | _ => none

/-- Serve a request: a code that Table 7.15 does not list is BAD_OPCODE (R187). -/
def Block.serveFrame (b : Block) (code : W16) (r : Req) : Block :=
  match served code.toNat r { toBlock := b } with
  | some (.next t) => t.toBlock
  | _ => b.command { code := code, admin := false } r (fun b => (b, .ok []))

/-- GO: the frame in the window is submitted; while BUSY or without the Rim it is ignored (R185). -/
def Block.go (b : Block) (x : Option SliceId) : Block :=
  if !b.takesGo x then b else
  let (code, r) := b.frame x
  (if r.dma then b.drew r.payload.length else b).serveFrame code r

/-- Write four bytes of BAR0; MBX_CTRL takes GO. -/
def Block.writeBar0Go (b : Block) (o : Nat) (v : W32) : Block :=
  if o = 0x1000 then (if v.getLsbD 0 then b.go none else b) else b.writeBar0 o v

/-- Write four bytes of a slice page; its MBX_CTRL takes GO. -/
def Block.writePageGo (b : Block) (s : SliceId) (o : Nat) (v : W32) : Block :=
  if o = 0x800 then (if v.getLsbD 0 then b.go (some s) else b) else b.writePage s o v

/-- REGISTER_WRITE. An offset that is not a multiple of four names no register. -/
def execRegisterWrite (a : RegAddr) (wide : Bool) (v : W64) (s : State) : Host.Outcome State Fault Refusal :=
  let b := s.toBlock
  let lo : W32 := v.setWidth 32
  let hi : W32 := (v >>> 32).setWidth 32
  done (
    match a with
    | .cfg r => if b.takesWrites then b.writeCfg r lo else b
    | .bar0 o =>
      let o := o.toNat
      if !b.takesWrites || o % 4 ≠ 0 then b
      else if wide then (b.writeBar0Go o lo).writeBar0Go (o + 4) hi else b.writeBar0Go o lo
    | .bar2 o =>
      let s' : SliceId := Fin.ofNat 1024 (o.toNat / 8192)
      let o := o.toNat % 8192
      if !b.takesWrites || o % 4 ≠ 0 then b
      else if wide then (if o < 0x040 then b else (b.writePageGo s' o lo).writePageGo s' (o + 4) hi) else b.writePageGo s' o lo) s

/-- A mailbox that waited for tokens goes on: with the reads of its request's payload, after which the command is served, or with the writes of
its response. -/
def Block.resumeBox (b : Block) (sl : SliceId) : Block :=
  let x : Option SliceId := some sl
  let m := b.box x
  if b.muted x then b else
  match m.toRead, m.toWrite, m.cmd with
  | some (a, n), _, some r =>
    let (b, a, n) := Block.boxReads x (n + 1) a n b
    if n ≠ 0 then b.modBox x (fun m => { m with toRead := some (a, n) })
    else (b.modBox x (fun m => { m with busy := false, toRead := none, fetched := true })).serveFrame m.code r
  | none, some (a, d, f), _ => b.sendReply x a d f
  | _, _, _ => b

/-- TOKEN_BUCKET_REFILL: at a microsecond of the time base, B ← min(B + 16 × RATE, BURST × 4,096), and what waited for tokens goes on: the slice's
data requests, the reads of its gather lists, its mailbox (R204). -/
def execTokenBucketRefill (sl : SliceId) (s : State) : Host.Outcome State Fault Refusal :=
  let b := s.toBlock
  let q := (b.slice sl).quota
  let b := b.modSlice sl (fun x => { x with bucket := min (x.bucket + 16 * (q.rate : Int)) ((q.burst : Int) * 4096) })
  let b := (List.range 32).foldl (fun (b : Block) c =>
    match (b.chan c).xfer with
    | some x => if x.slice = sl then b.resumeXfer c else b
    | none => b) b
  let b := (b.jobsWhere (fun j => j.inSlice sl && j.phase == .walking)).foldl Block.askEntry b
  done (b.resumeBox sl) s

end Sys2Proof.Machine
end

