-- ==== Sys2Proof/Machine/HashEngines.lean ====
section
/-! DEFINITION. The four hash engines of a wale (R85, R112, R116, Table 5.8). The image of the absorbed bytes is what the standard of
the mode gives (log 2); an operation is issued to each engine of the mask, engine 0 first (log 13). -/
namespace Sys2Proof.Machine

/-- Change every engine of a mask. -/
def Wale.eachHash (w : Wale) (mask : BitVec 4) (f : HashEng → HashEng) : Wale :=
  { w with micro := { w.micro with hash := w.micro.hash.mapIdx (fun i h => if mask.getLsbD i then f h else h) } }

/-- Run every engine of a mask: each draws 64 fresh bits from the wale DRBG at the start of each permutation it makes (R85). -/
def Wale.runHash (w : Wale) (mask : BitVec 4) (f : HashEng → HashEng) : Wale :=
  let n := ((List.finRange 4).map (fun i => (f w.micro.hash[i]).permutations - (w.micro.hash[i]).permutations)).zipIdx.foldl
    (fun a p => if mask.getLsbD p.2 then a + p.1 else a) 0
  { w.eachHash mask f with drbgOut := w.drbgOut + 8 * n }

/-- The engines of a mask, in rising order. -/
def engines (mask : BitVec 4) : List (Fin 4) := (List.finRange 4).filter (fun i => mask.getLsbD i)

/-- The length register of a hash operation: an S value is an address from S data; a length beyond the object is the check 0x10E. -/
def Wale.hashLen (w : Wale) (o : Obj) (r : Reg) : Except W32 Nat := do
  check (w.regS r) 0x102
  check (decide (o.len < (w.reg r).toNat)) 0x10E
  .ok (w.reg r).toNat

/-- `n` bytes of an engine's output from its squeeze position on. -/
def HashEng.output (h : HashEng) (n : Nat) : Bytes :=
  (algBytes .hash (h.mode + 32 * b1 h.padded) [h.data] (h.out + n)).drop h.out

/-- INIT: the engine's mode is set and its state and state taint cleared. Mode values 1 to 8 name SHAKE128 to SHA-512. -/
def execInit (w : WaleId) (h : HashF) (mode : Fin 8) (nx : Nx) (s : State) : Host.Outcome State Fault Refusal :=
  done (s.toBlock.micro w (.init w h mode nx) (fun x => (x.eachHash h.mask (fun _ => { mode := mode.val + 1 })).after nx)) s

/-- ABSORB the first G[length] bytes of the input object. -/
def execAbsorb (w : WaleId) (h : HashF) (nx : Nx) (s : State) : Host.Outcome State Fault Refusal :=
  done (s.toBlock.micro w (.absorb w h nx) (fun x => do
    let o ← x.named h.inp
    let n ← x.hashLen o h.len
    x.inSpan o 0 n
    (x.runHash h.mask (fun e => { e with data := e.data ++ x.load o 0 n, taint := e.taint || x.bytesS o 0 n })).after nx)) s

/-- FINAL: apply the padding of the mode. -/
def execFinal (w : WaleId) (h : HashF) (nx : Nx) (s : State) : Host.Outcome State Fault Refusal :=
  done (s.toBlock.micro w (.final w h nx) (fun x => (x.runHash h.mask (fun e => { e with padded := true })).after nx)) s

/-- SQUEEZE G[length] bytes of output into the output object; S where the engine's state is S (log 13: the state that counts is the engine's own,
and no order of ABSORB, FINAL and SQUEEZE is checked). -/
def execSqueeze (w : WaleId) (h : HashF) (nx : Nx) (s : State) : Host.Outcome State Fault Refusal :=
  done (s.toBlock.micro w (.squeeze w h nx) (fun x => do
    let o ← x.named h.out
    let n ← x.hashLen o h.len
    x.inSpan o 0 n
    let x' := (engines h.mask).foldl (fun (y : Wale) i => y.store o 0 ((x.micro.hash[i]).output n) (x.micro.hash[i]).taint) x
    (x'.runHash h.mask (fun e => { e with out := e.out + n })).after nx)) s

end Sys2Proof.Machine
end

