-- ==== Sys2Proof/Machine/Lattice.lean ====
section
/-! DEFINITION. The lattice engine of a wale (R83, R84, R112, R116, Table 5.8). A polynomial is n coefficients of 32 bits, least
significant byte first, at its number within the object; results are canonical, in [0, q). The transforms, the base-case product,
compression, sampling and encoding have the values of their standards (log 2); parameter ranges are log 12. -/
namespace Sys2Proof.Machine

/-- The modulus a q value selects. -/
def latMod : Nat → Nat
  | 0 => 3329 | 1 => 8380417 | _ => 12289

/-- The modulus of a LAT field. -/
def latModOf (l : LatF) : Nat := latMod l.q.toNat

/-- The degree an n value selects. -/
def latDeg (l : LatF) : Nat := 256 * 2 ^ l.n.toNat

/-- Bits of a coefficient: 12, 23 and 14 for the three moduli. -/
def latWidth (l : LatF) : Nat := Nat.log2 (latModOf l) + 1

/-- A source: object, index register, and the bytes each number of it takes. -/
structure LatSrc where
  obj : Reg
  idx : Reg
  size : Nat
deriving DecidableEq, Repr

/-- The coefficients of a polynomial. -/
def coeffs : Nat → Bytes → List Nat
  | 0, _ => []
  | n + 1, b => ofLe (b.take 4) :: coeffs n (b.drop 4)

/-- A polynomial's bytes from its coefficients modulo q. -/
def polyBytes (q : Nat) (c : List Nat) : Bytes := (c.map (fun x => le 4 (x % q))).flatten

/-- Read a source operand: a valid object, an index that is P, no S slot at order 0 (R84), and an access within its span. -/
def Wale.latRead (w : Wale) (s : LatSrc) : Except W32 (Bytes × Bool) := do
  let o ← w.named s.obj
  check (w.regS s.idx) 0x102
  let off := (w.reg s.idx).toNat * s.size
  w.inSpan o off s.size
  check (w.order == 0 && w.bytesS o off s.size) 0x105
  .ok (w.load o off s.size, w.bytesS o off s.size)

/-- Write a result operand. -/
def Wale.latWrite (w : Wale) (s : LatSrc) (d : Bytes) (tag : Bool) : Except W32 Wale := do
  let o ← w.named s.obj
  check (w.regS s.idx) 0x102
  let off := (w.reg s.idx).toNat * s.size
  w.inSpan o off s.size
  .ok (w.store o off d tag)

/-- The values 3 of q and n are reserved (R112). -/
def latLegal (l : LatF) : Except W32 Unit := check (l.q == 3 || l.n == 3) 0x10C

/-- A polynomial operand of n coefficients. -/
def latPoly (l : LatF) (o i : Reg) : LatSrc := ⟨o, i, 4 * (latDeg l)⟩

/-- D from the polynomial A. -/
def latUnary (l : LatF) (nx : Nx) (f : Bytes → Bytes) (w : Wale) : Except W32 Wale := do
  latLegal l
  let (a, sa) ← w.latRead (latPoly l l.a l.ia)
  let w ← w.latWrite (latPoly l l.d l.id) (f a) sa
  w.after nx

/-- D from the polynomials A and B. -/
def latBinary (l : LatF) (nx : Nx) (f : Bytes → Bytes → Bytes) (w : Wale) : Except W32 Wale := do
  latLegal l
  let (a, sa) ← w.latRead (latPoly l l.a l.ia)
  let (b, sb) ← w.latRead (latPoly l l.b l.ib)
  let w ← w.latWrite (latPoly l l.d l.id) (f a b) (sa || sb)
  w.after nx

/-- A parameter from the index register B: an S value is an address from S data, a value out of its range the check 0x10E (R116). -/
def Wale.latParam (w : Wale) (l : LatF) (ok : Nat → Bool) : Except W32 Nat := do
  check (w.regS l.ib) 0x102
  check (!ok (w.reg l.ib).toNat) 0x10E
  .ok (w.reg l.ib).toNat

/-- A result of an outside standard as a polynomial: free values reduced modulo q (log 2). -/
def latFree (l : LatF) (op p : Nat) (args : List Bytes) : Bytes :=
  polyBytes (latModOf l) (coeffs (latDeg l) (algBytes .lattice (op + 32 * p) (le 1 l.q.toNat :: le 1 l.n.toNat :: args) (4 * (latDeg l))))

/-- Coefficient by coefficient, modulo q. -/
def latZip (l : LatF) (f : Nat → Nat → Nat) (a b : Bytes) : Bytes :=
  polyBytes (latModOf l) (List.zipWith (fun x y => f (x % (latModOf l)) (y % (latModOf l))) (coeffs (latDeg l) a) (coeffs (latDeg l) b))

/-- NTT of A into D. -/
def execNtt (w : WaleId) (l : LatF) (nx : Nx) (s : State) : Host.Outcome State Fault Refusal :=
  done (s.toBlock.micro w (.ntt w l nx) (latUnary l nx (fun a => latFree l 1 0 [a]))) s

/-- Inverse NTT of A into D. -/
def execIntt (w : WaleId) (l : LatF) (nx : Nx) (s : State) : Host.Outcome State Fault Refusal :=
  done (s.toBlock.micro w (.intt w l nx) (latUnary l nx (fun a => latFree l 2 0 [a]))) s

/-- D ← A + B. -/
def execLatAdd (w : WaleId) (l : LatF) (nx : Nx) (s : State) : Host.Outcome State Fault Refusal :=
  done (s.toBlock.micro w (.latAdd w l nx) (latBinary l nx (latZip l (fun x y => x + y)))) s

/-- D ← A − B. -/
def execLatSub (w : WaleId) (l : LatF) (nx : Nx) (s : State) : Host.Outcome State Fault Refusal :=
  done (s.toBlock.micro w (.latSub w l nx) (latBinary l nx (latZip l (fun x y => x + ((latModOf l) - y))))) s

/-- MULP: the pointwise product with B public. -/
def execMulp (w : WaleId) (l : LatF) (nx : Nx) (s : State) : Host.Outcome State Fault Refusal :=
  done (s.toBlock.micro w (.mulp w l nx) (latBinary l nx (latZip l (fun x y => x * y)))) s

/-- MULM: the pointwise product with both operands masked. -/
def execMulm (w : WaleId) (l : LatF) (nx : Nx) (s : State) : Host.Outcome State Fault Refusal :=
  done (s.toBlock.micro w (.mulm w l nx) (latBinary l nx (latZip l (fun x y => x * y)))) s

/-- BASEMUL: q = 3329 only; another legal q is the check 0x10E (log 12). -/
def execBasemul (w : WaleId) (l : LatF) (nx : Nx) (s : State) : Host.Outcome State Fault Refusal :=
  done (s.toBlock.micro w (.basemul w l nx) (fun x => do
    latLegal l
    check (l.q != 0) 0x10E
    latBinary l nx (fun a b => latFree l 7 0 [a, b]) x)) s

/-- A2B: the shares change form, the value they stand for stays. -/
def execA2b (w : WaleId) (l : LatF) (nx : Nx) (s : State) : Host.Outcome State Fault Refusal :=
  done (s.toBlock.micro w (.a2b w l nx) (latUnary l nx (fun a => a))) s

/-- B2A: the shares change form, the value they stand for stays. -/
def execB2a (w : WaleId) (l : LatF) (nx : Nx) (s : State) : Host.Outcome State Fault Refusal :=
  done (s.toBlock.micro w (.b2a w l nx) (latUnary l nx (fun a => a))) s

/-- COMPRESS with d = G[index register B]. -/
def execCompress (w : WaleId) (l : LatF) (nx : Nx) (s : State) : Host.Outcome State Fault Refusal :=
  done (s.toBlock.micro w (.compress w l nx) (fun x => do
    let d ← x.latParam l (fun d => decide (1 ≤ d) && decide (d < (latWidth l)))
    latUnary l nx (fun a => latFree l 0x0A d [a]) x)) s

/-- DECOMPRESS with d = G[index register B]. -/
def execDecompress (w : WaleId) (l : LatF) (nx : Nx) (s : State) : Host.Outcome State Fault Refusal :=
  done (s.toBlock.micro w (.decompress w l nx) (fun x => do
    let d ← x.latParam l (fun d => decide (1 ≤ d) && decide (d < (latWidth l)))
    latUnary l nx (fun a => latFree l 0x0B d [a]) x)) s

/-- CBD: centred binomial sample with η = G[index register B] from n·η/4 bytes of hash output in A. -/
def execCbd (w : WaleId) (l : LatF) (nx : Nx) (s : State) : Host.Outcome State Fault Refusal :=
  done (s.toBlock.micro w (.cbd w l nx) (fun x => do
    latLegal l
    let eta ← x.latParam l (fun e => e == 2 || e == 3)
    let (a, sa) ← x.latRead ⟨l.a, l.ia, (latDeg l) * eta / 4⟩
    let x ← x.latWrite (latPoly l l.d l.id) (latFree l 0x0C eta [a]) sa
    x.after nx)) s

/-- ENCODE with width = G[index register B]: n·width/8 bytes. -/
def execEncode (w : WaleId) (l : LatF) (nx : Nx) (s : State) : Host.Outcome State Fault Refusal :=
  done (s.toBlock.micro w (.encode w l nx) (fun x => do
    latLegal l
    let k ← x.latParam l (fun k => decide (1 ≤ k) && decide (k ≤ (latWidth l)))
    let (a, sa) ← x.latRead (latPoly l l.a l.ia)
    let x ← x.latWrite ⟨l.d, l.id, (latDeg l) * k / 8⟩ (algBytes .lattice (0x0D + 32 * k) [le 1 l.q.toNat, a] ((latDeg l) * k / 8)) sa
    x.after nx)) s

/-- DECODE with width = G[index register B] from n·width/8 bytes. -/
def execDecode (w : WaleId) (l : LatF) (nx : Nx) (s : State) : Host.Outcome State Fault Refusal :=
  done (s.toBlock.micro w (.decode w l nx) (fun x => do
    latLegal l
    let k ← x.latParam l (fun k => decide (1 ≤ k) && decide (k ≤ (latWidth l)))
    let (a, sa) ← x.latRead ⟨l.a, l.ia, (latDeg l) * k / 8⟩
    let x ← x.latWrite (latPoly l l.d l.id) (latFree l 0x0E k [a]) sa
    x.after nx)) s

/-- The infinity norm of a polynomial modulo q: the largest distance of a coefficient from a multiple of q. -/
def infNorm (q : Nat) (c : List Nat) : Nat := c.foldl (fun m x => max m (min (x % q) (q - x % q))) 0

/-- NORMCHK: flag ← (infinity norm of A ≥ G[index register B]). -/
def execNormchk (w : WaleId) (l : LatF) (nx : Nx) (s : State) : Host.Outcome State Fault Refusal :=
  done (s.toBlock.micro w (.normchk w l nx) (fun x => do
    latLegal l
    let bound ← x.latParam l (fun k => decide (k ≤ (latModOf l)))
    let (a, sa) ← x.latRead (latPoly l l.a l.ia)
    (x.setFlag l.flag (decide (bound ≤ infNorm (latModOf l) (coeffs (latDeg l) a))) sa).after nx)) s

/-- REMASK: the shares of A are refreshed, its value stays. -/
def execRemask (w : WaleId) (l : LatF) (nx : Nx) (s : State) : Host.Outcome State Fault Refusal :=
  done (s.toBlock.micro w (.remask w l nx) (fun x => do
    latLegal l
    let (_, _) ← x.latRead (latPoly l l.a l.ia)
    x.after nx)) s

/-- UNIFORM: a rejection-free uniform sample modulo q from the hash output in A (the whole object: log 12). -/
def execUniform (w : WaleId) (l : LatF) (nx : Nx) (s : State) : Host.Outcome State Fault Refusal :=
  done (s.toBlock.micro w (.uniform w l nx) (fun x => do
    latLegal l
    let o ← x.named l.a
    check (x.order == 0 && x.objS o) 0x105
    x.inSpan o 0 o.len
    let x' ← x.latWrite (latPoly l l.d l.id) (latFree l 0x11 0 [x.load o 0 o.len]) (x.objS o)
    x'.after nx)) s

end Sys2Proof.Machine
end

