-- ==== Sys2Proof/Machine/Scalar.lean ====
section
/-! DEFINITION. The scalar unit of a wale (Table 5.8, SALU) with the taints of Table 5.10. -/
namespace Sys2Proof.Machine

/-- MOV. -/
def execMov (w : WaleId) (d a : Reg) (nx : Nx) (s : State) : Host.Outcome State Fault Refusal :=
  done (s.toBlock.micro w (.mov w d a nx) (fun x => (x.setReg d (x.reg a) (x.regS a)).after nx)) s

/-- MOVI: the immediate, zero-extended; the result is P. -/
def execMovi (w : WaleId) (d : Reg) (imm : BitVec 10) (nx : Nx) (s : State) : Host.Outcome State Fault Refusal :=
  done (s.toBlock.micro w (.movi w d imm nx) (fun x => (x.setReg d (imm.setWidth 64) false).after nx)) s

/-- MOVS: destination shifted left by 10, OR the immediate; the destination keeps its taint. -/
def execMovs (w : WaleId) (d : Reg) (imm : BitVec 10) (nx : Nx) (s : State) : Host.Outcome State Fault Refusal :=
  done (s.toBlock.micro w (.movs w d imm nx) (fun x => (x.setReg d ((x.reg d <<< 10) ||| imm.setWidth 64) (x.regS d)).after nx)) s

/-- ADD, modulo 2^64. -/
def execAdd (w : WaleId) (d a b : Reg) (nx : Nx) (s : State) : Host.Outcome State Fault Refusal :=
  done (s.toBlock.micro w (.add w d a b nx) (fun x => (x.setReg d (x.reg a + x.reg b) (x.regS a || x.regS b)).after nx)) s

/-- SUB, modulo 2^64. -/
def execSub (w : WaleId) (d a b : Reg) (nx : Nx) (s : State) : Host.Outcome State Fault Refusal :=
  done (s.toBlock.micro w (.sub w d a b nx) (fun x => (x.setReg d (x.reg a - x.reg b) (x.regS a || x.regS b)).after nx)) s

/-- AND. -/
def execAnd (w : WaleId) (d a b : Reg) (nx : Nx) (s : State) : Host.Outcome State Fault Refusal :=
  done (s.toBlock.micro w (.and w d a b nx) (fun x => (x.setReg d (x.reg a &&& x.reg b) (x.regS a || x.regS b)).after nx)) s

/-- OR. -/
def execOr (w : WaleId) (d a b : Reg) (nx : Nx) (s : State) : Host.Outcome State Fault Refusal :=
  done (s.toBlock.micro w (.or w d a b nx) (fun x => (x.setReg d (x.reg a ||| x.reg b) (x.regS a || x.regS b)).after nx)) s

/-- XOR. -/
def execXor (w : WaleId) (d a b : Reg) (nx : Nx) (s : State) : Host.Outcome State Fault Refusal :=
  done (s.toBlock.micro w (.xor w d a b nx) (fun x => (x.setReg d (x.reg a ^^^ x.reg b) (x.regS a || x.regS b)).after nx)) s

/-- SHL by B[5:0]. -/
def execShl (w : WaleId) (d a b : Reg) (nx : Nx) (s : State) : Host.Outcome State Fault Refusal :=
  done (s.toBlock.micro w (.shl w d a b nx) (fun x => (x.setReg d (x.reg a <<< ((x.reg b).toNat % 64)) (x.regS a || x.regS b)).after nx)) s

/-- SHR by B[5:0]. -/
def execShr (w : WaleId) (d a b : Reg) (nx : Nx) (s : State) : Host.Outcome State Fault Refusal :=
  done (s.toBlock.micro w (.shr w d a b nx) (fun x => (x.setReg d (x.reg a >>> ((x.reg b).toNat % 64)) (x.regS a || x.regS b)).after nx)) s

/-- ADDI. -/
def execAddi (w : WaleId) (d a : Reg) (imm : BitVec 10) (nx : Nx) (s : State) : Host.Outcome State Fault Refusal :=
  done (s.toBlock.micro w (.addi w d a imm nx) (fun x => (x.setReg d (x.reg a + imm.setWidth 64) (x.regS a)).after nx)) s

/-- CMPEQ. -/
def execCmpeq (w : WaleId) (f a b : Reg) (nx : Nx) (s : State) : Host.Outcome State Fault Refusal :=
  done (s.toBlock.micro w (.cmpeq w f a b nx) (fun x => (x.setFlag f (x.reg a == x.reg b) (x.regS a || x.regS b)).after nx)) s

/-- CMPLT, unsigned. -/
def execCmplt (w : WaleId) (f a b : Reg) (nx : Nx) (s : State) : Host.Outcome State Fault Refusal :=
  done (s.toBlock.micro w (.cmplt w f a b nx) (fun x => (x.setFlag f (decide (x.reg a < x.reg b)) (x.regS a || x.regS b)).after nx)) s

/-- SEL: allowed on an S flag, since it does not branch. -/
def execSel (w : WaleId) (d f a b : Reg) (nx : Nx) (s : State) : Host.Outcome State Fault Refusal :=
  done (s.toBlock.micro w (.sel w d f a b nx) (fun x =>
    (x.setReg d (if x.flag f then x.reg a else x.reg b) (x.flagS f || x.regS a || x.regS b)).after nx)) s

/-- LDW: 64-bit word G[B] of an object, least significant byte first (R7); the result takes the tag of its slot. -/
def execLdw (w : WaleId) (d o b : Reg) (nx : Nx) (s : State) : Host.Outcome State Fault Refusal :=
  done (s.toBlock.micro w (.ldw w d o b nx) (fun x => do
    let ob ← x.named o
    check (x.regS b) 0x102
    let off := 8 * (x.reg b).toNat
    x.inSpan ob off 8
    (x.setReg d (BitVec.ofNat 64 (ofLe (x.load ob off 8))) (x.bytesS ob off 8)).after nx)) s

/-- STW: store source A into word G[B] of an object; the whole slot becomes S if A is S. -/
def execStw (w : WaleId) (a o b : Reg) (nx : Nx) (s : State) : Host.Outcome State Fault Refusal :=
  done (s.toBlock.micro w (.stw w a o b nx) (fun x => do
    let ob ← x.named o
    check (x.regS b) 0x102
    let off := 8 * (x.reg b).toNat
    x.inSpan ob off 8
    (x.store ob off (le 8 (x.reg a).toNat) (x.regS a)).after nx)) s

/-- OBJLEN: the length of an object in bytes; the result is P. -/
def execObjlen (w : WaleId) (d o : Reg) (nx : Nx) (s : State) : Host.Outcome State Fault Refusal :=
  done (s.toBlock.micro w (.objlen w d o nx) (fun x => do
    let ob ← x.named o
    (x.setReg d (BitVec.ofNat 64 ob.len) false).after nx)) s

end Sys2Proof.Machine
end

