-- ==== Sys2Proof/Machine/Dispatch.lean ====
section
/-! DEFINITION. The commands dispatched to their meanings, one arm for each constructor. -/
namespace Sys2Proof.Machine

/-- The effect of a command on everything but the queue. -/
def exec (i : Instr) (s : State) : Host.Outcome State Fault Refusal :=
  match i with
  | .sqTailDoorbell sl n v => Sys2Proof.Machine.execSqTailDoorbell sl n v s
  | .cqHeadDoorbell sl n v => Sys2Proof.Machine.execCqHeadDoorbell sl n v s
  | .sqEnable sl n cfg => Sys2Proof.Machine.execSqEnable sl n cfg s
  | .sqDisable sl n => Sys2Proof.Machine.execSqDisable sl n s
  | .cqEnable sl n cfg => Sys2Proof.Machine.execCqEnable sl n cfg s
  | .cqDisable sl n => Sys2Proof.Machine.execCqDisable sl n s
  | .dblErrClear sl => Sys2Proof.Machine.execDblErrClear sl s
  | .descriptorFetch sl n r => Sys2Proof.Machine.execDescriptorFetch sl n r s
  | .ownRetry sl n r => Sys2Proof.Machine.execOwnRetry sl n r s
  | .gatherEntryRead j b r => Sys2Proof.Machine.execGatherEntryRead j b r s
  | .grant w => Sys2Proof.Machine.execGrant w s
  | .promotion j => Sys2Proof.Machine.execPromotion j s
  | .reservation j => Sys2Proof.Machine.execReservation j s
  | .preemption j => Sys2Proof.Machine.execPreemption j s
  | .microTrap w => Sys2Proof.Machine.execMicroTrap w s
  | .spillEnd w => Sys2Proof.Machine.execSpillEnd w s
  | .wipeEnd w readsZero => Sys2Proof.Machine.execWipeEnd w readsZero s
  | .waleWakeEnd w => Sys2Proof.Machine.execWaleWakeEnd w s
  | .gateDelay w => Sys2Proof.Machine.execGateDelay w s
  | .coldDelay w => Sys2Proof.Machine.execColdDelay w s
  | .pllStop q => Sys2Proof.Machine.execPllStop q s
  | .pllLock q => Sys2Proof.Machine.execPllLock q s
  | .pllLockLoss q => Sys2Proof.Machine.execPllLockLoss q s
  | .compareEnd j v => Sys2Proof.Machine.execCompareEnd j v s
  | .cycleLimit w => Sys2Proof.Machine.execCycleLimit w s
  | .levellerOutOfBand w => Sys2Proof.Machine.execLevellerOutOfBand w s
  | .lockRequest q r t beats => Sys2Proof.Machine.execLockRequest q r t beats s
  | .lockTimeout q t => Sys2Proof.Machine.execLockTimeout q t s
  | .csScrub w nano addr upset => Sys2Proof.Machine.execCsScrub w nano addr upset s
  | .csReloadEnd w ok => Sys2Proof.Machine.execCsReloadEnd w ok s
  | .snop w => Sys2Proof.Machine.execSnop w s
  | .jmp w t => Sys2Proof.Machine.execJmp w t s
  | .call w t => Sys2Proof.Machine.execCall w t s
  | .ret w => Sys2Proof.Machine.execRet w s
  | .rpt w => Sys2Proof.Machine.execRpt w s
  | .bt w f t => Sys2Proof.Machine.execBt w f t s
  | .bf w f t => Sys2Proof.Machine.execBf w f t s
  | .ldli w l imm => Sys2Proof.Machine.execLdli w l imm s
  | .ldlg w l g => Sys2Proof.Machine.execLdlg w l g s
  | .djnz w l t => Sys2Proof.Machine.execDjnz w l t s
  | .jmpx w g t => Sys2Proof.Machine.execJmpx w g t s
  | .waitWork w => Sys2Proof.Machine.execWaitWork w s
  | .release w g => Sys2Proof.Machine.execRelease w g s
  | .drain w => Sys2Proof.Machine.execDrain w s
  | .dbt w f t agree => Sys2Proof.Machine.execDbt w f t agree s
  | .dslot w o => Sys2Proof.Machine.execDslot w o s
  | .kstore w o nx => Sys2Proof.Machine.execKstore w o nx s
  | .draw w o off len nx => Sys2Proof.Machine.execDraw w o off len nx s
  | .emit w o off len nx => Sys2Proof.Machine.execEmit w o off len nx s
  | .mov w d a nx => Sys2Proof.Machine.execMov w d a nx s
  | .movi w d imm nx => Sys2Proof.Machine.execMovi w d imm nx s
  | .movs w d imm nx => Sys2Proof.Machine.execMovs w d imm nx s
  | .add w d a b nx => Sys2Proof.Machine.execAdd w d a b nx s
  | .sub w d a b nx => Sys2Proof.Machine.execSub w d a b nx s
  | .and w d a b nx => Sys2Proof.Machine.execAnd w d a b nx s
  | .or w d a b nx => Sys2Proof.Machine.execOr w d a b nx s
  | .xor w d a b nx => Sys2Proof.Machine.execXor w d a b nx s
  | .shl w d a b nx => Sys2Proof.Machine.execShl w d a b nx s
  | .shr w d a b nx => Sys2Proof.Machine.execShr w d a b nx s
  | .addi w d a imm nx => Sys2Proof.Machine.execAddi w d a imm nx s
  | .cmpeq w f a b nx => Sys2Proof.Machine.execCmpeq w f a b nx s
  | .cmplt w f a b nx => Sys2Proof.Machine.execCmplt w f a b nx s
  | .sel w d f a b nx => Sys2Proof.Machine.execSel w d f a b nx s
  | .ldw w d o b nx => Sys2Proof.Machine.execLdw w d o b nx s
  | .stw w a o b nx => Sys2Proof.Machine.execStw w a o b nx s
  | .objlen w d o nx => Sys2Proof.Machine.execObjlen w d o nx s
  | .ntt w l nx => Sys2Proof.Machine.execNtt w l nx s
  | .intt w l nx => Sys2Proof.Machine.execIntt w l nx s
  | .latAdd w l nx => Sys2Proof.Machine.execLatAdd w l nx s
  | .latSub w l nx => Sys2Proof.Machine.execLatSub w l nx s
  | .mulp w l nx => Sys2Proof.Machine.execMulp w l nx s
  | .mulm w l nx => Sys2Proof.Machine.execMulm w l nx s
  | .basemul w l nx => Sys2Proof.Machine.execBasemul w l nx s
  | .a2b w l nx => Sys2Proof.Machine.execA2b w l nx s
  | .b2a w l nx => Sys2Proof.Machine.execB2a w l nx s
  | .compress w l nx => Sys2Proof.Machine.execCompress w l nx s
  | .decompress w l nx => Sys2Proof.Machine.execDecompress w l nx s
  | .cbd w l nx => Sys2Proof.Machine.execCbd w l nx s
  | .encode w l nx => Sys2Proof.Machine.execEncode w l nx s
  | .decode w l nx => Sys2Proof.Machine.execDecode w l nx s
  | .normchk w l nx => Sys2Proof.Machine.execNormchk w l nx s
  | .remask w l nx => Sys2Proof.Machine.execRemask w l nx s
  | .uniform w l nx => Sys2Proof.Machine.execUniform w l nx s
  | .init w h mode nx => Sys2Proof.Machine.execInit w h mode nx s
  | .absorb w h nx => Sys2Proof.Machine.execAbsorb w h nx s
  | .final w h nx => Sys2Proof.Machine.execFinal w h nx s
  | .squeeze w h nx => Sys2Proof.Machine.execSqueeze w h nx s
  | .bnModAdd w b nx => Sys2Proof.Machine.execBnModAdd w b nx s
  | .bnModSub w b nx => Sys2Proof.Machine.execBnModSub w b nx s
  | .bnModMul w b nx => Sys2Proof.Machine.execBnModMul w b nx s
  | .bnModRed w b nx => Sys2Proof.Machine.execBnModRed w b nx s
  | .bnModInv w b nx => Sys2Proof.Machine.execBnModInv w b nx s
  | .bnModExp w b nx => Sys2Proof.Machine.execBnModExp w b nx s
  | .bnPtAdd w b nx => Sys2Proof.Machine.execBnPtAdd w b nx s
  | .bnPtMul w b nx => Sys2Proof.Machine.execBnPtMul w b nx s
  | .bnSecret w op b nx => Sys2Proof.Machine.execBnSecret w op b nx s
  | .mlKemKeygen j => Sys2Proof.Machine.execMlKemKeygen j s
  | .mlKemKeygenSeed j => Sys2Proof.Machine.execMlKemKeygenSeed j s
  | .mlKemEncaps j => Sys2Proof.Machine.execMlKemEncaps j s
  | .mlKemDecaps j => Sys2Proof.Machine.execMlKemDecaps j s
  | .mlDsaKeygen j => Sys2Proof.Machine.execMlDsaKeygen j s
  | .mlDsaKeygenSeed j => Sys2Proof.Machine.execMlDsaKeygenSeed j s
  | .mlDsaSign j => Sys2Proof.Machine.execMlDsaSign j s
  | .mlDsaVerify j => Sys2Proof.Machine.execMlDsaVerify j s
  | .mlDsaSignPrehash j => Sys2Proof.Machine.execMlDsaSignPrehash j s
  | .mlDsaVerifyPrehash j => Sys2Proof.Machine.execMlDsaVerifyPrehash j s
  | .mlDsaSignMu j => Sys2Proof.Machine.execMlDsaSignMu j s
  | .mlDsaVerifyMu j => Sys2Proof.Machine.execMlDsaVerifyMu j s
  | .fnDsaKeygen j => Sys2Proof.Machine.execFnDsaKeygen j s
  | .fnDsaSign j => Sys2Proof.Machine.execFnDsaSign j s
  | .fnDsaVerify j => Sys2Proof.Machine.execFnDsaVerify j s
  | .fnDsaSignPrehash j => Sys2Proof.Machine.execFnDsaSignPrehash j s
  | .fnDsaVerifyPrehash j => Sys2Proof.Machine.execFnDsaVerifyPrehash j s
  | .slhDsaKeygen j => Sys2Proof.Machine.execSlhDsaKeygen j s
  | .slhDsaKeygenSeed j => Sys2Proof.Machine.execSlhDsaKeygenSeed j s
  | .slhDsaSign j => Sys2Proof.Machine.execSlhDsaSign j s
  | .slhDsaVerify j => Sys2Proof.Machine.execSlhDsaVerify j s
  | .slhDsaSignPrehash j => Sys2Proof.Machine.execSlhDsaSignPrehash j s
  | .slhDsaVerifyPrehash j => Sys2Proof.Machine.execSlhDsaVerifyPrehash j s
  | .hssKeygen j => Sys2Proof.Machine.execHssKeygen j s
  | .hssSign j => Sys2Proof.Machine.execHssSign j s
  | .hssVerify j => Sys2Proof.Machine.execHssVerify j s
  | .lmsVerify j => Sys2Proof.Machine.execLmsVerify j s
  | .hssState j => Sys2Proof.Machine.execHssState j s
  | .xmssKeygen j => Sys2Proof.Machine.execXmssKeygen j s
  | .xmssmtKeygen j => Sys2Proof.Machine.execXmssmtKeygen j s
  | .xmssSign j => Sys2Proof.Machine.execXmssSign j s
  | .xmssmtSign j => Sys2Proof.Machine.execXmssmtSign j s
  | .xmssVerify j => Sys2Proof.Machine.execXmssVerify j s
  | .xmssmtVerify j => Sys2Proof.Machine.execXmssmtVerify j s
  | .xmssState j => Sys2Proof.Machine.execXmssState j s
  | .counterWriteEnd j ok => Sys2Proof.Machine.execCounterWriteEnd j ok s
  | .backgroundTreeGeneration sl index => Sys2Proof.Machine.execBackgroundTreeGeneration sl index s
  | .hqcKeygen j => Sys2Proof.Machine.execHqcKeygen j s
  | .hqcEncaps j => Sys2Proof.Machine.execHqcEncaps j s
  | .hqcDecaps j => Sys2Proof.Machine.execHqcDecaps j s
  | .mcelieceKeygen j => Sys2Proof.Machine.execMcelieceKeygen j s
  | .mcelieceEncaps j => Sys2Proof.Machine.execMcelieceEncaps j s
  | .mcelieceDecaps j => Sys2Proof.Machine.execMcelieceDecaps j s
  | .pkExport j => Sys2Proof.Machine.execPkExport j s
  | .rsaKeygen j => Sys2Proof.Machine.execRsaKeygen j s
  | .rsaSign j => Sys2Proof.Machine.execRsaSign j s
  | .rsaVerify j => Sys2Proof.Machine.execRsaVerify j s
  | .encryptOaep j => Sys2Proof.Machine.execEncryptOaep j s
  | .decryptOaep j => Sys2Proof.Machine.execDecryptOaep j s
  | .publicRaw j => Sys2Proof.Machine.execPublicRaw j s
  | .eccKeygen j => Sys2Proof.Machine.execEccKeygen j s
  | .ecdsaSign j => Sys2Proof.Machine.execEcdsaSign j s
  | .ecdsaVerify j => Sys2Proof.Machine.execEcdsaVerify j s
  | .ecdh j => Sys2Proof.Machine.execEcdh j s
  | .pointValidate j => Sys2Proof.Machine.execPointValidate j s
  | .keygenEd j => Sys2Proof.Machine.execKeygenEd j s
  | .keygenX j => Sys2Proof.Machine.execKeygenX j s
  | .eddsaSign j => Sys2Proof.Machine.execEddsaSign j s
  | .eddsaVerify j => Sys2Proof.Machine.execEddsaVerify j s
  | .signCtx j => Sys2Proof.Machine.execSignCtx j s
  | .verifyCtx j => Sys2Proof.Machine.execVerifyCtx j s
  | .signPh j => Sys2Proof.Machine.execSignPh j s
  | .verifyPh j => Sys2Proof.Machine.execVerifyPh j s
  | .xDh j => Sys2Proof.Machine.execXDh j s
  | .combineConcat j => Sys2Proof.Machine.execCombineConcat j s
  | .combineKdf j => Sys2Proof.Machine.execCombineKdf j s
  | .kdf108 j => Sys2Proof.Machine.execKdf108 j s
  | .hkdfExtract j => Sys2Proof.Machine.execHkdfExtract j s
  | .hkdfExpand j => Sys2Proof.Machine.execHkdfExpand j s
  | .kdf56c j => Sys2Proof.Machine.execKdf56c j s
  | .wrapKw j => Sys2Proof.Machine.execWrapKw j s
  | .wrapKwp j => Sys2Proof.Machine.execWrapKwp j s
  | .unwrapKw j => Sys2Proof.Machine.execUnwrapKw j s
  | .unwrapKwp j => Sys2Proof.Machine.execUnwrapKwp j s
  | .gcmSeal j => Sys2Proof.Machine.execGcmSeal j s
  | .gcmOpen j => Sys2Proof.Machine.execGcmOpen j s
  | .ccpSeal j => Sys2Proof.Machine.execCcpSeal j s
  | .ccpOpen j => Sys2Proof.Machine.execCcpOpen j s
  | .dealerKeygen j => Sys2Proof.Machine.execDealerKeygen j s
  | .commit j => Sys2Proof.Machine.execCommit j s
  | .signShare j => Sys2Proof.Machine.execSignShare j s
  | .aggregate j => Sys2Proof.Machine.execAggregate j s
  | .frostVerify j => Sys2Proof.Machine.execFrostVerify j s
  | .fabricSign j lost => Sys2Proof.Machine.execFabricSign j lost s
  | .shareSend j dest => Sys2Proof.Machine.execShareSend j dest s
  | .modAdd j => Sys2Proof.Machine.execModAdd j s
  | .modSub j => Sys2Proof.Machine.execModSub j s
  | .modMul j => Sys2Proof.Machine.execModMul j s
  | .modRed j => Sys2Proof.Machine.execModRed j s
  | .modInv j => Sys2Proof.Machine.execModInv j s
  | .modExp j => Sys2Proof.Machine.execModExp j s
  | .ptAdd j => Sys2Proof.Machine.execPtAdd j s
  | .ptMul j => Sys2Proof.Machine.execPtMul j s
  | .digest j => Sys2Proof.Machine.execDigest j s
  | .random j => Sys2Proof.Machine.execRandom j s
  | .fullEntropy j => Sys2Proof.Machine.execFullEntropy j s
  | .customerEntry j => Sys2Proof.Machine.execCustomerEntry j s
  | .keyGenerate j => Sys2Proof.Machine.execKeyGenerate j s
  | .keyImport j => Sys2Proof.Machine.execKeyImport j s
  | .keyImportPublic j => Sys2Proof.Machine.execKeyImportPublic j s
  | .keyDelete j => Sys2Proof.Machine.execKeyDelete j s
  | .keyGetAttr j => Sys2Proof.Machine.execKeyGetAttr j s
  | .keyExportPublic j => Sys2Proof.Machine.execKeyExportPublic j s
  | .keyRestrict j => Sys2Proof.Machine.execKeyRestrict j s
  | .keySeal j => Sys2Proof.Machine.execKeySeal j s
  | .keyEvict j => Sys2Proof.Machine.execKeyEvict j s
  | .keyLoad j => Sys2Proof.Machine.execKeyLoad j s
  | .ctrAlloc j => Sys2Proof.Machine.execCtrAlloc j s
  | .ctrRead j => Sys2Proof.Machine.execCtrRead j s
  | .ctrFree j => Sys2Proof.Machine.execCtrFree j s
  | .keySync j => Sys2Proof.Machine.execKeySync j s
  | .keySetDefaults j => Sys2Proof.Machine.execKeySetDefaults j s
  | .journalCommit => Sys2Proof.Machine.execJournalCommit s
  | .journalReadEnd epoch readable => Sys2Proof.Machine.execJournalReadEnd epoch readable s
  | .sweepEnd => Sys2Proof.Machine.execSweepEnd s
  | .dmaReadCompletion c r => Sys2Proof.Machine.execDmaReadCompletion c r s
  | .hostReadTimeout t => Sys2Proof.Machine.execHostReadTimeout t s
  | .ddr5Timeout c => Sys2Proof.Machine.execDdr5Timeout c s
  | .dmaRecordConsume q => Sys2Proof.Machine.execDmaRecordConsume q s
  | .interruptModeration sl n => Sys2Proof.Machine.execInterruptModeration sl n s
  | .msixUnmask v => Sys2Proof.Machine.execMsixUnmask v s
  | .atsTranslation t valid => Sys2Proof.Machine.execAtsTranslation t valid s
  | .atsInvalidation sl page => Sys2Proof.Machine.execAtsInvalidation sl page s
  | .tokenBucketRefill sl => Sys2Proof.Machine.execTokenBucketRefill sl s
  | .timNowLoRead => Sys2Proof.Machine.execTimNowLoRead s
  | .timeBaseWrap => Sys2Proof.Machine.execTimeBaseWrap s
  | .registerWrite a wide v => Sys2Proof.Machine.execRegisterWrite a wide v s
  | .getVersion r => Sys2Proof.Machine.execGetVersion r s
  | .catQuery r => Sys2Proof.Machine.execCatQuery r s
  | .walCfgRead r => Sys2Proof.Machine.execWalCfgRead r s
  | .walCfgWrite r => Sys2Proof.Machine.execWalCfgWrite r s
  | .walStatRead r => Sys2Proof.Machine.execWalStatRead r s
  | .walCsbRead r => Sys2Proof.Machine.execWalCsbRead r s
  | .csLoad r bad => Sys2Proof.Machine.execCsLoad r bad s
  | .csUnload r => Sys2Proof.Machine.execCsUnload r s
  | .sliceCreate r => Sys2Proof.Machine.execSliceCreate r s
  | .sliceDestroy r => Sys2Proof.Machine.execSliceDestroy r s
  | .sliceQuery r => Sys2Proof.Machine.execSliceQuery r s
  | .sliceSetQuota r => Sys2Proof.Machine.execSliceSetQuota r s
  | .sliceSetSched r => Sys2Proof.Machine.execSliceSetSched r s
  | .sliceSetVectors r => Sys2Proof.Machine.execSliceSetVectors r s
  | .sliceBindPasid r => Sys2Proof.Machine.execSliceBindPasid r s
  | .sliceQuiesce r => Sys2Proof.Machine.execSliceQuiesce r s
  | .sliceResume r => Sys2Proof.Machine.execSliceResume r s
  | .sliceCounters r => Sys2Proof.Machine.execSliceCounters r s
  | .quiesceBound sl => Sys2Proof.Machine.execQuiesceBound sl s
  | .wedgeTimer sl => Sys2Proof.Machine.execWedgeTimer sl s
  | .migPrepare r => Sys2Proof.Machine.execMigPrepare r s
  | .migSave r => Sys2Proof.Machine.execMigSave r s
  | .migRestore r => Sys2Proof.Machine.execMigRestore r s
  | .migAbandon r => Sys2Proof.Machine.execMigAbandon r s
  | .migCommit r => Sys2Proof.Machine.execMigCommit r s
  | .migUnfreeze r => Sys2Proof.Machine.execMigUnfreeze r s
  | .migCancel r => Sys2Proof.Machine.execMigCancel r s
  | .migPolicySet r => Sys2Proof.Machine.execMigPolicySet r s
  | .migPolicyGet r => Sys2Proof.Machine.execMigPolicyGet r s
  | .sliceState r => Sys2Proof.Machine.execSliceState r s
  | .lcState r => Sys2Proof.Machine.execLcState r s
  | .lcProvision r => Sys2Proof.Machine.execLcProvision r s
  | .lcChallenge r => Sys2Proof.Machine.execLcChallenge r s
  | .lcTransition r => Sys2Proof.Machine.execLcTransition r s
  | .kstStatus r => Sys2Proof.Machine.execKstStatus r s
  | .kstPolicySet r => Sys2Proof.Machine.execKstPolicySet r s
  | .kstPolicyGet r => Sys2Proof.Machine.execKstPolicyGet r s
  | .devKeyCreate r => Sys2Proof.Machine.execDevKeyCreate r s
  | .devKeyGrant r => Sys2Proof.Machine.execDevKeyGrant r s
  | .devKeyDelete r => Sys2Proof.Machine.execDevKeyDelete r s
  | .measExtend r => Sys2Proof.Machine.execMeasExtend r s
  | .measRead r => Sys2Proof.Machine.execMeasRead r s
  | .attestQuote r => Sys2Proof.Machine.execAttestQuote r s
  | .attestKey r => Sys2Proof.Machine.execAttestKey r s
  | .certChain r => Sys2Proof.Machine.execCertChain r s
  | .digInit r => Sys2Proof.Machine.execDigInit r s
  | .digUpdate r => Sys2Proof.Machine.execDigUpdate r s
  | .digFinal r => Sys2Proof.Machine.execDigFinal r s
  | .digSave r => Sys2Proof.Machine.execDigSave r s
  | .digRestore r => Sys2Proof.Machine.execDigRestore r s
  | .spdmGetMeasurements m nonce => Sys2Proof.Machine.execSpdmGetMeasurements m nonce s
  | .spdmMessage m => Sys2Proof.Machine.execSpdmMessage m s
  | .rngStatus r => Sys2Proof.Machine.execRngStatus r s
  | .rngCfgSet r => Sys2Proof.Machine.execRngCfgSet r s
  | .rngCfgGet r => Sys2Proof.Machine.execRngCfgGet r s
  | .rngRetest r => Sys2Proof.Machine.execRngRetest r s
  | .rngRawCapture r samples => Sys2Proof.Machine.execRngRawCapture r samples s
  | .rngTestPattern r => Sys2Proof.Machine.execRngTestPattern r s
  | .servoBlock idx ones => Sys2Proof.Machine.execServoBlock idx ones s
  | .repetitionCount idx => Sys2Proof.Machine.execRepetitionCount idx s
  | .proportionWindowEnd idx count => Sys2Proof.Machine.execProportionWindowEnd idx count s
  | .startupTestEnd idx passed => Sys2Proof.Machine.execStartupTestEnd idx passed s
  | .settlingTimeout idx => Sys2Proof.Machine.execSettlingTimeout idx s
  | .conditionerBlock q => Sys2Proof.Machine.execConditionerBlock q s
  | .seederReseed q => Sys2Proof.Machine.execSeederReseed q s
  | .seederKat q passed => Sys2Proof.Machine.execSeederKat q passed s
  | .seederRequest q => Sys2Proof.Machine.execSeederRequest q s
  | .drbgReseedRequest w => Sys2Proof.Machine.execDrbgReseedRequest w s
  | .drbgIntervalReached w => Sys2Proof.Machine.execDrbgIntervalReached w s
  | .drbgReseed w => Sys2Proof.Machine.execDrbgReseed w s
  | .tamPolicyGet r => Sys2Proof.Machine.execTamPolicyGet r s
  | .tamPolicySet r => Sys2Proof.Machine.execTamPolicySet r s
  | .tamFuseDisable r => Sys2Proof.Machine.execTamFuseDisable r s
  | .tamStickyClear r => Sys2Proof.Machine.execTamStickyClear r s
  | .tamLogRead r => Sys2Proof.Machine.execTamLogRead r s
  | .tamLidRead r => Sys2Proof.Machine.execTamLidRead r s
  | .tamAck r => Sys2Proof.Machine.execTamAck r s
  | .tamLidCal r => Sys2Proof.Machine.execTamLidCal r s
  | .lidASweep pairs => Sys2Proof.Machine.execLidASweep pairs s
  | .lidBMeasure pair delay impedance => Sys2Proof.Machine.execLidBMeasure pair delay impedance s
  | .loopSample idx fwd rev => Sys2Proof.Machine.execLoopSample idx fwd rev s
  | .switchSample idx seen => Sys2Proof.Machine.execSwitchSample idx seen s
  | .sensorAlarm t seen => Sys2Proof.Machine.execSensorAlarm t seen s
  | .shadowCompare r upset => Sys2Proof.Machine.execShadowCompare r upset s
  | .haltRecordDeadline => Sys2Proof.Machine.execHaltRecordDeadline s
  | .zeroiseOutputTimeout c => Sys2Proof.Machine.execZeroiseOutputTimeout c s
  | .tamZeroPulseEnd => Sys2Proof.Machine.execTamZeroPulseEnd s
  | .otpStepWrite verified => Sys2Proof.Machine.execOtpStepWrite verified s
  | .batterySwitch => Sys2Proof.Machine.execBatterySwitch s
  | .batteryReturn => Sys2Proof.Machine.execBatteryReturn s
  | .batteryAlarm t detail => Sys2Proof.Machine.execBatteryAlarm t detail s
  | .xtalFail => Sys2Proof.Machine.execXtalFail s
  | .faultNote n => Sys2Proof.Machine.execFaultNote n s
  | .mergeWindow => Sys2Proof.Machine.execMergeWindow s
  | .heartbeat q => Sys2Proof.Machine.execHeartbeat q s
  | .fenceFlashCopy => Sys2Proof.Machine.execFenceFlashCopy s
  | .selfTestEnd u passed => Sys2Proof.Machine.execSelfTestEnd u passed s
  | .fltLogRead r => Sys2Proof.Machine.execFltLogRead r s
  | .fltLogClear r => Sys2Proof.Machine.execFltLogClear r s
  | .fltFenceRead r => Sys2Proof.Machine.execFltFenceRead r s
  | .fltUnfence r => Sys2Proof.Machine.execFltUnfence r s
  | .fltFence r => Sys2Proof.Machine.execFltFence r s
  | .wtyStatus r => Sys2Proof.Machine.execWtyStatus r s
  | .wtyPlanSet r => Sys2Proof.Machine.execWtyPlanSet r s
  | .wtyPortCfg r => Sys2Proof.Machine.execWtyPortCfg r s
  | .wtyTimeCfg r => Sys2Proof.Machine.execWtyTimeCfg r s
  | .wtyMemberAdmit r => Sys2Proof.Machine.execWtyMemberAdmit r s
  | .wtyFzPolicySet r => Sys2Proof.Machine.execWtyFzPolicySet r s
  | .wtyFzPolicyGet r => Sys2Proof.Machine.execWtyFzPolicyGet r s
  | .wtySliceJoin r => Sys2Proof.Machine.execWtySliceJoin r s
  | .wtySliceLeave r => Sys2Proof.Machine.execWtySliceLeave r s
  | .wtyTakeover r => Sys2Proof.Machine.execWtyTakeover r s
  | .linkStageEnd p e => Sys2Proof.Machine.execLinkStageEnd p e s
  | .linkStageRetry p => Sys2Proof.Machine.execLinkStageRetry p s
  | .joinRetry p => Sys2Proof.Machine.execJoinRetry p s
  | .frameReceive p number tagOk => Sys2Proof.Machine.execFrameReceive p number tagOk s
  | .linkSilence p => Sys2Proof.Machine.execLinkSilence p s
  | .linkKeyRenewal p => Sys2Proof.Machine.execLinkKeyRenewal p s
  | .linkErrors p => Sys2Proof.Machine.execLinkErrors p s
  | .syncFrame p x => Sys2Proof.Machine.execSyncFrame p x s
  | .holdLimit => Sys2Proof.Machine.execHoldLimit s
  | .keepAlive p member => Sys2Proof.Machine.execKeepAlive p member s
  | .memberLost member => Sys2Proof.Machine.execMemberLost member s
  | .masterLost => Sys2Proof.Machine.execMasterLost s
  | .takeover reached => Sys2Proof.Machine.execTakeover reached s
  | .quorumLoss reached => Sys2Proof.Machine.execQuorumLoss reached s
  | .replicationChange c => Sys2Proof.Machine.execReplicationChange c s
  | .leaseRequest handle member => Sys2Proof.Machine.execLeaseRequest handle member s
  | .replGrace => Sys2Proof.Machine.execReplGrace s
  | .zeroiseNotice p sender term => Sys2Proof.Machine.execZeroiseNotice p sender term s
  | .advertisement p idle => Sys2Proof.Machine.execAdvertisement p idle s
  | .spreadWait j p => Sys2Proof.Machine.execSpreadWait j p s
  | .forwardedJob p sl desc input param remote => Sys2Proof.Machine.execForwardedJob p sl desc input param remote s
  | .forwardedResult j r => Sys2Proof.Machine.execForwardedResult j r s
  | .forwardAbort p remote => Sys2Proof.Machine.execForwardAbort p remote s
  | .pwrStatus r => Sys2Proof.Machine.execPwrStatus r s
  | .pwrCfgSet r => Sys2Proof.Machine.execPwrCfgSet r s
  | .pwrCfgGet r => Sys2Proof.Machine.execPwrCfgGet r s
  | .pwrStandby r => Sys2Proof.Machine.execPwrStandby r s
  | .pwrWake r => Sys2Proof.Machine.execPwrWake r s
  | .pwrBinSet r => Sys2Proof.Machine.execPwrBinSet r s
  | .ageStatus r => Sys2Proof.Machine.execAgeStatus r s
  | .ageCfgSet r => Sys2Proof.Machine.execAgeCfgSet r s
  | .ageCfgGet r => Sys2Proof.Machine.execAgeCfgGet r s
  | .ageRun r => Sys2Proof.Machine.execAgeRun r s
  | .pmbusPoll r => Sys2Proof.Machine.execPmbusPoll r s
  | .railStep vout => Sys2Proof.Machine.execRailStep vout s
  | .targetSettle w => Sys2Proof.Machine.execTargetSettle w s
  | .binChange q bin => Sys2Proof.Machine.execBinChange q bin s
  | .thermalSample t => Sys2Proof.Machine.execThermalSample t s
  | .derateEnd => Sys2Proof.Machine.execDerateEnd s
  | .ioutLimit => Sys2Proof.Machine.execIoutLimit s
  | .calibrationEnd w binSet netSet => Sys2Proof.Machine.execCalibrationEnd w binSet netSet s
  | .ageingRunDue w => Sys2Proof.Machine.execAgeingRunDue w s
  | .ringOscRead w khz => Sys2Proof.Machine.execRingOscRead w khz s
  | .ageingRunEnd w need khz => Sys2Proof.Machine.execAgeingRunEnd w need khz s
  | .powerUp b => Sys2Proof.Machine.execPowerUp b s
  | .ddr5TrainingEnd c ok => Sys2Proof.Machine.execDdr5TrainingEnd c ok s
  | .readyIndication => Sys2Proof.Machine.execReadyIndication s
  | .bootWatchdog b => Sys2Proof.Machine.execBootWatchdog b s
  | .pwrOkFall => Sys2Proof.Machine.execPwrOkFall s
  | .pwrOkRise b => Sys2Proof.Machine.execPwrOkRise b s
  | .sysResetN b => Sys2Proof.Machine.execSysResetN b s
  | .perstN b => Sys2Proof.Machine.execPerstN b s
  | .flr b => Sys2Proof.Machine.execFlr b s
  | .flrTimeout b => Sys2Proof.Machine.execFlrTimeout b s
  | .rimRestart digestOk b => Sys2Proof.Machine.execRimRestart digestOk b s
  | .fwStatus r => Sys2Proof.Machine.execFwStatus r s
  | .fwWrite r => Sys2Proof.Machine.execFwWrite r s
  | .fwActivate r => Sys2Proof.Machine.execFwActivate r s
  | .fwCommit r => Sys2Proof.Machine.execFwCommit r s
  | .fwRevert r => Sys2Proof.Machine.execFwRevert r s
  | .devReset r b => Sys2Proof.Machine.execDevReset r b s
  | .bypass => Sys2Proof.Machine.execBypass s
  | .idcode => Sys2Proof.Machine.execIdcode s
  | .samplePreload => Sys2Proof.Machine.execSamplePreload s
  | .extest => Sys2Proof.Machine.execExtest s
  | .highz => Sys2Proof.Machine.execHighz s
  | .trstN b => Sys2Proof.Machine.execTrstN b s
  | .arbitrationRound q t reqs => Sys2Proof.Machine.execArbitrationRound q t reqs s
  | .restoreEnd w => Sys2Proof.Machine.execRestoreEnd w s
  | .dmaWriteAck c ok => Sys2Proof.Machine.execDmaWriteAck c ok s
  | .perstNRelease b => Sys2Proof.Machine.execPerstNRelease b s
  | .batteryDomainLoss => Sys2Proof.Machine.execBatteryDomainLoss s
  | .sensorAlarmEnd t => Sys2Proof.Machine.execSensorAlarmEnd t s

end Sys2Proof.Machine
end

