-- ==== Sys2Proof/Safety.lean ====
section
/-! DEFINITION. What a safe run is: no step of it stops. And the words the statements are made of: a machine with one wale or one block
replaced, a wale that issues, a job that runs, a frame that is served. -/
namespace Sys2Proof

/-- A step that answers a next state. -/
def steps (s t : Machine.State) : Prop := Machine.step s = .next t

/-- Every step of a run of `k` steps from `s` answers a next state. -/
def Safe : Nat → Machine.State → Prop
  | 0, _ => True
  | k + 1, s => ∃ t, steps s t ∧ Safe k t

/-- The wale of a microword or of a field of a nanoword. WAIT_WORK, RELEASE, DBT and DRAW, which also ask a job, a partner or a seeder, have
statements of their own. -/
def Instr.microword : Instr → Option WaleId
  | .snop w | .jmp w _ | .call w _ | .ret w | .rpt w | .bt w _ _ | .bf w _ _ | .ldli w _ _ | .ldlg w _ _ | .djnz w _ _ | .jmpx w _ _ | .drain w
  | .dslot w _ | .kstore w _ _ | .emit w _ _ _ _ | .mov w _ _ _ | .movi w _ _ _ | .movs w _ _ _ | .add w _ _ _ _ | .sub w _ _ _ _ | .and w _ _ _ _
  | .or w _ _ _ _ | .xor w _ _ _ _ | .shl w _ _ _ _ | .shr w _ _ _ _ | .addi w _ _ _ _ | .cmpeq w _ _ _ _ | .cmplt w _ _ _ _ | .sel w _ _ _ _ _
  | .ldw w _ _ _ _ | .stw w _ _ _ _ | .objlen w _ _ _ | .ntt w _ _ | .intt w _ _ | .latAdd w _ _ | .latSub w _ _ | .mulp w _ _ | .mulm w _ _
  | .basemul w _ _ | .a2b w _ _ | .b2a w _ _ | .compress w _ _ | .decompress w _ _ | .cbd w _ _ | .encode w _ _ | .decode w _ _ | .normchk w _ _
  | .remask w _ _ | .uniform w _ _ | .init w _ _ _ | .absorb w _ _ | .final w _ _ | .squeeze w _ _ | .bnModAdd w _ _ | .bnModSub w _ _ | .bnModMul w _ _
  | .bnModRed w _ _ | .bnModInv w _ _ | .bnModExp w _ _ | .bnPtAdd w _ _ | .bnPtMul w _ _ | .bnSecret w _ _ _ => some w
  | _ => none

end Sys2Proof

namespace Sys2Proof.Machine

/-! ### A machine with a part replaced -/

/-- The machine with another block: its queue is untouched. -/
def State.to (s : State) (b : Block) : State := { s with toBlock := b }

/-- The machine with wale `w` replaced: everything else is untouched. -/
def State.toWale (s : State) (w : Nat) (x : Wale) : State := s.to { s.toBlock with wales := Tab.put s.wales w x }

/-! ### A wale that issues microwords -/

/-- Command `c` is the next operation of the microword wale `w` issues, at whose fetch nothing is wrong (R105, R108). -/
def Issues (s : State) (w : WaleId) (c : Instr) : Prop :=
  s.toBlock.issues w = true ∧ (s.toBlock.wale w).fetchFault = none ∧ (s.toBlock.wale w).spells w c = true
/-- The wale as an operation of its microword finds it: reading what stood when the word began (R112). -/
def State.current (s : State) (w : WaleId) : Wale := (s.toBlock.wale w).during
/-- The machine after an operation of wale `w` that leaves it as `y`: one operation of its microword further. -/
def State.issued (s : State) (w : WaleId) (y : Wale) : State := s.toWale w (y.issued ((s.toBlock.wale w).atLast w))
/-- Where it is the next operation of its wale's microword, `c` leaves the wale as `y` and everything else as it is. -/
def Does (s : State) (w : WaleId) (c : Instr) (y : Wale) : Prop := Issues s w c → exec c s = .next (s.issued w y)
/-- Where it is the next operation, `c` is a machine check with Detail `d`. -/
def Checks (s : State) (w : WaleId) (c : Instr) (d : W32) : Prop := Issues s w c → exec c s = .next (s.to (s.toBlock.machineCheck w d))

/-- The next address lies in the program's region (R107, R109). -/
def Wale.roomFor (x : Wale) : Nx → Prop
  | .stay => True
  | .inc => x.micro.pc.toNat ≠ if x.micro.customer then 0x3FFF else 0x2FFF

/-- The wale past an operation: at the next address, or still at this one where more of its microword is to come. -/
def Wale.past (x : Wale) : Nx → Wale
  | .stay => x
  | .inc => x.setPc (x.micro.pc + 1)

/-- A program may continue at `t`: a customer's only in its own region (R109). -/
def Wale.mayGo (x : Wale) (t : BitVec 14) : Prop := x.micro.customer = true → 0x3000 ≤ t.toNat

/-- Object `o` is valid and `len` bytes from `off` lie in its span and in the memory (R77). -/
def Wale.inObj (x : Wale) (o : Reg) (off len : Nat) : Prop :=
  (x.micro.o[o]).valid = true ∧ off + len ≤ (x.micro.o[o]).span * x.slotBytes ∧
  (x.micro.o[o]).base * x.slotBytes + off + len ≤ x.slots * x.slotBytes

/-- Where a lattice operand starts within its object. -/
def Wale.at (x : Wale) (r : LatSrc) : Nat := (x.reg r.idx).toNat * r.size
/-- A lattice operand may be written: its object holds it and its index is P (R81, R84). -/
def Wale.writable (x : Wale) (r : LatSrc) : Prop := x.regS r.idx = false ∧ x.inObj r.obj (x.at r) r.size
/-- Is a lattice operand S? -/
def Wale.secretAt (x : Wale) (r : LatSrc) : Bool := x.bytesS (x.micro.o[r.obj]) (x.at r) r.size
/-- A lattice operand may be read: as for a write, and no S slot at order 0 (R84). -/
def Wale.readable (x : Wale) (r : LatSrc) : Prop := x.writable r ∧ (x.order = 0 → x.secretAt r = false)
/-- Its bytes. -/
def Wale.operand (x : Wale) (r : LatSrc) : Bytes := x.load (x.micro.o[r.obj]) (x.at r) r.size
/-- The wale with a lattice result stored. -/
def Wale.result (x : Wale) (r : LatSrc) (d : Bytes) (tag : Bool) : Wale := x.store (x.micro.o[r.obj]) (x.at r) d tag
/-- The q and n of a LAT field are not reserved (R112). -/
def Legal (l : LatF) : Prop := l.q ≠ 3 ∧ l.n ≠ 3
/-- The parameter in the index register B of a LAT field is P and in range. -/
def Wale.param (x : Wale) (l : LatF) (ok : Nat → Prop) : Prop := x.regS l.ib = false ∧ ok (x.reg l.ib).toNat

/-- An operand of a primitive operation: none, or the leading bytes of a P object that holds them (R86, R117). -/
def Wale.bnHolds (x : Wale) (r : Reg) (n : Nat) : Prop :=
  n = 0 ∨ (x.inObj r 0 n ∧ x.objS (x.micro.o[r]) = false ∧ n ≤ (x.micro.o[r]).len)
/-- Its bytes. -/
def Wale.bnBytes (x : Wale) (r : Reg) (n : Nat) : Bytes := if n = 0 then [] else x.load (x.micro.o[r]) 0 n
/-- A primitive operation has a legal P parameter, its operands, and room for its result. -/
def Wale.bnReady (x : Wale) (o : Prim) (f : BnF) : Prop :=
  let p := primPar (x.reg f.par)
  let n := o.lens p.len p.elen
  x.regS f.par = false ∧ p.legal o = true ∧ x.bnHolds f.a n.1 ∧ x.bnHolds f.b n.2.1 ∧ x.bnHolds f.m n.2.2 ∧
  x.inObj f.d 0 (o.outLen p.len) ∧ o.outLen p.len ≤ (x.micro.o[f.d]).len

/-! ### Jobs -/

/-- Job `id` runs: it is RUNNING with its whole message come (R413), of a maker entry, and `op` holds of its native opcode. -/
def Runs (s : State) (id : Nat) (op : Nat → Bool) (j : Job) : Prop :=
  s.toBlock.job id = some j ∧ j.phase = .running ∧ j.passes = 0 ∧ op j.op = true ∧ j.entry.customer = false

/-- Command `c` runs job `id` while that is RUNNING with an opcode of `op`, and does nothing otherwise: a failed check on decode is presented; a job that
draws `n` bytes waits while its quadrant's seeder serves nothing, and then takes them from it; its result is presented. -/
def Works (s : State) (id : Nat) (op : Nat → Bool) (c : Instr) (pre : Block → Job → Option (W16 × W32)) (n : Job → Nat)
    (r : Block → Job → Bytes → Block × RunResult) : Prop :=
  ((¬ ∃ j, Runs s id op j) → exec c s = .next s) ∧
  ∀ j, Runs s id op j →
    (∀ e, pre s.toBlock j = some e → exec c s = .next (s.to (s.toBlock.present id { status := e.1, detail := e.2 }))) ∧
    (pre s.toBlock j = none →
      (n j = 0 → exec c s = .next (s.to ((r s.toBlock j []).1.presentResult j (r s.toBlock j []).2))) ∧
      (n j ≠ 0 → s.toBlock.serves j.quad = false → exec c s = .next s) ∧
      (n j ≠ 0 → s.toBlock.serves j.quad = true →
        let x := r (s.toBlock.seedDraw j.quad (n j)) j (s.toBlock.draw (n j))
        exec c s = .next (s.to (x.1.presentResult j x.2))))

/-- The same for a run that changes nothing but its job. -/
def WorksPure (s : State) (id : Nat) (op : Nat → Bool) (c : Instr) (pre : Block → Job → Option (W16 × W32)) (n : Job → Nat)
    (r : Block → Job → Bytes → RunResult) : Prop := Works s id op c pre n (fun b j d => (b, r b j d))

/-- A run that answers by its output alone. -/
def Outputs (s : State) (id : Nat) (op : Nat → Bool) (c : Instr) (n : Job → Nat) (r : Block → Job → Bytes → Bytes) : Prop :=
  WorksPure s id op c noPre n (fun b j d => .ok { out := r b j d })

/-! ### Mailbox commands -/

/-- Command `i` is answered with `x`: a failure without payload, OUTPUT_TOO_SMALL with the length on the untouched block `b` where the payload exceeds
its room, else the payload (R186). -/
def Answers (s : State) (b : Block) (i : Instr) (c : Cmd) (r : Req) (x : Block × Reply) : Prop :=
  (x.2.status ≠ St.success → exec i s = .next (s.to (x.1.reply r c.code { x.2 with out := [] }))) ∧
  (x.2.status = St.success → replyRoom r < x.2.out.length →
    exec i s = .next (s.to (b.reply r c.code (.fail St.outputTooSmall (BitVec.ofNat 32 x.2.out.length))))) ∧
  (x.2.status = St.success → x.2.out.length ≤ replyRoom r → exec i s = .next (s.to (x.1.reply r c.code x.2)))

/-- Command `i` submits frame `r`, of which its tables say `c`, on block `b`: its checks and then its slice command's state check `own` refuse it, or
`served` holds. -/
def Checked (s : State) (b : Block) (i : Instr) (c : Cmd) (r : Req) (own : Option (W16 × W32)) (served : Prop) : Prop :=
  (∀ e, b.refuses c r own = some e → exec i s = .next (s.to (b.reply r c.code (.fail e.1 e.2)))) ∧ (b.refuses c r own = none → served)

/-- The reads a frame's DMA payload asks for, where it has one that has not come (R186): the block that has asked, and what no token of its slice lets it
ask for yet (R204). -/
def Block.asked (b : Block) (c : Cmd) (r : Req) : Block × W64 × Nat :=
  if r.dma && !(b.box r.box).fetched && (firstFail (Block.frameFails c r)).isNone then Block.boxReads r.box (r.declared + 1) r.reqAddr r.declared b
  else (b, r.reqAddr, 0)

/-- Frame `r` is ignored where its mailbox takes no GO; its mailbox is BUSY while its payload waits for tokens; else, its payload read, `go` holds of
the block. -/
def Goes (s : State) (b : Block) (i : Instr) (c : Cmd) (r : Req) (go : Block → Prop) : Prop :=
  (s.toBlock.takesGo r.box = false → exec i s = .next s) ∧
  (s.toBlock.takesGo r.box = true →
    let x := b.asked c r
    (x.2.2 = 0 → go x.1) ∧
    (x.2.2 ≠ 0 → exec i s =
      .next (s.to (x.1.modBox r.box (fun m => { m with busy := true, cmd := some r, code := c.code, toRead := some x.2 })))))

/-- A command answered at once with what `body` gives, after the check `own` of its slice's state. -/
def SubmitsIn (s : State) (i : Instr) (c : Cmd) (r : Req) (own : Block → Option (W16 × W32)) (body : Block → Block × Reply) : Prop :=
  Goes s s.toBlock i c r (fun b => Checked s b i c r (own b) (Answers s b i c r (body b)))

/-- A command without such a check. -/
def Submits (s : State) (i : Instr) (c : Cmd) (r : Req) (body : Block → Block × Reply) : Prop := SubmitsIn s i c r (fun _ => none) body

/-- A command that changes nothing but its mailbox. -/
def Reads (s : State) (i : Instr) (c : Cmd) (r : Req) (out : Block → Bytes) : Prop := Submits s i c r (fun b => (b, .ok (out b)))

/-- A command whose answer may have to wait: `.inl` is the block in which it is in progress, BUSY set. -/
def SubmitsWait (s : State) (i : Instr) (c : Cmd) (r : Req) (body : Block → Block ⊕ (Block × Reply)) : Prop :=
  Goes s s.toBlock i c r (fun b => Checked s b i c r none (match body b with
    | .inl x => exec i s = .next (s.to (x.modBox r.box (fun m => { m with busy := true, cmd := some r, code := c.code })))
    | .inr y => Answers s b i c r y))

/-- A lifecycle command: whatever it answers on the admin mailbox, the nonce of the last LC_CHALLENGE, which `body` is given, is spent; a slice
mailbox's frame does not reach it (R263). -/
def SubmitsLc (s : State) (i : Instr) (c : Cmd) (r : Req) (body : Block → Option Bytes → Block × Reply) : Prop :=
  (r.box = none → Goes s { s.toBlock with att := { s.toBlock.att with nonce := none } } i c r
    (fun b => Checked s b i c r none (Answers s b i c r (body b s.toBlock.att.nonce)))) ∧
  (r.box ≠ none → Submits s i c r (fun b => body b none))

/-- An admin command on the slice its payload names, which may be in the states listed (R212). -/
def OnSlice (s : State) (i : Instr) (code : W16) (r : Req) (len : Nat → Bool) (states : List SliceSt)
    (body : Block → SliceId → Block × Reply) : Prop :=
  SubmitsIn s i { code := code, len := len } r (fun b => b.stateRefusal r.payload states) (fun b => match b.named r.payload states with
    | .error e => (b, e)
    | .ok sl => body b sl)

/-- A command on the mailbox of a slice, which may be in the states listed (R212). -/
def OnOwn (s : State) (i : Instr) (code : W16) (r : Req) (len : Nat → Bool) (states : List SliceSt)
    (body : Block → SliceId → Block × Reply) : Prop :=
  SubmitsIn s i { code := code, len := len, admin := false, slice := true } r
    (fun b => r.box.bind (fun n => if (b.slice n).st ∈ states then none else some (St.contextBusy, BitVec.ofNat 32 (b.slice n).st.code)))
    (fun b => match r.box with
      | none => (b, .fail St.badOpcode 0)
      | some n => body b n)

/-! ### One-time programmable memory -/

/-- What is fused: the stepping is `st`, the security floor at least `n`, the count of zeroisations at least `z` and never above 255, and the sources of `f`
are disabled. -/
def Kept (st : Byte) (n z : Nat) (f : BitVec 16) (s : State) : Prop :=
  s.otp.stepping = st ∧ n ≤ s.otp.fwFloor ∧ z ≤ s.otp.zeroCount ∧ s.otp.zeroCount ≤ 255 ∧ s.otp.fused &&& f = f

end Sys2Proof.Machine
end

