-- ==== Sys2Proof/Certificates/Slice0/Obligations.lean ====
section
/-! DEFINITION. The statements for the provers, over the rules of spec/. Each says what it rests on; a statement whose docstring names a log entry rests on
the model's choice there. -/
open Sys2Proof Sys2Proof.Machine

/-! ### The queue -/

/-- A step takes the command at the front of the queue and runs it on the state with the rest of the queue. -/
def Obligations.StepRunsFrontCommand : Prop :=
  ∀ (s : State) (c : Instr) (r : List Instr), s.pending = c :: r → step s = exec c { s with pending := r }

/-- With no command waiting a step lets time pass (assumption log 10: the model's choice). Without the core domain only the battery domain's clock goes on. With
it, one nanosecond of the time base passes, or two or none when the steering of a member, in parts of 10^9, has gathered a whole one (R330, R331): fences that waited
take effect on units that no longer hold a job, and each link that is up sends what falls due. While no fence waits and no link is up, nothing changes but
the time base, WRAPPED, set when it passes 2^64 (R322), the powered hours of the wales, BAT_RTC and what the steering has gathered. -/
def Obligations.EmptyQueueTicks : Prop :=
  ∀ s : State, s.pending = [] →
    let b := s.toBlock
    let g := b.wty.phase + b.wty.rate
    let n : Nat := if 1000000000 ≤ g then 2 else if g ≤ -1000000000 then 0 else 1
    let paced := b.modWty (fun f => { f with phase := g + 1000000000 - 1000000000 * (n : Int) })
    (b.boot.coreUp = false → b.boot.aonUp = false → b.bat.supplied = false → step s = .next s) ∧
    (b.boot.coreUp = false → b.boot.aonUp = true ∨ b.bat.supplied = true → step s = .next (s.to { b with bat := b.bat.pass 1 })) ∧
    (b.boot.coreUp = true →
      (n = 0 → step s = .next (s.to paced)) ∧
      (n ≠ 0 → step s = .next (s.to ((List.finRange 4).foldl Block.sendPeriodic (paced.setTime (b.now + BitVec.ofNat 64 n)).takeFences))) ∧
      (n ≠ 0 → b.flt.fencesDue = [] → (∀ p, (b.port p).st ≠ .up) →
        ∃ t, step s = .next t ∧ t.pending = [] ∧ t.now = s.now + BitVec.ofNat 64 n ∧ t.wrapped = (s.wrapped || decide (t.now.toNat < s.now.toNat)) ∧
          t.bat = s.bat.pass n ∧ t.wty = paced.wty ∧
          { t with now := s.now, wrapped := s.wrapped, wales := s.wales, bat := s.bat, wty := s.wty } = s))

/-- Every command completes in every state, and none touches the queue. -/
def Obligations.EveryCommandAnswers : Prop :=
  ∀ (c : Instr) (s : State), ∃ t, exec c s = .next t ∧ t.pending = s.pending

/-! ### The flow of a microprogram (chapter 05) -/

/-- The sequencer's registers (R108; their numbers and widths are those of State). F0 always reads 1 and ignores writes, so BT F0 is an unconditional branch;
every other flag takes the value and taint written, and no other flag changes. A register write reaches its register and its taint alone, and the operations of a
microword in issue still read what stood when it began (R112). The return stack has
eight entries: a CALL with fewer pushes, a CALL with eight or a RET with none is a machine check with Detail 0x109. A reserved OP, NEXT or SYNC value reached at
run time is one with Detail 0x10C, whatever the operation. -/
def Obligations.RegistersAndFlags : Prop :=
  (∀ (x : Wale) (f g : Reg) (v t : Bool),
      x.flag 0 = true ∧ x.flagS 0 = false ∧
      (x.micro.held = none →
        (x.setFlag f v t).flag g = (if g = f ∧ f ≠ 0 then v else x.flag g) ∧
        (x.setFlag f v t).flagS g = (if g = f ∧ f ≠ 0 then t else x.flagS g))) ∧
  (∀ (x : Wale) (d r : Reg) (v : W64) (t : Bool),
      (x.micro.held = none →
        (x.setReg d v t).reg r = (if r = d then v else x.reg r) ∧ (x.setReg d v t).regS r = (if r = d then t else x.regS r)) ∧
      (x.during.setReg d v t).reg r = x.during.reg r ∧
      (∀ f, (x.setReg d v t).flag f = x.flag f) ∧ (x.setReg d v t).opmem = x.opmem ∧ (x.setReg d v t).micro.pc = x.micro.pc) ∧
  (∀ (s : State) (w : WaleId) (t : BitVec 14),
      let x := s.current w
      (x.mayGo t → Does s w (.bt w 0 t) (x.setPc t)) ∧
      (x.mayGo t → x.micro.stack.length < 8 →
        Does s w (.call w t) { x with micro := { x.micro with stack := (x.micro.pc + 1) :: x.micro.stack, pc := t } }) ∧
      (8 ≤ x.micro.stack.length → Checks s w (.call w t) 0x109) ∧
      (x.micro.stack = [] → Checks s w (.ret w) 0x109)) ∧
  (∀ (s : State) (w : WaleId) (c : Instr), c.microword = some w → s.toBlock.issues w = true →
      let x := s.toBlock.wale w
      let m := x.uword x.micro.pc.toNat
      let bad := Host.Outcome.next (φ := Fault) (ρ := Refusal) (s.to (s.toBlock.machineCheck w 0x10C))
      microParityOk m = true →
      (m.getLsbD 23 = true → 14 < bits m.toNat 22 18 → exec c s = bad) ∧
      (m.getLsbD 23 = false → nanoParityOk (x.nword (bits m.toNat 22 12)) = true → 2 ≤ bits m.toNat 3 2 ∨ bits m.toNat 1 0 = 3 → exec c s = bad))

/-- SNOP, DRAIN, JMP, CALL, RET, LDLI, DJNZ and the RPT of a NEXT field: where the microprogram goes on, what the return stack holds and what
the loop counters count (Table 5.4, R107 to R109). Everything else of the machine is unchanged. -/
def Obligations.FlowOperations : Prop :=
  ∀ (s : State) (w : WaleId),
    let x := s.current w
    (x.roomFor .inc →
      Does s w (.snop w) (x.setPc (x.micro.pc + 1)) ∧
      Does s w (.drain w) (x.setPc (x.micro.pc + 1)) ∧
      (∀ l imm, Does s w (.ldli w l imm) ((x.setLoop l (imm.setWidth 16)).setPc (x.micro.pc + 1))) ∧
      (∀ l t, x.loop l = 0 → Does s w (.djnz w l t) (x.setPc (x.micro.pc + 1))) ∧
      (∀ l t, x.loop l = 1 → Does s w (.djnz w l t) ((x.setLoop l 0).setPc (x.micro.pc + 1))) ∧
      ((x.loop 0).toNat ≤ 1 → Does s w (.rpt w) ((x.setLoop 0 0).setPc (x.micro.pc + 1)))) ∧
    (1 < (x.loop 0).toNat → Does s w (.rpt w) (x.setLoop 0 (x.loop 0 - 1))) ∧
    (∀ t, x.mayGo t →
      Does s w (.jmp w t) (x.setPc t) ∧
      (∀ l, 1 < (x.loop l).toNat → Does s w (.djnz w l t) ((x.setLoop l (x.loop l - 1)).setPc t)) ∧
      (x.micro.stack.length < 8 →
        Does s w (.call w t) { x with micro := { x.micro with stack := (x.micro.pc + 1) :: x.micro.stack, pc := t } }) ∧
      (∀ r, x.micro.stack = t :: r → Does s w (.ret w) { x with micro := { x.micro with stack := r, pc := t } }))

/-- BT, BF, JMPX and LDLG on a P value: a branch is taken where its flag is as named, JMPX goes to its target plus G[5:0], and LDLG loads the low
half word (Table 5.4). On an S value each is a machine check, Detail 0x101 (R81, R120). -/
def Obligations.BranchOperations : Prop :=
  ∀ (s : State) (w : WaleId),
    let x := s.current w
    (∀ f t, x.flagS f = false → x.flag f = true → x.mayGo t → Does s w (.bt w f t) (x.setPc t)) ∧
    (∀ f t, x.flagS f = false → x.flag f = false → x.roomFor .inc → Does s w (.bt w f t) (x.setPc (x.micro.pc + 1))) ∧
    (∀ f t, x.flagS f = false → x.flag f = false → x.mayGo t → Does s w (.bf w f t) (x.setPc t)) ∧
    (∀ f t, x.flagS f = false → x.flag f = true → x.roomFor .inc → Does s w (.bf w f t) (x.setPc (x.micro.pc + 1))) ∧
    (∀ g t, x.regS g = false → t.toNat + (x.reg g).toNat % 64 ≤ 0x3FFF →
      x.mayGo (t + BitVec.ofNat 14 ((x.reg g).toNat % 64)) →
      Does s w (.jmpx w g t) (x.setPc (t + BitVec.ofNat 14 ((x.reg g).toNat % 64)))) ∧
    (∀ l g, x.regS g = false → x.roomFor .inc →
      Does s w (.ldlg w l g) ((x.setLoop l ((x.reg g).setWidth 16)).setPc (x.micro.pc + 1))) ∧
    (∀ f t, x.flagS f = true → Checks s w (.bt w f t) 0x101 ∧
      Checks s w (.bf w f t) 0x101) ∧
    (∀ g t l, x.regS g = true → Checks s w (.jmpx w g t) 0x101 ∧
      Checks s w (.ldlg w l g) 0x101)

/-- A wale that does not issue microwords executes none, and one that issues executes none but the operation its stored words spell next (R106, R114): any
other leaves the machine as it is. A word that fails its check at the fetch is a
machine check with its Detail, whatever the operation (R105, R108, R121). -/
def Obligations.OnlyIssuingWalesExecute : Prop :=
  ∀ (s : State) (w : WaleId) (c : Instr), c.microword = some w →
    (s.toBlock.issues w = false → exec c s = .next s) ∧
    (s.toBlock.issues w = true → (s.toBlock.wale w).fetchFault = none → (s.toBlock.wale w).spells w c = false → exec c s = .next s) ∧
    (∀ d, s.toBlock.issues w = true → (s.toBlock.wale w).fetchFault = some d → exec c s = .next (s.to (s.toBlock.machineCheck w d)))

/-- The scalar operations with a register result: the result in D, S where a source is S, and MOVI always P (Table 5.8, Table 5.10); the program
goes on, and no other register, flag or unit changes. CMPEQ and CMPLT (unsigned) write their flag, F0 excepted; OBJLEN gives the length of a valid object, always P. -/
def Obligations.ScalarOperations : Prop :=
  (∀ (s : State) (w : WaleId) (nx : Nx), (s.current w).roomFor nx →
      let x := s.current w
      let sets (d : Reg) (v : W64) (t : Bool) := (x.setReg d v t).past nx
      (∀ d a, Does s w (.mov w d a nx) (sets d (x.reg a) (x.regS a))) ∧
      (∀ d imm, Does s w (.movi w d imm nx) (sets d (imm.setWidth 64) false)) ∧
      (∀ d imm, Does s w (.movs w d imm nx) (sets d (x.reg d * 1024 ||| imm.setWidth 64) (x.regS d))) ∧
      (∀ d a b, Does s w (.add w d a b nx) (sets d (x.reg a + x.reg b) (x.regS a || x.regS b))) ∧
      (∀ d a b, Does s w (.sub w d a b nx) (sets d (x.reg a - x.reg b) (x.regS a || x.regS b))) ∧
      (∀ d a b, Does s w (.and w d a b nx) (sets d (x.reg a &&& x.reg b) (x.regS a || x.regS b))) ∧
      (∀ d a b, Does s w (.or w d a b nx) (sets d (x.reg a ||| x.reg b) (x.regS a || x.regS b))) ∧
      (∀ d a b, Does s w (.xor w d a b nx) (sets d (x.reg a ^^^ x.reg b) (x.regS a || x.regS b))) ∧
      (∀ d a b, Does s w (.shl w d a b nx) (sets d (x.reg a <<< ((x.reg b).toNat % 64)) (x.regS a || x.regS b))) ∧
      (∀ d a b, Does s w (.shr w d a b nx) (sets d (x.reg a >>> ((x.reg b).toNat % 64)) (x.regS a || x.regS b))) ∧
      (∀ d a imm, Does s w (.addi w d a imm nx) (sets d (x.reg a + imm.setWidth 64) (x.regS a))) ∧
      (∀ d f a b, Does s w (.sel w d f a b nx) (sets d (if x.flag f then x.reg a else x.reg b) (x.flagS f || x.regS a || x.regS b)))) ∧
  (∀ (s : State) (w : WaleId) (nx : Nx), (s.current w).roomFor nx →
      let x := s.current w
      (∀ f a b, Does s w (.cmpeq w f a b nx) ((x.setFlag f (decide (x.reg a = x.reg b)) (x.regS a || x.regS b)).past nx)) ∧
      (∀ f a b, Does s w (.cmplt w f a b nx) ((x.setFlag f (decide ((x.reg a).toNat < (x.reg b).toNat)) (x.regS a || x.regS b)).past nx)) ∧
      (∀ d o, (x.micro.o[o]).valid = true →
        Does s w (.objlen w d o nx) ((x.setReg d (BitVec.ofNat 64 (x.micro.o[o]).len) false).past nx)) ∧
      (∀ d o, (x.micro.o[o]).valid = false → Checks s w (.objlen w d o nx) 0x10D))

/-- LDW and STW move the 64-bit word G[B] of an object, least significant byte first (R7): a load takes the tag of the slots it reads, a store of an
S value makes the slots it touches S (R80). An S index is a machine check, Detail 0x102 (R81); an access outside the object or the memory one of
Detail 0x106 (R77). A store changes no byte outside the eight it writes, and a load none. -/
def Obligations.WordAccesses : Prop :=
  ∀ (s : State) (w : WaleId) (nx : Nx) (o b : Reg), (s.current w).roomFor nx →
    let x := s.current w
    let ob := x.micro.o[o]
    let off := 8 * (x.reg b).toNat
    (x.regS b = false → x.inObj o off 8 →
      (∀ d, Does s w (.ldw w d o b nx) ((x.setReg d (BitVec.ofNat 64 (ofLe (x.load ob off 8))) (x.bytesS ob off 8)).past nx)) ∧
      (∀ a, Does s w (.stw w a o b nx) ((x.store ob off (le 8 (x.reg a).toNat) (x.regS a)).past nx) ∧
        ∀ k : Nat, (k < ob.base * x.slotBytes + off ∨ ob.base * x.slotBytes + off + 8 ≤ k) → x.opmem.wf = true →
          (x.store ob off (le 8 (x.reg a).toNat) (x.regS a)).opmem.read k = x.opmem.read k)) ∧
    (ob.valid = true → x.regS b = true → ∀ a,
      Checks s w (.ldw w a o b nx) 0x102 ∧
      Checks s w (.stw w a o b nx) 0x102) ∧
    (ob.valid = true → x.regS b = false → ¬ x.inObj o off 8 → ∀ a,
      Checks s w (.ldw w a o b nx) 0x106 ∧
      Checks s w (.stw w a o b nx) 0x106)

/-! ### The engines of a wale (chapters 04 and 05) -/

/-- The lattice operations whose source is A, on operands that may be read and written: D takes the result, S where A is S (Table 5.8, R112). The
transforms and roundings are their standards' (log 2); A2B and B2A keep the value (log 11: shares are recombined); REMASK changes no value. -/
def Obligations.LatticeUnary : Prop :=
  ∀ (s : State) (w : WaleId) (nx : Nx) (l : LatF), (s.current w).roomFor nx → Legal l →
    let x := s.current w
    let a := latPoly l l.a l.ia
    let d := latPoly l l.d l.id
    let stores (v : Bytes) := (x.result d v (x.secretAt a)).past nx
    x.readable a →
    (Does s w (.remask w l nx) (x.past nx)) ∧
    (x.writable d →
      Does s w (.ntt w l nx) (stores (latFree l 1 0 [x.operand a])) ∧
      Does s w (.intt w l nx) (stores (latFree l 2 0 [x.operand a])) ∧
      Does s w (.a2b w l nx) (stores (x.operand a)) ∧
      Does s w (.b2a w l nx) (stores (x.operand a)) ∧
      (x.param l (fun k => 1 ≤ k ∧ k < latWidth l) →
        Does s w (.compress w l nx) (stores (latFree l 0x0A (x.reg l.ib).toNat [x.operand a])) ∧
        Does s w (.decompress w l nx) (stores (latFree l 0x0B (x.reg l.ib).toNat [x.operand a]))))

/-- The lattice operations of two sources: coefficient by coefficient, modulo q; BASEMUL's product is its standard's and takes q = 3,329 alone
(Table 5.8). D is S where A or B is. -/
def Obligations.LatticeBinary : Prop :=
  ∀ (s : State) (w : WaleId) (nx : Nx) (l : LatF), (s.current w).roomFor nx → Legal l →
    let x := s.current w
    let a := latPoly l l.a l.ia
    let b := latPoly l l.b l.ib
    let d := latPoly l l.d l.id
    let stores (v : Bytes) := (x.result d v (x.secretAt a || x.secretAt b)).past nx
    x.readable a → x.readable b → x.writable d →
    Does s w (.latAdd w l nx) (stores (latZip l (fun u v => u + v) (x.operand a) (x.operand b))) ∧
    Does s w (.latSub w l nx) (stores (latZip l (fun u v => u + (latModOf l - v)) (x.operand a) (x.operand b))) ∧
    Does s w (.mulp w l nx) (stores (latZip l (fun u v => u * v) (x.operand a) (x.operand b))) ∧
    Does s w (.mulm w l nx) (stores (latZip l (fun u v => u * v) (x.operand a) (x.operand b))) ∧
    (l.q = 0 → Does s w (.basemul w l nx) (stores (latFree l 7 0 [x.operand a, x.operand b]))) ∧
    (l.q ≠ 0 → Checks s w (.basemul w l nx) 0x10E)

/-- What those sums, differences and products are: every coefficient of the result is the sum, difference or product of the two coefficients modulo q,
in canonical form, below q. -/
def Obligations.LatticeArithmeticIsModular : Prop :=
  ∀ (l : LatF) (a b : Bytes), l.q ≠ 3 → l.n ≠ 3 →
    let q := latModOf l
    let n := latDeg l
    coeffs n (latZip l (fun u v => u + v) a b) = List.zipWith (fun u v => (u + v) % q) (coeffs n a) (coeffs n b) ∧
    coeffs n (latZip l (fun u v => u * v) a b) = List.zipWith (fun u v => u * v % q) (coeffs n a) (coeffs n b) ∧
    coeffs n (latZip l (fun u v => u + (q - v)) a b) = List.zipWith (fun u v => (u + (q - v % q)) % q) (coeffs n a) (coeffs n b) ∧
    (latZip l (fun u v => u + v) a b).length = 4 * n ∧
    ∀ c ∈ coeffs n (latZip l (fun u v => u + v) a b), c < q

/-- Sampling, encoding and the norm check on legal operands and parameters (Table 5.8, R116): CBD takes n·η/4 bytes, ENCODE writes and DECODE reads
n·width/8 bytes, NORMCHK's flag says whether the infinity norm reaches the bound, UNIFORM takes the whole object. -/
def Obligations.LatticeSampling : Prop :=
  ∀ (s : State) (w : WaleId) (nx : Nx) (l : LatF), (s.current w).roomFor nx → Legal l →
    let x := s.current w
    let k := (x.reg l.ib).toNat
    let n := latDeg l
    let d := latPoly l l.d l.id
    let poly := latPoly l l.a l.ia
    let packed : LatSrc := ⟨l.a, l.ia, n * k / 8⟩
    let noise : LatSrc := ⟨l.a, l.ia, n * k / 4⟩
    let out : LatSrc := ⟨l.d, l.id, n * k / 8⟩
    let stores (r : LatSrc) (v : Bytes) (t : Bool) := (x.result r v t).past nx
    (x.param l (fun e => e = 2 ∨ e = 3) → x.readable noise → x.writable d →
      Does s w (.cbd w l nx) (stores d (latFree l 0x0C k [x.operand noise]) (x.secretAt noise))) ∧
    (x.param l (fun e => 1 ≤ e ∧ e ≤ latWidth l) →
      (x.readable poly → x.writable out →
        Does s w (.encode w l nx) (stores out (algBytes .lattice (0x0D + 32 * k) [le 1 l.q.toNat, x.operand poly] (n * k / 8)) (x.secretAt poly))) ∧
      (x.readable packed → x.writable d → Does s w (.decode w l nx) (stores d (latFree l 0x0E k [x.operand packed]) (x.secretAt packed)))) ∧
    (x.param l (fun e => e ≤ latModOf l) → x.readable poly →
      Does s w (.normchk w l nx) ((x.setFlag l.flag (decide (k ≤ infNorm (latModOf l) (coeffs n (x.operand poly)))) (x.secretAt poly)).past nx)) ∧
    (x.inObj l.a 0 (x.micro.o[l.a]).len → (x.order = 0 → x.objS (x.micro.o[l.a]) = false) → x.writable d →
      Does s w (.uniform w l nx) (stores d (latFree l 0x11 0 [x.load (x.micro.o[l.a]) 0 (x.micro.o[l.a]).len]) (x.objS (x.micro.o[l.a])))) ∧
    (k ≠ 2 → k ≠ 3 → x.regS l.ib = false → Checks s w (.cbd w l nx) 0x10E)

/-- The hash engines of the mask: INIT sets the mode and clears the state, ABSORB appends the bytes and gathers their tag, FINAL pads, SQUEEZE moves
output into the object, S where the engine's state is S (R85, Table 5.8); the other engines and units are unchanged. A length beyond the object is a machine
check, Detail 0x10E (R116). INIT, ABSORB and FINAL reach the engines of their mask alone. An engine takes 64 fresh bits from the wale's DRBG at the start of each
permutation it makes: one for each whole block absorbed, one for the padded block, one for each further rate of output, none in a SHA-2 mode (R85). -/
def Obligations.HashEngines : Prop :=
  (∀ (s : State) (w : WaleId) (nx : Nx) (h : HashF), (s.current w).roomFor nx →
      let x := s.current w
      let n := (x.reg h.len).toNat
      let i := x.micro.o[h.inp]
      let o := x.micro.o[h.out]
      (∀ m : Fin 8, Does s w (.init w h m nx) ((x.eachHash h.mask (fun _ => { mode := m.val + 1 })).past nx)) ∧
      (Does s w (.final w h nx) ((x.runHash h.mask (fun e => { e with padded := true })).past nx)) ∧
      (x.regS h.len = false → x.inObj h.inp 0 n → n ≤ i.len →
        Does s w (.absorb w h nx) ((x.runHash h.mask (fun e => { e with data := e.data ++ x.load i 0 n, taint := e.taint || x.bytesS i 0 n })).past nx)) ∧
      (x.regS h.len = false → x.inObj h.out 0 n → n ≤ o.len →
        Does s w (.squeeze w h nx) ((((engines h.mask).foldl (fun (y : Wale) e => y.store o 0 ((x.micro.hash[e]).output n) (x.micro.hash[e]).taint) x).runHash h.mask
            (fun e => { e with out := e.out + n })).past nx)) ∧
      (x.regS h.len = false → i.valid = true → i.len < n → Checks s w (.absorb w h nx) 0x10E) ∧
      (x.regS h.len = false → o.valid = true → o.len < n → Checks s w (.squeeze w h nx) 0x10E)) ∧
  (∀ (x : Wale) (m : BitVec 4) (f : HashEng → HashEng) (i : Fin 4),
      (x.eachHash m f).micro.hash[i] = (if m.getLsbD i then f x.micro.hash[i] else x.micro.hash[i]) ∧
      (x.eachHash m f).opmem = x.opmem ∧ (x.eachHash m f).micro.g = x.micro.g ∧ (x.eachHash m f).micro.pc = x.micro.pc) ∧
  (∀ (x : Wale) (m : BitVec 4) (f : HashEng → HashEng),
      { x.runHash m f with drbgOut := x.drbgOut } = x.eachHash m f ∧
      (x.runHash m f).drbgOut = x.drbgOut + 8 * ((engines m).map (fun i => (f x.micro.hash[i]).permutations - (x.micro.hash[i]).permutations)).sum) ∧
  (∀ h : HashEng, h.permutations = if h.mode = 0 ∨ 5 < h.mode then 0 else h.data.length / h.rate + b1 h.padded + (h.out - 1) / h.rate)

/-- The eight primitive operations of the big-number engine (R117, Tables 4.7 and 4.8) on operands that may be read: D takes the result and the flag 0, or
zeros and the flag 1 where the operation fails a check; both are P. A secret-level operation writes D and its flag with values the spec does not state (log
14: free values), S where an operand is S. -/
def Obligations.BigNumberOperations : Prop :=
  ∀ (s : State) (w : WaleId) (nx : Nx) (f : BnF), (s.current w).roomFor nx →
    let x := s.current w
    let p := primPar (x.reg f.par)
    let d := x.micro.o[f.d]
    (∀ (o : Prim) (c : Instr),
      (o, c) ∈ [(.modAdd, .bnModAdd w f nx), (.modSub, .bnModSub w f nx), (.modMul, .bnModMul w f nx), (.modRed, .bnModRed w f nx),
        (.modInv, .bnModInv w f nx), (.modExp, .bnModExp w f nx), (.ptAdd, .bnPtAdd w f nx), (.ptMul, .bnPtMul w f nx)] →
      x.bnReady o f →
      let n := o.lens p.len p.elen
      let r := primRun o (p.form == 1) p.elen p.len (x.bnBytes f.a n.1) (x.bnBytes f.b n.2.1) (x.bnBytes f.m n.2.2)
      (∀ v, r = .ok v → Does s w c (((x.store d 0 v false).setFlag f.flag false false).past nx)) ∧
      (∀ e, r = .error e → Does s w c (((x.store d 0 (zeros (o.outLen p.len)) false).setFlag f.flag true false).past nx))) ∧
    (∀ op : BitVec 5, x.regS f.par = false → (x.micro.o[f.a]).valid = true → (x.micro.o[f.b]).valid = true → (x.micro.o[f.m]).valid = true →
      d.valid = true →
      let sec := x.objS (x.micro.o[f.a]) || x.objS (x.micro.o[f.b]) || x.objS (x.micro.o[f.m])
      (x.micro.customer = false ∨ sec = false) →
      (∀ r ∈ [f.a, f.b, f.m, f.d], x.inObj r 0 (x.micro.o[r]).len) →
      ∃ v t, v.length = d.len ∧ Does s w (.bnSecret w op f nx) (((x.store d 0 v sec).setFlag f.flag t sec).past nx))

/-- What ties a microprogram to its job: WAIT_WORK begins the job the wale runs at its entry (R118); KSTORE names the key where the entry permits one, and is a
machine check, Detail 0x103, where it permits none (R119); EMIT appends to the output, DRAW stores drawn bytes as S (Table 5.6); DSLOT makes an object's slots P
(R82); RELEASE presents the result with its status and Detail (R119), the wales of each part compared with each other alone (R48, R93, R150). A DRAW repeats
what another wale of its job has drawn at the same place (R34). DBT branches on the decision it declassifies: on one wale at once; on a pair the lead
presents its decision and holds, and behind its partner's equal one, which the comparator confirms, both branch; unequal ones end the job with Detail 2
(R94, R111). -/
def Obligations.JobMicrowords : Prop :=
  ∀ (s : State) (w : WaleId) (nx : Nx),
    let b := s.toBlock
    let x := s.current w
    (∀ j, x.job.bind b.job = some j → x.st = .running → j.phase = .running → x.micro.issuing = false → x.micro.released = none →
      x.spells w (.waitWork w) = true → exec (.waitWork w) s = .next (s.toWale w ((b.wale w).begin j b.now none [] []))) ∧
    (∀ j, x.job.bind b.job = some j → x.roomFor nx →
      (∀ o, (x.micro.o[o]).valid = true →
        (j.permitsKey = true → x.inObj o 0 (x.micro.o[o]).len → Does s w (.kstore w o nx)
          (({ x with micro := { x.micro with kstore := some (x.load (x.micro.o[o]) 0 (x.micro.o[o]).len) } } : Wale).past nx)) ∧
        (j.permitsKey = false → Checks s w (.kstore w o nx) 0x103)) ∧
      (∀ o off len, x.regS off = false → x.regS len = false →
        let a := (x.reg off).toNat
        let n := (x.reg len).toNat
        x.inObj o a n → a + n ≤ (x.micro.o[o]).len → x.micro.emitted.length + n ≤ j.desc.outCap →
        Does s w (.emit w o off len nx)
          (({ x with micro := { x.micro with emitted := x.micro.emitted ++ x.load (x.micro.o[o]) a n } } : Wale).past nx))) ∧
    (x.roomFor .inc → x.micro.customer = false → ∀ o, (x.micro.o[o]).valid = true → Does s w (.dslot w o)
      (({ x with sTags := x.sTags.filter (fun i => decide (i < (x.micro.o[o]).base) || decide ((x.micro.o[o]).base + (x.micro.o[o]).span ≤ i)) } : Wale).past .inc)) ∧
    (∀ j f t agree, x.job.bind b.job = some j → x.micro.customer = false → x.mayGo t → x.roomFor .inc →
      let y (x : Wale) (d : Bool) : Wale :=
        let z := x.setFlag f d false
        { z with micro := { z.micro with decisions := z.micro.decisions ++ [d], presented := none, pc := if d then t else x.micro.pc + 1 } }
      (x.paired = false → x.second = false → Does s w (.dbt w f t agree) (y x (x.flag f))) ∧
      (∀ p, b.partnerOf w = some p →
        (x.lead = true → Issues s w (.dbt w f t agree) → exec (.dbt w f t agree) s = .next (s.toWale w
          { b.wale w with micro := { (b.wale w).micro with presented := some (x.flag f), count := x.micro.count + 1 } })) ∧
        (x.lead = false → Issues s w (.dbt w f t agree) → ∀ d, (b.wale p).micro.presented = some d →
          (d ≠ x.flag f ∨ agree = false → exec (.dbt w f t agree) s = .next (s.to (b.redundancy j [p, w] 2))) ∧
          (d = x.flag f → agree = true → p ≠ w → (b.wale p).mayGo t → (b.wale p).roomFor .inc → ∃ u, exec (.dbt w f t agree) s = .next u ∧
            (u.toBlock.wale p).micro.pc = (if d then t else (b.wale p).micro.pc + 1) ∧ (u.toBlock.wale w).micro.pc = (if d then t else x.micro.pc + 1) ∧
            (u.toBlock.wale p).flagS f = false ∧ (u.toBlock.wale w).micro.decisions = x.micro.decisions ++ [d] ∧
            { u with wales := b.wales } = s)))) ∧
    (∀ g j, Issues s w (.release w g) → x.regS g = false → x.job.bind b.job = some j → j.wales = [w] → j.timeRed = false → x.micro.released = none →
      j.width ≤ 1 → b.partWales j.id 0 = [w] →
      let y : Wale := { x with micro := { x.micro with issuing := false, released := some ((x.reg g).setWidth 16, ((x.reg g) >>> 16).setWidth 32) } }
      let c := (s.issued w y).toBlock
      exec (.release w g) s = .next (s.to (c.present j.id (c.runResult j y.presents)))) ∧
    (∀ j v, x.job.bind b.job = some j → v ≠ w → j.wales = [w, v] ∨ j.wales = [v, w] → x.second = false → x.roomFor nx → ∀ o off len,
      x.regS off = false → x.regS len = false →
      let a := (x.reg off).toNat
      let n := (x.reg len).toNat
      n < 1048576 → x.inObj o a n → a + n ≤ (x.micro.o[o]).len → x.micro.drawn.length + n ≤ (b.wale v).micro.drawn.length →
      let d := sub (b.wale v).micro.drawn x.micro.drawn.length n
      let y := x.store (x.micro.o[o]) a d true
      Does s w (.draw w o off len nx) (({ y with micro := { y.micro with drawn := y.micro.drawn ++ d } } : Wale).past nx)) ∧
    ((∀ j, x.job.bind b.job = some j → j.wales = [w]) → x.second = false → x.roomFor nx → b.serves (w.val / 16) = true → ∀ o off len, x.regS off = false → x.regS len = false →
      let a := (x.reg off).toNat
      let n := (x.reg len).toNat
      0 < n → n < 1048576 → x.inObj o a n → a + n ≤ (x.micro.o[o]).len → Issues s w (.draw w o off len nx) →
      let d := b.draw n
      let y := x.store (x.micro.o[o]) a d true
      exec (.draw w o off len nx) s =
        .next (s.to ((s.issued w (({ y with micro := { y.micro with drawn := y.micro.drawn ++ d } } : Wale).past nx)).toBlock.seedDraw (w.val / 16) n)))

/-! ### Rings (chapter 07) -/

/-- A tail doorbell of an enabled, running ring in a slice whose doorbells are accepted: a tail inside the ring that does not fall back behind the entries
already covered is taken, and the fetcher reads on; any other halts the ring with cause 0x01 and latches the value (R174). A doorbell of a ring that is
disabled or halted, or of a slice that takes none, changes nothing (Table 9.1). A ring whose head equals its tail is empty: nothing is consumed from it. A head doorbell: a head that has not passed the records written is taken, and rings that waited for room read on; any other halts the ring with cause
0x05 (R178). -/
def Obligations.Doorbells : Prop :=
  (∀ (s : State) (sl : SliceId) (n : RingId) (v : W32),
      let b := s.toBlock
      let q := (b.slice sl).sq[n]
      let k := 2 ^ q.log2.toNat
      let t := v.toNat % 65536
      (q.head = q.tail → b.consumes sl n = false) ∧
      (b.doorbells sl = false ∨ q.enable = false ∨ q.halted = true → exec (.sqTailDoorbell sl n v) s = .next s) ∧
      (b.doorbells sl = true → q.enable = true → q.halted = false →
        (t < k → (q.tail + k - q.head) % k ≤ (t + k - q.head) % k →
          exec (.sqTailDoorbell sl n v) s = .next (s.to ((b.modSq sl n (fun q => { q with tail := t })).fetch sl n))) ∧
        (k ≤ t ∨ (t + k - q.head) % k < (q.tail + k - q.head) % k →
          exec (.sqTailDoorbell sl n v) s = .next (s.to (b.haltSq sl n 0x01 (BitVec.ofNat 16 t) 0))))) ∧
  (∀ (s : State) (sl : SliceId) (n : RingId) (v : W32),
      let b := s.toBlock
      let c := (b.slice sl).cq[n]
      let k := 2 ^ c.log2.toNat
      let h := v.toNat % 65536
      (b.doorbells sl = false ∨ c.enable = false ∨ c.halted = true → exec (.cqHeadDoorbell sl n v) s = .next s) ∧
      (b.doorbells sl = true → c.enable = true → c.halted = false →
        (h < k → (c.tail + k - h) % k ≤ (c.tail + k - c.head) % k →
          exec (.cqHeadDoorbell sl n v) s = .next (s.to ((b.modCq sl n (fun c => { c with head := h })).resumeRings sl))) ∧
        (k ≤ h ∨ (c.tail + k - c.head) % k < (c.tail + k - h) % k →
          exec (.cqHeadDoorbell sl n v) s = .next (s.to (b.haltCq sl n 0x05 (BitVec.ofNat 16 h) 0)))))

/-- What the fetcher asks for: on a ring that consumes and has no read under way, one read of at most eight entries from the head, not past the ring's end,
charged to the slice; on any other ring, or with 768 host reads outstanding (R163), nothing (R176, R179). The entries a read brings (R175 to R177): with no read under
way nothing happens, but on a halted ring they answer a read that has failed and are unexpected (R199); a failed read
halts the ring with cause 0x03 at its head. A covered entry with OWN set is consumed: the head moves on, its Control byte is written as zero, and it is admitted;
then the next entry of the read is looked at, and when none is left the ring fetches on. A read whose first entry has OWN clear consumes none: it counts as the
first of up to eight reads. A retry that finds OWN clear counts on, and the eighth halts the ring with cause 0x02 at that entry, which stays unconsumed; one that
finds OWN set consumes the entry. The answer of a read that all 768 tags were taken for lets what waited for one go on (log 151). -/
def Obligations.DescriptorFetching : Prop :=
  (∀ (b : Block) (sl : SliceId) (n : RingId),
      let q := (b.slice sl).sq[n]
      (b.consumes sl n = false ∨ q.busy = true ∨ q.tries ≠ 0 ∨ b.tagFree = false → b.fetch sl n = b) ∧
      (b.consumes sl n = true → q.busy = false → q.tries = 0 → b.tagFree = true →
        (b.fetch sl n).link = .read (q.base + BitVec.ofNat 64 (64 * q.head)) (64 * min 8 (2 ^ q.log2.toNat - q.head)) (b.pasid sl) :: b.link ∧
        ((b.fetch sl n).slice sl).sq[n] = { q with busy := true, seen := q.tail } ∧
        (b.fetch sl n).jobs = b.jobs ∧ (b.fetch sl n).kst = b.kst ∧ (b.fetch sl n).wales = b.wales) ∧
      (∀ d, b.consume sl n d =
        ((b.modSq sl n (fun q => { q with head := (q.head + 1) % 2 ^ q.log2.toNat, tries := 0 })).hostWrite sl
          (q.base + BitVec.ofNat 64 (64 * q.head + 63)) [0]).admitJob sl n q.head d)) ∧
  (∀ (s : State) (sl : SliceId) (n : RingId),
      let b := s.toBlock
      let q := (b.slice sl).sq[n]
      let k := 2 ^ q.log2.toNat
      let a := q.base + BitVec.ofNat 64 (64 * q.head)
      let idle := b.modSq sl n (fun q => { q with busy := false })
      (b.tagFree = true → ∀ c, Block.tagFreed b c = c) ∧
      (q.busy = false → q.halted = false → ∀ r, exec (.descriptorFetch sl n r) s = .next s) ∧
      (q.busy = false → q.halted = true → ∀ r, exec (.descriptorFetch sl n r) s = .next (s.to b.unexpected)) ∧
      (q.busy = true → exec (.descriptorFetch sl n none) s = .next (s.to <| Block.tagFreed b (idle.haltSq sl n 0x03 (BitVec.ofNat 16 q.head) a))) ∧
      (q.busy = true → idle.consumes sl n = true → q.head < k → q.seen ≠ q.head → q.seen < k →
        (∀ e, (parseDesc e).own = true → exec (.descriptorFetch sl n (some [e])) s = .next (s.to <| Block.tagFreed b ((idle.consume sl n (parseDesc e)).fetch sl n))) ∧
        (∀ e r, (parseDesc e).own = true → exec (.descriptorFetch sl n (some (e :: r))) s = .next (s.to <| Block.tagFreed b
          ((Block.takeEntries sl n (r.take (min 8 (k - q.head) - 1)) ((q.seen + k - q.head) % k - 1) (idle.consume sl n (parseDesc e))).fetch sl n))) ∧
        (∀ e r, (parseDesc e).own = false → exec (.descriptorFetch sl n (some (e :: r))) s = .next (s.to <| Block.tagFreed b
          ((idle.modSq sl n (fun q => { q with tries := 1 })).fetch sl n)))) ∧
      (b.consumes sl n = true → 0 < q.tries →
        let asked := (b.emit (.read a 64 (b.pasid sl))).charge sl 64
        (∀ e r, (parseDesc e).own = false → q.tries < 7 →
          exec (.ownRetry sl n (some (e :: r))) s = .next (s.to (asked.modSq sl n (fun q => { q with tries := q.tries + 1 })))) ∧
        (∀ e r, (parseDesc e).own = false → 7 ≤ q.tries →
          exec (.ownRetry sl n (some (e :: r))) s = .next (s.to (asked.haltSq sl n 0x02 (BitVec.ofNat 16 q.head) a))) ∧
        (exec (.ownRetry sl n none) s = .next (s.to (asked.haltSq sl n 0x03 (BitVec.ofNat 16 q.head) a))) ∧
        (∀ e r, (parseDesc e).own = true →
          exec (.ownRetry sl n (some (e :: r))) s = .next (s.to ((asked.consume sl n (parseDesc e)).fetch sl n)))))

/-- Configuration of rings (Tables 7.6 and 7.7, R171, R182). A submission ring without open entries takes a size of 2^4 to 2^16 and an enabled completion
ring, and starts empty; disabling discards a fetch in progress. A completion ring that awaits no record takes a legal size and a vector below the slice's
count; it is disabled once no submission ring needs it. The error latch (R184) holds the first error since it was cleared: a second one while VALID is 1 sets OVF
and is otherwise not recorded; writing 1 to VALID clears it with OVF, the error fields and DBL_ERR_LOST, and keeps its interrupt settings. -/
def Obligations.RingConfiguration : Prop :=
  (∀ (s : State) (sl : SliceId) (n : RingId) (cfg : W32), s.toBlock.pageOpen sl = true →
    let b := s.toBlock
    let q := (b.slice sl).sq[n]
    let c := (b.slice sl).cq[n]
    let l := bits cfg.toNat 20 16
    let cq : Fin 8 := Fin.ofNat 8 (bits cfg.toNat 2 0)
    let v := bits cfg.toNat 10 0
    (q.enable = true → exec (.sqEnable sl n cfg) s = .next s) ∧
    (q.enable = false → q.open_ = 0 → 4 ≤ l → l ≤ 16 → ((b.slice sl).cq[cq]).enable = true →
      ∃ t, exec (.sqEnable sl n cfg) s = .next t ∧ t.pending = s.pending ∧
        (t.toBlock.slice sl).sq[n] =
          { q with log2 := BitVec.ofNat 5 l, cq := cq, enable := true, head := 0, tail := 0, halted := false, tries := 0, busy := false } ∧
        (∀ m, m ≠ n → (t.toBlock.slice sl).sq[m] = (b.slice sl).sq[m]) ∧ (t.toBlock.slice sl).cq = (b.slice sl).cq ∧
        (t.toBlock.slice sl).err = (b.slice sl).err ∧ t.link = s.link ∧ t.jobs = s.jobs) ∧
    (exec (.sqDisable sl n) s =
      .next (s.to (b.modSq sl n (fun q => { q with enable := false, halted := false, tries := 0, busy := false })))) ∧
    (c.enable = true → exec (.cqEnable sl n cfg) s = .next (s.to (b.modCq sl n (fun c => { c with irqEn := cfg.getLsbD 30 })))) ∧
    (c.enable = false → c.a = 0 → 4 ≤ l → l ≤ 16 → v < (b.slice sl).vecCount →
      ∃ t, exec (.cqEnable sl n cfg) s = .next t ∧ t.pending = s.pending ∧
        (t.toBlock.slice sl).cq[n] = { c with irqEn := cfg.getLsbD 30, log2 := BitVec.ofNat 5 l, vector := BitVec.ofNat 11 v, mute := false,
                                              enable := true, head := 0, tail := 0, a := 0, halted := false, ann := 0 } ∧
        (∀ m, m ≠ n → (t.toBlock.slice sl).cq[m] = (b.slice sl).cq[m]) ∧ (t.toBlock.slice sl).sq = (b.slice sl).sq ∧ t.link = s.link) ∧
    ((∀ m : RingId, ((b.slice sl).sq[m]).cq = n → ((b.slice sl).sq[m]).enable = false ∧ ((b.slice sl).sq[m]).open_ = 0) →
      exec (.cqDisable sl n) s = .next (s.to (b.modCq sl n (fun c => { c with enable := false, halted := false })))) ∧
    (exec (.dblErrClear sl) s =
      .next (s.to (b.modSlice sl (fun x => { x with err := { irqEn := x.err.irqEn, vector := x.err.vector, mute := x.err.mute } }))))) ∧
  (∀ (b : Block) (sl : SliceId) (code : Byte) (isCq : Bool) (n : RingId) (index : W16) (a : W64),
    let e := (b.slice sl).err
    let b' := b.latchRing sl code isCq n index a
    (e.valid = false → (b'.slice sl).err =
      { e with valid := true, code := code, cq := isCq, ring := n, index := index, addr := a, time := b.now }) ∧
    (e.valid = true → b' = b.modSlice sl (fun x => { x with err := { x.err with ovf := true } })))

/-- One entry of a gather list of a job whose lists are walked (R196, Tables 8.4 and 8.5): a legal data entry adds its piece and the walk asks for the entry
behind it; a legal link leads to the segment it names, at most 64 of them; the last entry ends the list, whose pieces must sum to the declared length
(LENGTH_MISMATCH with the sum), and the job walks its next list or waits for its grant. An illegal entry ends the job with cause 0x10, more than 64 links with
0x20, more than 4,096 data entries with 0x21, a link back to one of the last eight segments with 0x22, a failed read with the cause of its answer. The answer to a
read that has failed already is unexpected (R199). -/
def Obligations.GatherWalk : Prop :=
  ∀ (s : State) (id : Nat) (buf : Buf) (j : Job), s.toBlock.job id = some j → j.phase = .walking → j.walkAsked = true → j.ended = false →
    j.walks.head? = some buf → j.walkAt.toNat % 16 = 0 →
    let b := s.toBlock
    let pcs := Tab.get [] j.pieces (Buf.code buf)
    let segs := if j.segs.isEmpty then [j.walkAt] else j.segs
    let at_ (d : Bytes) : W64 := BitVec.ofNat 64 (fld d 0 8)
    let grown (d : Bytes) : Job := { j.walkTo (j.walkAt + 16) with
      pieces := Tab.put j.pieces (Buf.code buf) (pcs ++ [(at_ d, fld d 8 4)]), segs := segs, segCount := j.segCount + 1 }
    let fails (d : Bytes) (cause : Byte) : Prop := exec (.gatherEntryRead id buf (.data d)) s = .next (s.to <| Block.tagFreed b (b.walkFails j cause j.walkAt))
    (∀ d, addrForm (at_ d) = 0 → 0 < fld d 8 4 → fld d 8 4 ≤ 16777216 →
      (pcs.length < 4096 →
        (fld d 12 4 = 0 → j.segCount < 255 →
          exec (.gatherEntryRead id buf (.data d)) s = .next (s.to <| Block.tagFreed b ((b.modJob id (fun _ => grown d)).askEntry id))) ∧
        (fld d 12 4 = 2 → exec (.gatherEntryRead id buf (.data d)) s = .next (s.to <| Block.tagFreed b ((b.modJob id (fun _ => grown d)).walkEnds (grown d) buf)))) ∧
      (4096 ≤ pcs.length → fld d 12 4 = 2 → fails d 0x21)) ∧
    (∀ d, addrForm (at_ d) = 0 → (at_ d).toNat % 16 = 0 → fld d 8 4 = 0 → fld d 12 4 = 1 →
      (j.links < 64 → at_ d ∉ segs → exec (.gatherEntryRead id buf (.data d)) s = .next (s.to <| Block.tagFreed b ((b.modJob id (fun j =>
        { j.walkTo (at_ d) with links := j.links + 1, segs := (at_ d :: segs).take 8, segCount := 0 })).askEntry id))) ∧
      (64 ≤ j.links → fails d 0x20) ∧
      (j.links < 64 → at_ d ∈ segs → fails d 0x22)) ∧
    (∀ d, 3 ≤ fld d 12 4 ∨ (fld d 12 4 ≠ 1 ∧ fld d 8 4 = 0) ∨ addrForm (at_ d) ≠ 0 → fails d 0x10) ∧
    (exec (.gatherEntryRead id buf .unsupported) s = .next (s.to <| Block.tagFreed b (b.walkFails j 0x01 j.walkAt))) ∧
    (exec (.gatherEntryRead id buf .completerAbort) s = .next (s.to <| Block.tagFreed b (b.walkFails j 0x02 j.walkAt))) ∧
    (exec (.gatherEntryRead id buf .poisoned) s = .next (s.to <| Block.tagFreed b (b.walkFails j 0x03 j.walkAt))) ∧
    (exec (.gatherEntryRead id buf .uncorrectable) s = .next (s.to <| Block.tagFreed b (b.walkFails j 0x03 j.walkAt))) ∧
    (exec (.gatherEntryRead id buf .late) s = .next (s.to b.unexpected)) ∧
    (let sum := pcs.foldl (fun a p => a + p.2) 0;
      (sum ≠ j.declared buf → b.walkEnds j buf = b.failJob id St.lengthMismatch (BitVec.ofNat 32 (min sum 0xFFFFFFFF))) ∧
      (sum = j.declared buf →
        (j.walks = [buf] → b.walkEnds j buf = (b.modJob id (fun j =>
          { j.walkTo 0 with walks := [], links := 0, segs := [], segCount := 0, phase := .ready })).askEntry id) ∧
        (∀ x r, j.walks = buf :: x :: r → b.walkEnds j buf = (b.modJob id (fun i =>
          { i.walkTo (listStart j.desc x) with walks := x :: r, links := 0, segs := [], segCount := 0 })).askEntry id)))

/-! ### The dispatcher and the wales (chapters 04 and 06) -/

/-- What a request of a level serves (R135 to R137): a job of that level, on a ready list, the first that fits among the first eight of its slice's list; the pass over
the slices changes deficits and the pointer alone. -/
def Obligations.ServedJobFits : Prop :=
  ∀ (fit : Job → Bool) (lvl id : Nat) (l : List Nat) (b b' : Block), Block.serve fit lvl l b = (b', some id) →
    (∃ j ∈ b.jobs, j.id = id ∧ fit j = true ∧ j.listed = true ∧ j.level.val = lvl ∧ ((b.listAt lvl j.list).take 8).find? fit = some j) ∧
    { b' with dsp := { b'.dsp with deficit := b.dsp.deficit, pointer := b.dsp.pointer } } = b

/-- GRANT (R136 to R140, R144, R145): a wale that may not ask takes nothing. One that asks, with no job to leave first, is given the reserved job of its quadrant if
that fits, else the job served from the highest level down, from above the reserved job's level while one waits; the jobs examined and passed over are noted; a new
DDR5 object beyond its slice's free reservation fails the job with QUOTA, Detail 5 (R217). A job of an empty footprint starts without a wale, and a failed skein
member's grant is counted and its record issued. -/
def Obligations.GrantServes : Prop :=
  ∀ (s : State) (w : WaleId),
    let b := s.toBlock
    let fit := fun j => (b.plan j w).isSome
    (b.asks w = false → exec (.grant (some w)) s = .next s) ∧
    (b.asks w = true → b.dropWithdrawn = b →
      (∀ r p, b.reservedJob (w.val / 16) = some r → b.job r.id = some r → r.ddrNeed = 0 → b.plan r w = some p →
        exec (.grant (some w)) s = .next (s.to (b.startJob r p))) ∧
      (∀ lo, (match b.reservedJob (w.val / 16) with | some r => fit r = false ∧ lo = r.level.val + 1 | none => lo = 0) →
        ∀ b' id, Block.serveFrom fit lo 8 b = (b', id) →
          let c := b'.passedBy (b.examined lo (id.bind b.job)) fit (fun j => b.fitsElse j w)
          (id = none → exec (.grant (some w)) s = .next (s.to c)) ∧
          (∀ n j, id = some n → c.job n = some j →
            (∀ p, j.ddrNeed = 0 → c.plan j w = some p → exec (.grant (some w)) s = .next (s.to (c.startJob j p))) ∧
            (j.phase = .ready → j.ddrNeed ≠ 0 → (c.slice j.slice).quota.ddr5 * 256 < c.ddrOf j.slice + c.ddrDue j.slice + j.ddrNeed →
              exec (.grant (some w)) s = .next (s.to (c.failJob n St.quota 5)))))) ∧
    (b.dispatches = true → b.pwr.ioutHold = false → b.dropWithdrawn = b → ∀ b' id, Block.serveFrom b.startsEmpty 0 8 b = (b', id) →
      let c := b'.passedBy (b.examined 0 (id.bind b.job)) b.startsEmpty (fun _ => false)
      (id = none → exec (.grant none) s = .next (s.to c)) ∧
      (∀ n j, id = some n → c.job n = some j →
        (j.ended = false → exec (.grant none) s = .next (s.to (c.startJob j { quad := c.emptyQuad j, seats := [] }))) ∧
        (j.ended = true →
          let d := c.countWait j
          let e := ({ d with dsp := { d.dsp with grants := d.dsp.grants.add 1 } } : Block)
          exec (.grant none) s = .next (s.to (((e.modJob j.id (fun x => { x with phase := .waiting, holding := !e.isHead j })).dryDeficit j.level j.list).finish j.id))))) ∧
    (b.dispatches = false ∨ b.pwr.ioutHold = true → exec (.grant none) s = .next s)

/-- PROMOTION (R134): after a full period below its slice's ceiling a job that waits on a list stands one level up, and nothing of another job, the key store
or a ring changes. At the ceiling, with promotion off, or off the lists, nothing happens. RESERVATION (R139): a job that only a partner, code engines or
shared memory kept from a wale, every other condition of Table 6.1 being met, becomes, RESERVE after it was first passed over for that, the reserved job of a quadrant without one that has the most of what it
misses free, the lowest number among equals; a spilled job only of its own quadrant. A job that no wale would fit but for these is not reserved. -/
def Obligations.PromotionAndReservation : Prop :=
  (∀ (s : State) (id : Nat) (j : Job), s.toBlock.job id = some j →
      let b := s.toBlock
      (j.listed = false ∨ b.promoteNs = 0 ∨ (b.slice j.slice).ceiling ≤ j.level → exec (.promotion id) s = .next s) ∧
      (j.listed = true → b.promoteNs ≠ 0 → j.level < (b.slice j.slice).ceiling →
        ∃ t, exec (.promotion id) s = .next t ∧ t.pending = s.pending ∧
          t.now = (if b.elapsed j.levelAt < b.promoteNs then j.levelAt + BitVec.ofNat 64 b.promoteNs else b.now) ∧
          t.jobs = b.jobs.map (fun k => if k.id = id then { k with level := j.level + 1, levelAt := t.now } else k) ∧
          t.dsp.promotions = b.dsp.promotions.add 1 ∧ t.kst = b.kst ∧ t.slices = b.slices ∧ t.quads = b.quads ∧ t.chans = b.chans ∧ t.link = b.link)) ∧
  (∀ (s : State) (id : Nat) (j : Job), s.toBlock.job id = some j → j.listed = true → j.ended = false → j.entry.wales ≠ 0 →
      let b := s.toBlock
      let mayHold (q : Nat) : Prop := b.quadAvail q = true ∧ b.reservedJob q = none ∧ (j.phase = .spilled → q = j.quad) ∧
        (j.phase ≠ .spilled → b.fenceDue (.quad q) = false ∧ (j.entry.draws = true → b.delivers q = true))
      ((∀ w < 64, b.fitsElse j w = false) → exec (.reservation id) s = .next s) ∧
      (b.anyFit j = false → (∃ w < 64, b.fitsElse j w = true) →
      (∀ q < 4, (b.reservedJob q).any (fun r => r.id == id) = false) →
      (j.passedOver = none → exec (.reservation id) s = .next s) ∧
      (∀ at_, j.passedOver = some at_ → (∃ q < 4, mayHold q) →
        ∃ q < 4, mayHold q ∧
          (∀ p < 4, mayHold p → b.missingFree j p < b.missingFree j q ∨ (b.missingFree j p = b.missingFree j q ∧ q ≤ p)) ∧
          let b' := b.advanceTo at_ b.reserveNs
          exec (.reservation id) s = .next (s.to { b' with dsp := { b'.dsp with reserved := Tab.put b'.dsp.reserved q id } }))))

/-- PREEMPTION (R151): of the wales that lead a victim part, the one at the lowest level, then with the fewest bytes touched, then of the lowest index, is
asked to trap, and nothing else changes but the counter. With no victim nothing is asked. -/
def Obligations.PreemptionPicksTheLeastVictim : Prop :=
  ∀ (s : State) (id : Nat) (j : Job), s.toBlock.job id = some j → j.listed = true → j.ended = false → j.entry.wales ≠ 0 →
    s.toBlock.preemptDelta ≠ 0 → s.toBlock.anyFit j = false → s.toBlock.dispatches = true →
    let b := s.toBlock.advanceTo j.readySince s.toBlock.preemptNs
    let lvl (w : WaleId) : Nat := ((b.victim j w).map (·.level.val)).getD 8
    ((∀ w, b.victim j w = none) → exec (.preemption id) s = .next (s.to b)) ∧
    ((∃ w, (b.victim j w).isSome = true) →
      ∃ w, (b.victim j w).isSome = true ∧
        (∀ v, (b.victim j v).isSome = true →
          lvl w < lvl v ∨ (lvl w = lvl v ∧ ((b.wale w).touched < (b.wale v).touched ∨ ((b.wale w).touched = (b.wale v).touched ∧ w ≤ v)))) ∧
        exec (.preemption id) s = .next (s.to
          ({ b with dsp := { b.dsp with preempts := b.dsp.preempts.add 1 } }.modWale w (fun x => { x with trapWanted := true }))))

/-- Spilling and restoring (R102, R123 to R125, R152): at a microword's boundary, before its RELEASE and with no decision presented, a wale asked to trap enters
SPILLING with its run's cycles counted; a lead asks its partner to trap at the same microword, and the job stands spilled. When the copy is complete the spill
region holds the wale's frame and slots in pages of its own and the wale wipes; the job waits again, with the promotion age it had, once the copies of a part are
complete, and a further part adds to the parts that wait. A restored wale runs on with the
saved micro-state, its objects placed afresh under its own slot length, the copy is gone and its pages are wiped; with the job's last part the job runs again. A
wale that was not asked, or is not spilling, is left alone. -/
def Obligations.SpillAndRestore : Prop :=
  ∀ (s : State) (w : WaleId),
    let b := s.toBlock
    let x := b.wale w
    let q := w.val / 16
    (x.job = none ∨ x.trapWanted = false ∨ x.st ≠ .running → exec (.microTrap w) s = .next s) ∧
    (x.job = none ∨ x.st ≠ .spilling → exec (.spillEnd w) s = .next s ∧ exec (.restoreEnd w) s = .next s) ∧
    (∀ id, x.job = some id →
      (∀ j, b.job id = some j → j.phase = .running ∨ j.phase = .spilled → x.trapWanted = true → x.st = .running → x.micro.field = 0 →
        x.micro.released = none → x.micro.presented = none → x.trapAt = none ∨ x.trapAt = some x.micro.count →
        let b₁ := b.modWale w (fun y => { y with st := .spilling, trapWanted := false, trapAt := none, micro := { y.micro with cycles := b.cyclesRun w } })
        let b₂ := if x.lead ∧ x.paired
          then b₁.modWale (w.val / 16 * 16 + x.partner) (fun y => { y with trapWanted := true, trapAt := some x.micro.count }) else b₁
        exec (.microTrap w) s = .next (s.to (b₂.modJob id (fun j => { j with phase := .spilled })))) ∧
      (x.st = .spilling →
        let mine := fun (y : Spill) => y.job == id && y.part == x.part && y.lead == x.lead
        let pages := b.takePages q 1792 2048 (roundUp (x.touched + 8192) 4096 / 4096)
        ((b.quad q).spills.any mine = false →
          ∃ t, exec (.spillEnd w) s = .next t ∧ t.pending = s.pending ∧
            (t.toBlock.quad q).spills = (b.quad q).spills ++
              [⟨id, x.part, w.val, x.lead, x.micro, x.opmem, x.sTags, x.slotLen, x.touched, x.timeRed, x.second, pages⟩] ∧
            (t.toBlock.quad q).mem = ((b.storeSpill w pages).quad q).mem ∧
            t.toBlock.wale w = x.startWipe ∧ (∀ v, v ≠ w.val → t.toBlock.wale v = b.wale v) ∧
            t.jobs = b.jobs.map (fun j => if j.id ≠ id then j else
              let k := { j with wales := j.wales.filter (· != w) }
              if ∃ v ∈ b.partWales id x.part, v ≠ w then k
              else if j.spare ≠ 0 then { k with spare := j.spare + 1 }
              else { k with spare := 1, readySince := b.now, levelAt := b.now - BitVec.ofNat 64 j.waited })) ∧
        (∀ y, (b.quad q).spills.find? mine = some y →
          ∃ c : Block,
            (c.quad q).spills = (b.quad q).spills.filter (fun k => !(mine k)) ∧
            (c.quad q).mem = (b.quad q).mem.filter (fun z => !y.pages.contains (z.1 / 4096)) ∧
            (c.quad q).memS = (b.quad q).memS.filter (fun p => !y.pages.contains p) ∧
            (c.wale w).st = .running ∧ (c.wale w).job = some id ∧
            { (c.wale w).micro with o := y.micro.o } = y.micro ∧ (∀ o : Reg, ((c.wale w).micro.o[o]).len = (y.micro.o[o]).len) ∧
            (c.wale w).timeRed = y.timeRed ∧ (c.wale w).second = y.second ∧
            (∀ v, v ≠ w.val → { c.wale v with slotLen := (b.wale v).slotLen, slotPend := (b.wale v).slotPend } = b.wale v) ∧
            c.kst = b.kst ∧ c.slices = b.slices ∧ c.jobs = b.jobs ∧
            exec (.restoreEnd w) s = .next (s.to (
              if (c.quad q).spills.any (fun k => k.job == id) ∨ (List.range 64).any (fun i => (c.wale i).job == some id && (c.wale i).st == .spilling) then c
              else (c.modJob id (fun j => { j with phase := .running })).pump id)))))

/-- The idle life of a wale (R98, R99, R153, R276): a wipe that reads zero ends in state 2 with the slot length set for it, one that does not fences the wale
with a note of kind 0x06; a wake ends in state 2 with the operand memory empty, and a cold wale takes a seed where its seeder delivers; GATE_DELAY and
COLD_DELAY take it to states 1 and 0, the last with its DRBG and operand memory gone, unless the DRBG is seeded and its seeder does not deliver. A wale that wakes
waits at its seeder behind the reseeds of Table 11.7 (R274). A quadrant's PLL (R349 to R351): PLL_STOP stops that of a quiet quadrant after its delay, PLL_LOCK
locks one that runs, which reaches the bin it was to change to, and PLL_LOCK_LOSS fences the quadrant and fails its jobs with UNIT_FAULT 0x701. -/
def Obligations.WaleSleepsAndWakes : Prop :=
  ∀ (s : State) (w : WaleId),
    let b := s.toBlock
    let x := b.wale w
    let q := w.val / 16
    let run := match x.runSlice with
      | some sl => b.modSlice sl (fun z => { z with ctr := { z.ctr with run := z.ctr.run.add (b.elapsed x.runFrom) } })
      | none => b
    (∀ z, x.st ≠ .wiping → exec (.wipeEnd w z) s = .next (s.to b.csContinue.takeFences)) ∧
    (x.st = .wiping →
      exec (.wipeEnd w true) s = .next (s.to (run.idleWale w).startRuns.refill.csContinue.takeFences) ∧
      exec (.wipeEnd w false) s = .next (s.to
        ((((run.idleWale w).modWale w (fun y => { y with drbgSeeded := false })).note (Src.waleUnit w 8) 0x06 1 (openDetail 0x06)).startRuns.refill.csContinue.takeFences))) ∧
    (x.waking = false ∨ (b.quad q).pllLocked = false ∨ (x.st ≠ .gated ∧ x.st ≠ .clockGated) → exec (.waleWakeEnd w) s = .next s) ∧
    (x.waking = true → (b.quad q).pllLocked = true → x.job = none →
      (x.st = .clockGated ∨ (x.st = .gated ∧ b.delivers q = false) →
        exec (.waleWakeEnd w) s = .next (s.toWale w { x with
          st := .warm, waking := false, idleSince := b.now, opmem := [], sTags := [], drbgSeeded := x.drbgSeeded && decide (x.st ≠ .gated) })) ∧
      (x.st = .gated → b.delivers q = true →
        exec (.waleWakeEnd w) s = .next (s.to (((s.toWale w { x with
          st := .warm, waking := false, idleSince := b.now, opmem := [], sTags := [], drbgSeeded := true, drbgLog := 6, drbgWant := false,
          drbgUrgent := false, drbgSent := false }).toBlock.serveRanks q).seedDraw q 48)))) ∧
    (x.st ≠ .warm ∨ b.freeWale w = false ∨ b.beyond w = false → exec (.gateDelay w) s = .next s) ∧
    (x.st = .warm → b.freeWale w = true → b.beyond w = true →
      let b' := b.advanceTo x.idleSince (b.gateNs (quadOf w))
      exec (.gateDelay w) s = .next (s.to (b'.modWale w (fun y => { y with st := .clockGated, idleSince := b'.now })))) ∧
    (x.drbgSeeded = true → (b.seeder q).st = .paused ∨ (b.seeder q).st = .stopped → exec (.coldDelay w) s = .next s) ∧
    (x.st = .clockGated → b.freeWale w = true → x.waking = false →
      (x.drbgSeeded = true → (b.seeder q).st ≠ .paused ∧ (b.seeder q).st ≠ .stopped) →
      let b' := b.advanceTo x.idleSince (b.coldNs (quadOf w))
      exec (.coldDelay w) s = .next (s.to ((b'.modWale w (fun y => { y with
        st := .gated, drbgSeeded := false, opmem := [], sTags := [], idleSince := b'.now })).modQuad q (fun z => { z with quietSince := b'.now })))) ∧
    (∀ p : QuadId,
      let z := b.quad p
      (z.pllRun = false ∨ b.quiet p = false → exec (.pllStop p) s = .next s) ∧
      (z.pllRun = true → b.quiet p = true → exec (.pllStop p) s = .next (s.to
        ((b.advanceTo z.quietSince (bits b.pwr.cfg.toNat 31 24 * 1000000)).modQuad p (fun z => { z with pllRun := false, pllLocked := false })))) ∧
      (z.pllRun = false → exec (.pllLock p) s = .next s) ∧
      (z.pllRun = true → z.binTo = none → exec (.pllLock p) s =
        .next (s.to ((b.modQuad p (fun z => { z with pllLocked := true, onNet := b.pwr.derated })).pumpQuad p))) ∧
      (∀ k, z.pllRun = true → z.binTo = some k → exec (.pllLock p) s =
        .next (s.to (((b.reachBin p k).modQuad p (fun z => { z with pllLocked := true, onNet := b.pwr.derated })).pumpQuad p))) ∧
      (z.pllLocked = false → exec (.pllLockLoss p) s = .next s) ∧
      (z.pllLocked = true → exec (.pllLockLoss p) s = .next (s.to
        (((b.modQuad p (fun z => { z with pllLocked := false, pllRun := false })).failQuad p St.unitFault 0x701).note (Src.quadUnit p 3) 0x12 1 0x701))))

/-- The compare and the monitors (R48, R93 to R97, R122): a part that matches counts, and the last of them passes the result on; a mismatch of a part raises a
redundancy note on each of its wales and ends the job with REDUNDANCY_MISMATCH, Detail 4 at class 1, 3 in a time-redundant job, 1 on a pair. A job not at the
comparators is left alone. A run past its cycle limit, a customer entry's in units of 1,024 cycles, is a machine check, Detail 0x10F; an engaged leveller out of
its band raises a note of kind 0x07 and fails the wale's job with UNIT_FAULT 0x401. -/
def Obligations.CompareAndMonitors : Prop :=
  ∀ (s : State) (w : WaleId) (id : Nat) (j : Job),
    let b := s.toBlock
    let x := b.wale w
    (b.job id = some j → j.phase ≠ .comparing ∨ j.ended = true → ∀ p a, exec (.compareEnd id ⟨p, a⟩) s = .next s) ∧
    (b.job id = some j → j.phase = .comparing → j.ended = false → ∀ p, p < j.width →
      let c := b.modJob id (fun j => { j with passedParts := insertNat p j.passedParts })
      ((∀ k < j.width, k = p ∨ k ∈ j.passedParts) → exec (.compareEnd id ⟨p, true⟩) s = .next (s.to (c.passed id))) ∧
      ((∃ k < j.width, k ≠ p ∧ k ∉ j.passedParts) → exec (.compareEnd id ⟨p, true⟩) s = .next (s.to c)) ∧
      exec (.compareEnd id ⟨p, false⟩) s = .next (s.to (b.redundancy j (j.wales.filter (fun w => (b.wale w).part == p))
        (if j.entry.cls = 1 then 4 else if j.timeRed then 3 else 1)))) ∧
    (x.st = .running → x.job = some id → b.job id = some j → exec (.cycleLimit w) s = .next (s.to
      ((b.advanceTo x.runAt ((j.entry.cycleLimit - x.micro.cycles) * 1000000 / b.waleKhz (w.val / 16) + 1)).machineCheck w 0x10F))) ∧
    (j.entry.customer = true → j.entry.cycleLimit = 1024 * j.entry.limit) ∧
    (x.st ≠ .running → exec (.cycleLimit w) s = .next s) ∧
    (x.levelOn = false → exec (.levellerOutOfBand w) s = .next s) ∧
    (x.levelOn = true →
      let b' := b.raise { source := Src.waleUnit w 5, kind := 0x07, cls := 2, detail := 0x401, job := x.job }
      (x.job = none → exec (.levellerOutOfBand w) s = .next (s.to b')) ∧
      (x.job = some id → exec (.levellerOutOfBand w) s = .next (s.to (b'.failJob id St.unitFault 0x401))))

/-- The locks of a crossbar (R155, R158, R159): a request in order of 1 to 64 beats waits for its target's arbiter; one more than its requester may hold, or one at or
below a target already held or asked for, fences the requester with Detail 0x602. A lock held for more than 512 network cycles ends and its owner is fenced with
Detail 0x601. A round of an arbiter (R155 to R157) takes in the locks its requests ask for; at a locked target it passes one beat of the sequence, and during the last one, as at a free target, a request of
the highest rank wins, the lowest requester among equals: its age starts anew and every other's grows by one up to 15; the lock it asked for begins and is counted; a
withdrawn winner is counted and takes no lock. -/
def Obligations.Crossbar : Prop :=
  (∀ (s : State) (q : QuadId) (r : Fin 26) (t : Fin 52) (beats : Nat),
      let b := s.toBlock
      let held := b.lockTargets q r
      let limit := if r.val < 20 then 1 else 2
      (limit ≤ held.length ∨ (∃ l ∈ held, t.val ≤ l) → exec (.lockRequest q r t beats) s = .next (s.to (b.lockFault q r 0x602))) ∧
      (held.length < limit → (∀ l ∈ held, l < t.val) → 1 ≤ beats → beats ≤ 64 →
        exec (.lockRequest q r t beats) s = .next (s.to (b.modQuad q (fun z => { z with lockAsks := z.lockAsks ++ [⟨r, t, beats⟩] })))) ∧
      ((∀ l ∈ (b.quad q).locks, l.1 ≠ t.val) → exec (.lockTimeout q t) s = .next s) ∧
      (∀ l, (b.quad q).locks.find? (fun l => l.1 == t.val) = some (t.val, l) →
        exec (.lockTimeout q t) s = .next (s.to ((b.advanceTo l.since 427).lockFault q l.owner 0x601)))) ∧
  (∀ (s : State) (q : QuadId) (t : Fin 52) (reqs : List ArbReq),
      let b := reqs.foldl (fun (b : Block) (x : ArbReq) => match x.lock with
        | some n => if (b.quad q).lockAsks.any (fun a => a.owner == x.req && a.target == t.val) then b else b.askLock q x.req t n
        | none => b) s.toBlock
      let z := b.quad q
      let age (u : Tab (Fin 16)) (x : ArbReq) : Fin 16 := Tab.get 0 u (t.val * 26 + x.req.val)
      (∀ l, z.locks.find? (fun l => l.1 == t.val) = some (t.val, l) →
        (1 < l.beats → exec (.arbitrationRound q t reqs) s =
          .next (s.to (b.modQuad q (fun z => { z with locks := Tab.put z.locks t { l with beats := l.beats - 1 } })))) ∧
        (l.beats ≤ 1 →
          let c := b.modQuad q (fun z => { z with locks := Tab.drop z.locks t })
          exec (.arbitrationRound q t reqs) s = .next (s.to (c.decideRound q t (c.contenders q t reqs))))) ∧
      ((∀ l ∈ z.locks, l.1 ≠ t.val) →
        let all := b.contenders q t reqs
        (all = [] → exec (.arbitrationRound q t reqs) s = .next (s.to b)) ∧
        (all ≠ [] → (all.map (·.req)).Nodup →
          ∃ win ∈ all, (∀ x ∈ all, b.rank q t x < b.rank q t win ∨ (b.rank q t x = b.rank q t win ∧ win.req ≤ x.req)) ∧
            ∃ u, exec (.arbitrationRound q t reqs) s = .next u ∧ u.pending = s.pending ∧
              (∀ x ∈ all, age (u.toBlock.quad q).ages x =
                if x.req = win.req then 0 else if age z.ages x = 15 then 15 else age z.ages x + 1) ∧
              (u.toBlock.quad q).lost = z.lost.add (all.length - 1) ∧
              (u.toBlock.quad q).stale = (if win.withdrawn then z.stale.add 1 else z.stale) ∧
              (u.toBlock.quad q).locks =
                (match win.lock with
                  | some n => if n ≠ 0 ∧ win.withdrawn = false then Tab.put z.locks t ⟨win.req, n.val, b.now⟩ else z.locks
                  | none => z.locks) ∧
              (u.toBlock.quad q).lockCnt = (if win.lock.any (fun n => n != 0) ∧ win.withdrawn = false then z.lockCnt.add 1 else z.lockCnt) ∧
              u.wales = b.wales ∧ u.jobs = b.jobs ∧ u.flt = b.flt)))

/-! ### DMA, the host link and the registers (chapters 07, 08 and 13) -/

/-- What comes back to a channel (R163, R192, R198, R199, R206, R207): completions answer its requests oldest first (log 119); data of an awaited read
joins the transfer, which issues on and ends with its last piece, and of a streamed message the window too; a drained transfer only waits for its last
answer; an error response or a timeout fails the transfer with its cause; an uncorrectable DDR5 access retires its page, and the object that held it is
gone. A completion no request awaits, or whose request has failed, is discarded and reported through AER unless that is masked. An answer to a host read
while all 768 tags are taken lets what waits for a tag go on (log 151). -/
def Obligations.DmaCompletions : Prop :=
  (∀ b : Block,
    (b.tagFree = true ↔ b.readsOut < 768) ∧ (b.tagFree = true → ∀ c, Block.tagFreed b c = c) ∧
    b.unexpected.host = { b.host with aerStatus := b.host.aerStatus ||| 0x10000 } ∧
    b.unexpected.link = (if b.host.aerMask.getLsbD 16 then b.link else .unexpected :: b.link) ∧
    { b.unexpected with host := b.host, link := b.link } = b) ∧
  ∀ (s : State) (c : ChanId),
    let b := s.toBlock
    let then_ (d : Block) : Host.Outcome State Fault Refusal := .next (s.to (Block.tagFreed b d))
    (((b.chan c).xfer = none ∨ ∃ x, (b.chan c).xfer = some x ∧ x.asked = []) →
      (∀ r, exec (.dmaReadCompletion c r) s = then_ b.unexpected) ∧
      (∀ ok, exec (.dmaWriteAck c ok) s = .next (s.to b.unexpected)) ∧
      exec (.hostReadTimeout (.chan c)) s = then_ b ∧ exec (.ddr5Timeout c) s = .next s) ∧
    (∀ x a n rest, (b.chan c).xfer = some x → x.asked = (a, n) :: rest →
      let ddr : Fin 2 := Fin.ofNat 2 (x.target.toNat - 1)
      let heard (d : Bytes) : Xfer := { x with asked := rest, count := x.count + n, got := x.got ++ d }
      let broken : Block := ((b.retirePage ddr (a.toNat / 4096)).raise
        { source := Src.device 7 ddr.val, kind := 0x02, cls := 2, detail := openDetail 0x02, job := some x.job }).failXfer c 0x05 true
      (x.write = false →
        (∀ d, x.cause = 0 → x.stream = false →
          exec (.dmaReadCompletion c (.data d)) s = then_ ((b.setXfer c (heard (fit n d))).resumeXfer c)) ∧
        (∀ d, x.cause = 0 → x.stream = true → exec (.dmaReadCompletion c (.data d)) s =
          then_ ((((b.setXfer c (heard (fit n d))).streamIn x (fit n d)).resumeXfer c).pump x.job)) ∧
        (∀ d, x.cause ≠ 0 → exec (.dmaReadCompletion c (.data d)) s = then_ ((b.setXfer c (heard [])).settleXfer c)) ∧
        exec (.dmaReadCompletion c .unsupported) s = then_ (b.failXfer c 0x01 true) ∧
        exec (.dmaReadCompletion c .completerAbort) s = then_ (b.failXfer c 0x02 true) ∧
        exec (.dmaReadCompletion c .poisoned) s = then_ (b.failXfer c 0x03 true) ∧
        exec (.dmaReadCompletion c .late) s = then_ b.unexpected ∧
        (x.target = 0 → exec (.hostReadTimeout (.chan c)) s = then_ (b.failXfer c 0x04 true)) ∧
        (x.target ≠ 0 → exec (.hostReadTimeout (.chan c)) s = then_ b ∧
          exec (.dmaReadCompletion c .uncorrectable) s = then_ broken) ∧
        (∀ ok, exec (.dmaWriteAck c ok) s = .next (s.to b.unexpected))) ∧
      (x.write = true →
        exec (.dmaWriteAck c true) s = .next (s.to ((b.setXfer c (heard [])).resumeXfer c)) ∧
        exec (.dmaWriteAck c false) s = .next (s.to broken) ∧
        exec (.hostReadTimeout (.chan c)) s = then_ b ∧
        (∀ r, exec (.dmaReadCompletion c r) s = then_ b.unexpected)) ∧
      (x.target ≠ 0 → exec (.ddr5Timeout c) s = .next (s.to
        ((b.raise { source := Src.device 7 (x.target.toNat - 1), kind := 0x09, cls := 1, detail := dmaDetail x.buf 0x06 c (x.remain == 0),
                    addr := x.addr.setWidth 48, job := some x.job, slice := some x.slice, known := some (x.jobSeq, x.tag) }).failXfer c 0x06 true))) ∧
      (x.target = 0 → exec (.ddr5Timeout c) s = .next s)) ∧
    (∀ (ch : Fin 2) (page : Nat),
      let t := b.retirePage ch page
      page ∈ t.ddr.retired[ch] ∧ (∀ p ∈ b.ddr.retired[ch], p ∈ t.ddr.retired[ch]) ∧
      (∀ o, b.ddr.objects.find? (fun o => o.chan == ch && decide (o.page ≤ page) && decide (page < o.page + o.pages)) = some o →
        t.ddr.objects = b.ddr.objects.filter (fun p => !(p.slice == o.slice && p.number == o.number))))

/-- The error of a transfer (R199, R201 to R203). The first: the transfer issues nothing more and the channel is HALTED; it keeps the cause, the failing
address, which is the oldest request's unanswered or the first not issued, and for DDR5 the object's, and whether the last beat had been asked for; with
no answer left to wait for it raises its note, whose source is the channel, and its record enters the queue; else it drains. Any error counts, COUNT
sticking at its top; a free latch takes it, with the time and what was not yet issued, a full one sets OVF. DMA_RECORD_CONSUME (R193, R200, R201, R203):
the oldest record leaves the queue and records kept by channels may enter; a cause ends the job with the status and Detail of Table 8.6; a job that was
ended has its record written when its last transfer's record is in; any other moves on, and has given its channel back where its inputs are in, and presents the
result its run released before its message had come (R119). A note of a transfer carries the job's number and tag as its descriptor gave them. -/
def Obligations.DmaErrors : Prop :=
  (∀ (b : Block) (c : Nat) (x : Xfer) (cause : Byte), (b.chan c).xfer = some x → cause ≠ 0 →
      let fa : W64 := if x.target ≠ 0 then x.addr else match x.asked, x.pieces with
        | (a, _) :: _, _ => a
        | [], (a, _) :: _ => a
        | [], [] => x.addr
      let k := b.chan c
      let n : W32 := if k.count = 0xFFFFFFFF then k.count else k.count + 1
      let latched : Chan := if k.valid then { k with ovf := true, count := n, halted := true }
        else { k with valid := true, cause := cause, write := x.write, target := x.target, slice := x.slice, jobSeq := x.jobSeq, addr := fa,
                      time := b.now, remain := BitVec.ofNat 32 x.remain, count := n, halted := true }
      let first : Xfer :=
        { x with cause := cause, failAddr := fa, lastBeat := x.remain == 0, pieces := [], asked := x.asked.drop 1, translated := true }
      let b' := b.modChan c (fun _ => { latched with xfer := some first })
      (x.cause = 0 → 1 < x.asked.length → b.failXfer c cause true = b') ∧
      (x.cause = 0 → x.asked.length = 1 → cause ≠ 0x06 → b.failXfer c cause true =
        (b'.raise { source := Src.chan c, kind := 0x09, cls := if cause = 0x30 then 1 else 2, detail := dmaDetail x.buf cause c (x.remain == 0),
                    addr := fa.setWidth 48, job := some x.job, slice := some x.slice, known := some (x.jobSeq, x.tag) }).closeXfer c first) ∧
      (x.cause ≠ 0 → 1 < x.asked.length → b.failXfer c cause true = b.modChan c (fun _ => { latched with xfer := some { x with asked := x.asked.drop 1 } }))) ∧
  (∀ (s : State) (q : QuadId),
      let b := s.toBlock
      ((b.quad q).records = [] → exec (.dmaRecordConsume q) s = .next (s.to b.takeFences)) ∧
      (∀ r rest, (b.quad q).records = r :: rest →
        let b₁ := ((b.modQuad q (fun z => { z with records := rest })).drainKept q).modJob r.job (fun j => { j with dmaOpen := j.dmaOpen - 1 })
        (b₁.job r.job = none → exec (.dmaRecordConsume q) s = .next (s.to (b₁.pumpQuad q).takeFences)) ∧
        (∀ j, b₁.job r.job = some j →
          (r.cause ≠ 0 → j.ended = false → exec (.dmaRecordConsume q) s = .next (s.to
            ((b₁.endGranted j (causeStatus r.cause) (dmaDetail r.buf r.cause (8 * q.val + r.source.toNat % 8) r.lastBeat)).pumpQuad q).takeFences)) ∧
          (j.ended = true → j.dmaOpen = 0 → exec (.dmaRecordConsume q) s = .next (s.to ((b₁.finish j.id).pumpQuad q).takeFences)) ∧
          (j.ended = true → j.dmaOpen ≠ 0 → exec (.dmaRecordConsume q) s = .next (s.to (b₁.pumpQuad q).takeFences)) ∧
          (r.cause = 0 → j.ended = false →
            let give (k : Job) : Job := if k.inSlots && k.passes == 0 then { k with chan := none } else k
            exec (.dmaRecordConsume q) s = .next (s.to ((((b₁.modJob j.id give).pump j.id).presentEarly).pumpQuad q).takeFences)))))

/-- Interrupts, translations, the bucket and the time base (R163, R164, R169, R180, R197, R204, R322). The moderation timer announces an enabled ring's
records. An unmasked vector that is pending is sent and no longer pending, while MSI-X is enabled. With ATS enabled a ring without a translation halts with
cause 0x04, a gather list without one fails its job with TRANSLATION_FAULT, and a channel fails with 0x07; with one, each goes on. An invalidation makes
what has still to access the page translate it again and is completed on the link, at once where it names no page of an output whose writes have begun and
else with the last of them; the queue of 32 takes no further one (log 167). A refill raises the bucket by 16 × RATE up to BURST × 4,096, and a response that waited for tokens goes on. A read of
TIM_NOW_LO latches the upper half; the wrap sets WRAPPED. -/
def Obligations.LinkAndTime : Prop :=
  ∀ (s : State) (sl : SliceId) (n : RingId) (c : ChanId) (v : BitVec 11) (p : BitVec 52),
    let b := s.toBlock
    let sq := (b.slice sl).sq[n]
    let cq := (b.slice sl).cq[n]
    (cq.irqEn = true → cq.ann ≠ 0 → cq.modTime ≠ 0 → exec (.interruptModeration sl n) s =
      .next (s.to ((b.advanceTo cq.firstAt (cq.modTime.toNat * 250)).announce sl n))) ∧
    (cq.irqEn = false ∨ cq.ann = 0 → exec (.interruptModeration sl n) s = .next s) ∧
    (∃ t, exec (.msixUnmask v) s = .next t ∧ t.pending = s.pending ∧ v.toNat ∈ t.host.msixOpen ∧
      (b.host.msixOn = true → t.host.pba = b.host.pba.filter (· != v.toNat) ∧
        t.link = (if b.host.pba.contains v.toNat then [.msix v.toNat (Tab.get 0 b.host.msixAddr v.toNat) (Tab.get 0 b.host.msixData v.toNat)] else []) ++
          b.link) ∧
      (b.host.msixOn = false → t.link = b.link ∧ ∀ u, u ∈ t.host.pba ↔ u ∈ b.host.pba) ∧
      { t with host := { t.host with msixOpen := b.host.msixOpen, pba := b.host.pba }, link := b.link } = s) ∧
    (b.host.ats = true →
      (sq.enable = true → sq.halted = false → exec (.atsTranslation (.sq sl n) false) s =
        .next (s.to (b.haltSq sl n 0x04 (BitVec.ofNat 16 sq.head) (sq.base + BitVec.ofNat 64 (64 * sq.head))))) ∧
      (cq.enable = true → cq.halted = false → exec (.atsTranslation (.cq sl n) false) s =
        .next (s.to (b.haltCq sl n 0x04 (BitVec.ofNat 16 cq.tail) (cq.base + BitVec.ofNat 64 (32 * cq.tail))))) ∧
      (∀ id j, b.job id = some j → j.phase = .walking → j.walkAsked = false → j.walkTr = false → j.ended = false →
        exec (.atsTranslation (.list id) false) s = .next (s.to (b.walkFails j 0x07 j.walkAt)) ∧
        exec (.atsTranslation (.list id) true) s = .next (s.to ((b.modJob id (fun j => { j with walkTr := true })).askEntry id)))) ∧
    (exec (.atsTranslation (.sq sl n) true) s = .next s ∧ exec (.atsTranslation (.cq sl n) true) s = .next s) ∧
    (∀ x, (b.chan c).xfer = some x → x.translated = false →
      exec (.atsTranslation (.chan c) false) s = .next (s.to (b.failXfer c 0x07 false)) ∧
      exec (.atsTranslation (.chan c) true) s = .next (s.to ((b.setXfer c { x with translated := true }).resumeXfer c))) ∧
    (32 ≤ b.host.invalsOut → exec (.atsInvalidation sl p) s = .next s) ∧
    (b.host.invalsOut < 32 → ∃ t, exec (.atsInvalidation sl p) s = .next t ∧
      ((∀ k < 32, b.outputBegun k sl p = false) → t.link = .invalidateDone sl p :: b.link ∧ t.host = b.host) ∧
      (∀ k < 32, b.outputBegun k sl p = true → t.link = b.link ∧ (sl, p, k) ∈ t.host.invals) ∧
      (∀ x, (b.chan c).xfer = some x → b.outputBegun c sl p = false → (t.chan c).xfer =
        some { x with translated := x.translated && !(decide (x.slice = sl) && decide (x.target = 0) && pageIn p x.pieces) })) ∧
    ((∀ k < 32, ∀ x, (b.chan k).xfer = some x → x.slice ≠ sl) → (∀ j ∈ b.jobs, j.phase = .walking → j.inSlice sl = false) →
      (b.slice sl).mbx.toRead = none →
      let b₁ := b.modSlice sl (fun z =>
        { z with bucket := min (z.bucket + 16 * ((b.slice sl).quota.rate : Int)) (((b.slice sl).quota.burst : Int) * 4096) })
      ((b.slice sl).mbx.toWrite = none → exec (.tokenBucketRefill sl) s = .next (s.to b₁)) ∧
      (∀ a d f, (b.slice sl).mbx.toWrite = some (a, d, f) →
        exec (.tokenBucketRefill sl) s = .next (s.to (b₁.sendReply (some sl) a d f)))) ∧
    (b.takesWrites = true → exec .timNowLoRead s = .next (s.to { b with nowHi := BitVec.ofNat 32 (b.now.toNat / 2 ^ 32) })) ∧
    (b.boot.coreUp = true → exec .timeBaseWrap s = .next (s.to { b with now := 0, wrapped := true }))

/-- Writes to the registers of BAR0 (R8, R10, R160, R161, R163, R168, R185, R187, R202, Table 7.2). A device without power or sealed takes none; a reserved
range, or an offset no register has, changes nothing; DSP_CFG keeps its reserved bits 0; a status bit written as 1 is cleared and no other; an error latch
is cleared by its VALID but for COUNT; the frame window takes bytes, least significant first, while BUSY is 0, and GO submits the frame that stands there:
the command of its code is served, a code no table lists is BAD_OPCODE, and a GO of 0 does nothing. The host's sizes and enables are taken (log 122), its AER
status is cleared by ones and its AER mask, L1 and LTR enables are taken (log 167); what the device does not implement takes no write.
Writes to a slice's page (R170, R171, R184, Table 7.4): a doorbell is written with 32 bits and does what the doorbell command does, a write of 64 bits to
one is ignored; a ring's base is written in halves, its low 12 bits 0, while the ring is not enabled, and ignored while it is; a page that takes no writes
changes nothing. -/
def Obligations.RegisterWrites : Prop :=
  (∀ (s : State) (o : BitVec 16) (v : W64),
      let b := s.toBlock
      let lo : W32 := v.setWidth 32
      let run := exec (.registerWrite (.bar0 o) false v) s
      (b.takesWrites = false ∨ o.toNat % 4 ≠ 0 → run = .next s) ∧
      (0x6130 ≤ o.toNat ∧ o.toNat < 0x6140 ∨ 0x6180 ≤ o.toNat ∧ o.toNat < 0x6200 ∨ 0x6280 ≤ o.toNat ∧ o.toNat < 0x7000 → run = .next s) ∧
      (b.takesWrites = true →
        (o = 0x6000 → run = .next (s.to { b with dsp := { b.dsp with cfg := lo &&& 0xFFFFFF01 } })) ∧
        (o = 0x2000 →
          run = .next (s.to { b with host := { b.host with evtStatus := b.host.evtStatus &&& ~~~(v.setWidth 8) } })) ∧
        (o = 0x2008 → run = .next (s.to { b with host := { b.host with evtVector := v.setWidth 11 } })) ∧
        (o = 0x1004 → run = .next (s.to (if v.getLsbD 30 then { b with admin := { b.admin with done := false } } else b))) ∧
        (0x1800 ≤ o.toNat → o.toNat < 0x2000 → o.toNat % 4 = 0 →
          run = .next (s.to (if b.admin.busy then b else
            { b with admin := { b.admin with window := b.admin.window.writeAll (o.toNat - 0x1800) (le 4 lo.toNat) } }))) ∧
        (∀ c : ChanId, o.toNat = 0x3800 + 32 * c.val → v.getLsbD 31 = true →
          run = .next (s.to (b.modChan c (fun k => ({ xfer := k.xfer, halted := k.halted, kept := k.kept, count := k.count } : Chan))))) ∧
        (o = 0x1000 → v.getLsbD 0 = false → run = .next s) ∧
        (o = 0x1000 → v.getLsbD 0 = true → ∀ code r, b.frame none = (code, r) → r.dma = false →
          (code = 0x0001 → run = exec (.getVersion r) s) ∧ (code = 0x0011 → run = exec (.walCfgWrite r) s) ∧
          (code = 0x0032 → run = exec (.sliceQuery r) s) ∧ (code = 0x0052 → run = exec (.lcChallenge r) s) ∧
          (code = 0x0084 → run = exec (.fltFence r) s) ∧
          (served code.toNat r { toBlock := b } = none → b.takesGo none = true → r.version = 3 →
            run = .next (s.to (b.reply r code (.fail St.badOpcode 0))))))) ∧
  (∀ (s : State) (wide : Bool) (v : W64),
      let b := s.toBlock
      let cfg (r : CfgReg) := exec (.registerWrite (.cfg r) wide v) s
      b.takesWrites = true →
        (∀ n ≤ 2, v.toNat % 8 = n → cfg .maxPayload = .next (s.to { b with host := { b.host with mps := 128 * 2 ^ n } })) ∧
        (∀ n ≤ 5, v.toNat % 8 = n → cfg .maxReadRequest = .next (s.to { b with host := { b.host with mrrs := 128 * 2 ^ n } })) ∧
        cfg .relaxedOrdering = .next (s.to { b with host := { b.host with relaxed := v.getLsbD 0 } }) ∧
        cfg .ats = .next (s.to { b with host := { b.host with ats := v.getLsbD 0 } }) ∧
        cfg .pasid = .next (s.to { b with host := { b.host with pasidOn := v.getLsbD 0 } }) ∧
        cfg .aerStatus = .next (s.to { b with host := { b.host with aerStatus := b.host.aerStatus &&& ~~~(v.setWidth 32) } }) ∧
        cfg .aerMask = .next (s.to { b with host := { b.host with aerMask := v.setWidth 32 } }) ∧
        cfg .aspm = .next (s.to { b with host := { b.host with l1 := v.getLsbD 1 } }) ∧
        cfg .ltr = .next (s.to { b with host := { b.host with ltr := v.getLsbD 0 } }) ∧
        cfg .pri = .next s ∧ cfg .atomics = .next s) ∧
  (∀ (s : State) (sl : SliceId) (n : RingId) (o : BitVec 23) (v : W64), o.toNat / 8192 = sl.val →
      let b := s.toBlock
      let q := (b.slice sl).sq[n]
      let lo : W32 := v.setWidth 32
      let page := o.toNat % 8192
      (b.pageOpen sl = false → page ≠ 0x800 → page + 4 ≠ 0x800 → ∀ wide, exec (.registerWrite (.bar2 o) wide v) s = .next s) ∧
      (page < 0x040 → exec (.registerWrite (.bar2 o) true v) s = .next s) ∧
      (b.pageOpen sl = true →
        (page = 4 * n.val → exec (.registerWrite (.bar2 o) false v) s = exec (.sqTailDoorbell sl n lo) s) ∧
        (page = 0x20 + 4 * n.val → exec (.registerWrite (.bar2 o) false v) s = exec (.cqHeadDoorbell sl n lo) s) ∧
        (page = 0x100 + 16 * n.val →
          (q.enable = true → ∀ wide, exec (.registerWrite (.bar2 o) wide v) s = .next s) ∧
          (q.enable = false → exec (.registerWrite (.bar2 o) true v) s = .next (s.to (b.modSq sl n (fun q => { q with base := v &&& ~~~0xFFF }))))) ∧
        (page = 0x108 + 16 * n.val → v.getLsbD 31 = true → exec (.registerWrite (.bar2 o) false v) s = exec (.sqEnable sl n lo) s) ∧
        (page = 0x188 + 16 * n.val → v.getLsbD 31 = true → exec (.registerWrite (.bar2 o) false v) s = exec (.cqEnable sl n lo) s)))

/-! ### Jobs (chapters 02, 03, 10 and 11) -/

/-- How a job's result is presented (R15, R93, R217, R235, R241, R413, R417): a job that runs, its message come whole, presents a result; one that still
fetches keeps what its run has released, and presents it once its message has come (R119). A job that holds shared memory has its result there too, in pages that
are S where it is secret (R80, R90). A job of class 1 or 2 hands it to the comparators and waits there; of class 0, a
SUCCESS goes to its output, any other status ends it without output. A failure is presented with its status and Detail; a new key whose size was not known at
admission must fit the slice's free reservation, or the device scope's where the job is the admin mailbox's, and then holds its place, else QUOTA, Detail 6. A shared secret goes to the output, or with RESULT_TO_HANDLE into a session key; a
key pair made gives the public half to the output and the secret half to a new key. -/
def Obligations.ResultsArePresented : Prop :=
  (∀ (b : Block) (id : Nat) (j : Job) r, b.job id = some j →
    (j.phase ≠ .running → b.present id r = b) ∧
    (j.phase = .running → j.passes ≠ 0 → b.present id r = b.modJob id (fun k => { k with early := some r }))) ∧
  ∀ (b : Block) (id : Nat) (j : Job), b.job id = some j → j.phase = .running → j.passes = 0 →
    let handed (r : JobResult) : Block :=
      let b' := b.modJob id (fun k => { k with result := r, phase := .comparing, early := none })
      if j.pages = [] then b' else b'.modQuad j.quad (fun z => z.fill j.levelled j.pages r.out)
    (∀ r, j.entry.cls ≠ 0 → b.present id r = handed r) ∧
    (∀ r, (handed r).jobs = b.jobs.map (fun k => if k.id = id then { k with result := r, phase := .comparing, early := none } else k)) ∧
    (∀ r, j.entry.cls = 0 → r.status ≠ 0 →
      b.present id r = (handed r).endGranted { j with result := r, phase := .comparing, early := none } r.status r.detail) ∧
    (∀ e, b.presentResult j (.error e) = b.present id { status := e.1, detail := e.2 }) ∧
    (∀ r, j.dev = true ∨ (b.slice j.slice).replicated = false →
      let room : Prop := if j.dev then b.deviceUse + r.newSpace ≤ 512 * 1024
        else b.keyUse j.slice + b.keyReserved j.slice + r.newSpace ≤ (b.slice j.slice).quota.kst * 1024
      (j.reservedKst ≠ 0 ∨ r.newSpace = 0 → b.presentResult j (.ok r) = b.present id r) ∧
      (j.reservedKst = 0 → r.newSpace ≠ 0 → room →
        b.presentResult j (.ok r) = (b.modJob id (fun k => { k with reservedKst := r.newSpace })).present id r) ∧
      (j.reservedKst = 0 → r.newSpace ≠ 0 → ¬ room →
        b.presentResult j (.ok r) = b.present id { status := St.quota, detail := 6 })) ∧
    (∀ p k, j.desc.toHandle = false → b.sharedSecret j p k = .ok { out := p ++ k }) ∧
    (∀ p k, j.desc.toHandle = true → b.sharedSecret j p k = .ok { out := p, effects := [.createKey (b.sessionKey j.slice k) true] }) ∧
    (∀ t o sec pub k, b.fromTemplate j.slice j.template t o = .ok k →
      b.madeKey j t o sec pub = .ok { out := pub, effects := [.createKey { k with secret := sec, pub := pub } true] })

/-- The jobs of the lattice schemes (Tables 2.5 to 2.13, R39 to R45): ML-KEM key generation from 64 drawn or supplied bytes, encapsulation with 32 drawn bytes
to a supplied key in range, decapsulation that never fails; ML-DSA and FN-DSA generation, signing and verification, whose checks come in the order of Tables
2.11 and 2.13. What a standard computes is its own (log 2). -/
def Obligations.LatticeSchemeJobs : Prop :=
  ∀ (s : State) (id : Nat),
    WorksPure s id (isOp 1 0) (.mlKemKeygen id) (templateFails (fun j => 0x100 + j.set) 1) (fun _ => 64)
      (fun b j d => b.madeKey j (0x100 + j.set) 1 (algBytes .kemSk j.set [d] (kemDk j.set)) (algBytes .kemPk j.set [d] (kemEk j.set))) ∧
    WorksPure s id (isOp 1 1) (.mlKemKeygenSeed id) (templateFails (fun j => 0x100 + j.set) 2) noDraw
      (fun b j _ => b.madeKey j (0x100 + j.set) 2 (algBytes .kemSk j.set [j.input] (kemDk j.set)) (algBytes .kemPk j.set [j.input] (kemEk j.set))) ∧
    WorksPure s id (isOp 1 2) (.mlKemEncaps id)
      (fun _ j => if j.desc.supplied = true ∧ (kemCoeffs (j.input.take (kemEk j.set - 32))).any (3329 ≤ ·) = true then some (St.inputInvalid, 1) else none) (fun _ => 32)
      (fun b j m => b.sharedSecret j (algBytes .kemCt j.set [j.publicKey (kemEk j.set), m] (kemC j.set))
        (algBytes .kemSecret j.set [j.publicKey (kemEk j.set), m] 32)) ∧
    WorksPure s id (isOp 1 3) (.mlKemDecaps id) noPre noDraw
      (fun b j _ => b.sharedSecret j [] (algBytes .kemShared j.set [j.keyObj.secret, j.input] 32)) ∧
    WorksPure s id (isOp 2 0) (.mlDsaKeygen id) (templateFails (fun j => 0x200 + j.set) 1) (fun _ => 32)
      (fun b j d => b.madeKey j (0x200 + j.set) 1 (algBytes .dsaSk j.set [d] (dsaSk j.set)) (algBytes .dsaPk j.set [d] (dsaPk j.set))) ∧
    WorksPure s id (isOp 2 1) (.mlDsaKeygenSeed id) (templateFails (fun j => 0x200 + j.set) 2) noDraw
      (fun b j _ => b.madeKey j (0x200 + j.set) 2 (algBytes .dsaSk j.set [j.input] (dsaSk j.set)) (algBytes .dsaPk j.set [j.input] (dsaPk j.set))) ∧
    (∀ k c, (k, c) ∈ [(2, Instr.mlDsaSign id), (4, .mlDsaSignPrehash id), (6, .mlDsaSignMu id)] →
      Works s id (isOp 2 k) c noPre (fun j => if j.desc.deterministic then 0 else 32) (fun b j d =>
        let args := [j.keyObj.secret, if j.desc.deterministic then zeros 32 else d] ++ j.signed j.input
        if Config.ask .samplerDone (sigSet j.op) args then (b, .ok { out := algBytes .dsaSig (sigSet j.op) args (dsaSig j.set) })
        else (b.raise { source := match j.wales with | w :: _ => Src.waleUnit w 0 | [] => Src.quadUnit j.quad 0,
                        kind := 0x0D, cls := 0, detail := 0x201, job := some id }, .error (St.unitFault, 0x201)))) ∧
    (∀ k c, (k, c) ∈ [(3, Instr.mlDsaVerify id), (5, .mlDsaVerifyPrehash id), (7, .mlDsaVerifyMu id)] →
      WorksPure s id (isOp 2 k) c noPre noDraw (fun _ j _ =>
        let pk := j.publicKey (dsaPk j.set)
        let sig := (j.afterKey (dsaPk j.set)).take (dsaSig j.set)
        judge [(!Config.ask .hintOk j.set [sig], St.verifyReject, 1), (!Config.ask .zNormOk j.set [sig], St.verifyReject, 2),
          (!Config.ask .verifies (sigSet j.op) ([pk, sig] ++ j.signed ((j.afterKey (dsaPk j.set)).drop (dsaSig j.set))), St.verifyReject, 3)])) ∧
    WorksPure s id (isOp 4 0) (.fnDsaKeygen id) (templateFails (fun j => 0x400 + j.set) 1) (fun j => Config.freeNat 10 j.op)
      (fun b j d => b.madeKey j (0x400 + j.set) 1 (algBytes .dsaSk (0x40 + j.set) [d] (fnSk j.set)) (algBytes .dsaPk (0x40 + j.set) [d] (fnPk j.set))) ∧
    (∀ k c, (k, c) ∈ [(2, Instr.fnDsaSign id), (4, .fnDsaSignPrehash id)] →
      Outputs s id (isOp 4 k) c (fun j => if j.desc.deterministic then 0 else 40 + Config.freeNat 10 j.op) (fun _ j d =>
        let args := [j.keyObj.secret, d, le 1 (b1 j.desc.bit4)] ++ j.signed j.input
        algBytes .dsaSig (sigSet j.op) args
          (if j.desc.bit4 then fnSig j.set else max 41 (min (fnSig j.set) ((Config.decoded .dsaSig (sigSet j.op) args).headD 0))))) ∧
    (∀ k c, (k, c) ∈ [(3, Instr.fnDsaVerify id), (5, .fnDsaVerifyPrehash id)] →
      WorksPure s id (isOp 4 k) c noPre noDraw (fun _ j _ =>
        let pk := j.publicKey (fnPk j.set)
        let sig := (j.afterKey (fnPk j.set)).take j.desc.aux
        judge [(j.desc.supplied && (!Config.ask .pkHeaderOk j.op [pk] ||
            !(Config.decoded .dsaPk (0x40 + j.set) [pk]).all (fun c => decide (c < 12289))), St.inputInvalid, 1),
          (!Config.ask .sigHeaderOk j.op [le 1 (b1 j.desc.bit4), sig], St.verifyReject, 1),
          (!Config.ask .compressedOk j.op [le 1 (b1 j.desc.bit4), sig], St.verifyReject, 2),
          (!Config.ask .verifies (sigSet j.op) ([pk, sig] ++ j.signed ((j.afterKey (fnPk j.set)).drop j.desc.aux)), St.verifyReject, 3)]))

/-- The jobs of the hash-based schemes (Tables 2.14 to 2.18, R46 to R54): a stateful key generation checks the codes of its input (BAD_PARAM, Detail 0x30)
before its template and makes the key's first bottom-level tree; a stateful signature is made of message and context at the index its job took at grant,
under the tree that holds the index; a verify checks codes, implied length, index and root in that order;
STATE gives limit, next index and what is left. -/
def Obligations.HashSchemeJobs : Prop :=
  ∀ (s : State) (id : Nat),
    WorksPure s id (isOp 3 0) (.slhDsaKeygen id) (templateFails (fun j => 0x300 + j.set) 1) (fun j => 3 * slhN j.set) (fun b j d =>
      let pk := sub d (2 * slhN j.set) (slhN j.set) ++ algBytes .slhPk j.set [d] (slhN j.set)
      b.madeKey j (0x300 + j.set) 1 (d.take (2 * slhN j.set) ++ pk) pk) ∧
    WorksPure s id (isOp 3 1) (.slhDsaKeygenSeed id) (templateFails (fun j => 0x300 + j.set) 2) noDraw (fun b j _ =>
      let pk := sub j.input (2 * slhN j.set) (slhN j.set) ++ algBytes .slhPk j.set [j.input] (slhN j.set)
      b.madeKey j (0x300 + j.set) 2 (j.input.take (2 * slhN j.set) ++ pk) pk) ∧
    (∀ k c, (k, c) ∈ [(2, Instr.slhDsaSign id), (4, .slhDsaSignPrehash id)] →
      Outputs s id (isOp 3 k) c (fun j => if j.desc.deterministic then 0 else slhN j.set) (fun _ j d =>
        algBytes .slhSig (sigSet j.op) ([j.keyObj.secret, if j.desc.deterministic then j.keyObj.pub.take (slhN j.set) else d] ++ j.signed j.input)
          (slhSig j.set))) ∧
    (∀ k c, (k, c) ∈ [(3, Instr.slhDsaVerify id), (5, .slhDsaVerifyPrehash id)] →
      WorksPure s id (isOp 3 k) c noPre noDraw (fun _ j _ =>
        let rest := j.afterKey (slhPk j.set)
        judge [(!Config.ask .verifies (sigSet j.op)
          ([j.publicKey (slhPk j.set), rest.take (slhSig j.set)] ++ j.signed (rest.drop (slhSig j.set))), St.verifyReject, 3)])) ∧
    (∀ (o t : Nat) (a : Alg) (f : Bytes → Option Shape) c, (o, t, a, f, c) ∈ [(0x0500, 0x500, Alg.hssPk, hssShape, Instr.hssKeygen id),
        (0x0600, 0x600, .xmssPk, fun b => xmssShape (ofBe b), .xmssKeygen id), (0x0610, 0x601, .xmssPk, fun b => xmssmtShape (ofBe b), .xmssmtKeygen id)] →
      WorksPure s id (only o) c (fun b j => if f j.input = none then some (St.badParam, 0x30) else templateFails (fun _ => t) 1 b j)
        (fun j => Config.freeNat 10 j.op) (fun b j d =>
          let pk := algBytes a t [d, j.input] (statefulPkLen t j.input)
          let sh := (f j.input).getD ⟨0, 1, 0⟩
          let c := j.reservedCtr.getD 0
          match b.fromTemplate j.slice j.template t 1 with
          | .error e => .error e
          | .ok k =>
            let k : Key := { k with secret := d, pub := pk, ctr := BitVec.ofNat 32 c }
            .ok { out := pk, effects := [.createKey { k with
              stateful := some { b := k.granule.toNat, height := sh.height, levels := sh.levels, bottom := sh.bottom, base := b.counter c,
                                 trees := 1, parents := if sh.levels ≤ 1 then [] else [k.treeSig 0] } } true] })) ∧
    (∀ o a c, (o, a, c) ∈ [(0x0510, Alg.hssSig, Instr.hssSign id), (0x0620, .xmssSig, .xmssSign id), (0x0630, .xmssSig, .xmssmtSign id)] →
      Outputs s id (only o) c noDraw (fun b j _ =>
        let t := (((b.key j.desc.handle).getD j.keyObj).stateful).getD {}
        algBytes a j.op [j.keyObj.secret, le 8 j.oneTime, t.parents.getD (j.oneTime / 2 ^ t.bottom) [], j.input, j.context] ((Config.decoded .hssSig j.op [j.keyObj.pub]).headD 0))) ∧
    (∀ o c, (o, c) ∈ [(0x0520, Instr.hssVerify id), (0x0530, .lmsVerify id), (0x0640, .xmssVerify id), (0x0650, .xmssmtVerify id)] →
      WorksPure s id (only o) c noPre noDraw (fun _ j _ =>
        let n := suppliedPkLen j.op j.input
        let pk := j.publicKey n
        let sig := (j.afterKey n).take j.desc.aux
        let implied := (Config.decoded .hssSig j.op [sig]).headD 0
        judge [(!Config.ask .hssCodesOk j.op [pk, sig], St.verifyReject, 1),
          (implied != j.desc.aux, St.lengthMismatch, BitVec.ofNat 32 implied),
          (!Config.ask .hssIndexOk j.op [pk, sig], St.verifyReject, 2),
          (!Config.ask .verifies j.op ([pk, sig, (j.afterKey n).drop j.desc.aux] ++ [j.context]), St.verifyReject, 3)])) ∧
    (∀ o c, (o, c) ∈ [(0x0540, Instr.hssState id), (0x0660, .xmssState id)] →
      Outputs s id (only o) c noDraw (fun b j _ =>
        let t := (((b.key j.desc.handle).getD j.keyObj).stateful).getD {}
        le 8 t.c ++ le 8 t.u ++ le 8 (2 ^ t.height - t.u) ++ le 2 t.b ++ le 1 t.height ++ le 1 t.levels ++ zeros 4))

/-- The life of a one-time key (R51, R53, R54): a confirmed counter write raises the key's limit by its granule and its counter with it, and the jobs that
waited go on; a failed one ends the job with UNIT_FAULT 0x301, the key refuses to sign, and the key's signatures not yet granted, or waiting for the same
limit, end with KEY_STATE (log 128). A bottom tree is generated, with its parents' signatures, when the current one is seven-eighths used, while the key has
more and a pair of wales is spare (log 129). -/
def Obligations.OneTimeKeys : Prop :=
  ∀ (s : State) (id : Nat) (j : Job) (k : Key) (t : Stateful),
    let b := s.toBlock
    (b.job id = some j → b.key j.desc.handle = some k → k.stateful = some t →
      (j.phase ≠ .loading ∨ j.oneTime < t.c → ∀ ok, exec (.counterWriteEnd id ok) s = .next s) ∧
      (j.phase = .loading → b.awaitsIndex j = true → t.c ≤ j.oneTime →
        exec (.counterWriteEnd id true) s = .next (s.to
          (((b.raiseCounter k.ctr.toNat (t.base + (t.c + t.b))).putKey j.desc.handle { k with stateful := some { t with c := t.c + t.b } }).pumpKey
            j.desc.handle)) ∧
        (let b' := ((b.putKey j.desc.handle { k with stateful := some { t with failed := true } }).raise
            { source := Src.device 13 0, kind := 0x0C, cls := 2, detail := 0x301, job := some id }).failJob id St.unitFault 0x301
         let signs (x : Job) : Bool := x.op == 0x0510 || x.op == 0x0620 || x.op == 0x0630
         exec (.counterWriteEnd id false) s = .next (s.to (Block.failJobs (b'.jobsWhere (fun x =>
            x.desc.handle == j.desc.handle && !x.ended && signs x &&
            (x.phase == .ready || x.phase == .walking || (x.phase == .loading && decide (t.c ≤ x.oneTime))))) St.keyState 0 b'))))) ∧
    (∀ (sl : SliceId) (i : Nat), let h := handleOf sl i
      let used := (t.trees - 1) * 2 ^ t.bottom + 7 * 2 ^ t.bottom / 8
      b.key h = some k → k.stateful = some t →
      (t.u < used ∨ 2 ^ t.height ≤ t.trees * 2 ^ t.bottom ∨ t.levels ≤ 1 ∨ b.sparePair = false →
        exec (.backgroundTreeGeneration sl i) s = .next s) ∧
      (used ≤ t.u → t.trees * 2 ^ t.bottom < 2 ^ t.height → 1 < t.levels → b.sparePair = true →
        let t' := { t with trees := t.trees + 1, parents := (List.range (t.trees + 1)).map k.treeSig }
        exec (.backgroundTreeGeneration sl i) s = .next (s.to ((b.putKey h { k with stateful := some t' }).pumpKey h)))) ∧
    (b.sparePair = true ↔ b.dispatches = true ∧ ∃ q < 4,
      2 ≤ ((List.range 16).filter (fun w => b.freeWale (16 * q + w) && !b.tuning (16 * q + w))).length ∧
      ∀ x ∈ b.jobs, x.level ≠ 0 → b.couldRun q x = false)

/-- The jobs of the code-based schemes and of RSA, the NIST curves and the Edwards and Montgomery curves (Tables 3.3 to 3.10, R58 to R68): their checks in
the order of the tables, the bytes they draw and what they answer. A retained public key read back passes the checks of its object and of its digest, or
is INPUT_INVALID and treated as absent from then on: its object and what referred to it are gone (R23, R60, R210, log 131). What a standard computes is its
own (log 2); the constants of its curves and the bit layouts of its keys are presumed (log 130). -/
def Obligations.ClassicalJobs : Prop :=
  ∀ (s : State) (id : Nat),
    let plain (op : Nat → Bool) (c : Instr) (r : Block → Job → Bytes → RunResult) := WorksPure s id op c noPre noDraw r
    let free : Job → Nat := fun j => Config.freeNat 10 j.op
    WorksPure s id (isOp 7 0) (.hqcKeygen id) (templateFails (fun j => 0x700 + j.set) 1) free
      (fun b j d => b.madeKey j (0x700 + j.set) 1 (algBytes .kemSk j.op [d] (hqcSk j.set)) (algBytes .kemPk j.op [d] (hqcPk j.set))) ∧
    WorksPure s id (isOp 7 2) (.hqcEncaps id)
      (fun _ j => if j.desc.supplied = true ∧ pick [32, 8, 32] j.set ≤ (j.input.getD (hqcPk j.set - 1) 0).toNat then some (St.inputInvalid, 1)
        else none) free
      (fun b j m => b.sharedSecret j (algBytes .kemCt j.op [j.publicKey (hqcPk j.set), m] (hqcC j.set))
        (algBytes .kemSecret j.op [j.publicKey (hqcPk j.set), m] 64)) ∧
    plain (isOp 7 3) (.hqcDecaps id) (fun b j _ => b.sharedSecret j [] (algBytes .kemShared j.op [j.keyObj.secret, j.input] 64)) ∧
    WorksPure s id (isOp 8 0) (.mcelieceKeygen id) (templateFails (fun j => 0x800 + j.set) 1) free (fun b j d =>
      let pk := algBytes .kemPk j.op [d] (mcePk j.set)
      let o := objectHeader 2 false j.slice.val 0xFFFF 0 j.ddrNo [] pk.length ++ pk
      match b.fromTemplate j.slice j.template (0x800 + j.set) 1 with
      | .error e => .error e
      | .ok k =>
        let k : Key := { k with secret := algBytes .kemSk j.op [d] (mceSk j.set), pub := [], pkDigest := algBytes .sha3of 5 [pk] 32 }
        .ok (if j.desc.pkRetain then { out := pk, ddr := o, effects := [.createKey k true, .keepPk 0] }
             else { out := pk, effects := [.createKey k true] })) ∧
    Works s id (isOp 8 2) (.mcelieceEncaps id)
      (fun _ j => if j.desc.supplied = true ∧ mcePadOk j.set j.input = false then some (St.inputInvalid, 1) else none)
      (fun j => if j.desc.supplied ∨ s.toBlock.retainedFails j = none then free j else 0)
      (fun b j m =>
        let answer (pk : Bytes) := b.sharedSecret j (algBytes .kemCt j.op [pk, m] (mceC j.set)) (algBytes .kemSecret j.op [pk, m] 32)
        if j.desc.supplied then (b, answer j.input) else match b.retainedFails j with
          | some e => (b.absentObject j.slice j.objectNo, .error e)
          | none => (b, answer (j.object.drop 48))) ∧
    plain (isOp 8 3) (.mcelieceDecaps id) (fun b j _ => b.sharedSecret j [] (algBytes .kemShared j.op [j.keyObj.secret, j.input] 32)) ∧
    Works s id (isOp 8 4) (.pkExport id) noPre noDraw (fun b j _ => match b.retainedFails j with
      | some e => (b.absentObject j.slice j.objectNo, .error e)
      | none => (b, .ok { out := j.object.drop 48 })) ∧
    (∀ (b : Block) (j : Job), let o := j.object
      (fld o 0 4 ≠ 0x574F424A ∨ fld o 4 2 ≠ 1 ∨ fld o 6 1 ≠ 2 ∨ 1 < fld o 7 1 ∨ fld o 0xC 4 ≠ 0 ∨ o.length ≠ 48 + fld o 0x2C 4 →
        b.retainedFails j = some (St.inputInvalid, 9)) ∧
      (∀ e, b.retainedFails j = some e → e = (St.inputInvalid, 9) ∨ e = (St.inputInvalid, 0xA) ∨ e = (St.inputInvalid, 6)) ∧
      (b.retainedFails j = none → algBytes .sha3of 5 [o.drop 48] 32 = j.keyObj.pkDigest ∧ (fld o 8 2 = j.slice.val ∨ fld o 8 2 ∈ (b.slice j.slice).aka))) ∧
    (∀ (b : Block) (sl : SliceId) (n : Nat), let t := b.absentObject sl n
      t.ddrObject sl n = none ∧ ∀ h k, t.key h = some k → h.toNat / 2 ^ 21 = sl.val → k.pkObject ≠ some n) ∧
    WorksPure s id (only 0x0900) (.rsaKeygen id) (fun b j =>
        let e := if fld j.input 4 4 = 0 then 65537 else fld j.input 4 4
        if ¬ (2048 ≤ fld j.input 0 2 ∧ fld j.input 0 2 ≤ 16384 ∧ fld j.input 0 2 % 64 = 0) then some (St.badParam, 0x44)
        else if e % 2 = 0 ∨ e < 3 then some (St.inputInvalid, 2) else templateFails (fun _ => 0x900) 1 b j) free (fun b j d =>
      let n := fld j.input 0 2
      let e := be 4 (if fld j.input 4 4 = 0 then 65537 else fld j.input 4 4)
      let pub := algBytes .rsaN n [d, e] (n / 8) ++ e
      match b.fromTemplate j.slice j.template 0x900 1 with
      | .error e => .error e
      | .ok k => .ok { out := pub, effects := [.createKey
          { k with secret := e ++ algBytes .rsaSk n [d, e] (n / 8), pub := pub, keyLen := BitVec.ofNat 16 n } true] }) ∧
    Outputs s id (only 0x0920) (.rsaSign id) (fun j => if j.desc.rsaPad = 1 then phLen j.desc.hashId else 0) (fun _ j d =>
      algBytes .rsaSig (j.desc.rsaPad * 256 + j.desc.hashId) [j.keyObj.secret, j.input, d] (rsaK j.desc j.keyObj)) ∧
    plain (only 0x0930) (.rsaVerify id) (fun _ j _ =>
      let k := rsaK j.desc j.keyObj
      let sig := (j.afterKey (k + 4)).take k
      judge (j.rsaKeyChecks ++ [(decide (ofBe j.rsaKey.1 ≤ ofBe sig), St.verifyReject, 3),
        (!Config.ask .encodingOk (j.desc.rsaPad * 256 + j.desc.hashId) [j.rsaKey.1, j.rsaKey.2, sig, (j.afterKey (k + 4)).drop k], St.verifyReject, 4)])) ∧
    WorksPure s id (only 0x0940) (.encryptOaep id) (fun _ j => firstFail j.rsaKeyChecks) (fun j => phLen j.desc.hashId) (fun _ j d =>
      let k := rsaK j.desc j.keyObj
      .ok { out := algBytes .oaepCt j.desc.hashId [j.rsaKey.1, j.rsaKey.2, j.afterKey (k + 4), d] k }) ∧
    (∃ pre n r, WorksPure s id (only 0x0950) (.decryptOaep id) pre n r ∧ ∀ b j d, j.desc.parAddr = 0 → pre b j = none ∧ n j = 0 ∧
      let modulus := ofBe (j.keyObj.pub.take (rsaK j.desc j.keyObj))
      (modulus ≤ ofBe j.input ∨ Config.ask .oaepOk j.desc.hashId [j.keyObj.secret, j.input] = false → r b j d = .error (St.inputInvalid, 5)) ∧
      (ofBe j.input < modulus → Config.ask .oaepOk j.desc.hashId [j.keyObj.secret, j.input] = true → ∃ m, r b j d = .ok { out := m } ∧
        m.length ≤ rsaK j.desc j.keyObj - 2 * phLen j.desc.hashId - 2)) ∧
    plain (only 0x0960) (.publicRaw id) (fun _ j _ =>
      let k := rsaK j.desc j.keyObj
      let x := ofBe (j.afterKey (k + 4))
      match firstFail (j.rsaKeyChecks ++ [(decide (ofBe j.rsaKey.1 ≤ x), St.operandRange, 0)]) with
      | some e => .error e
      | none => .ok { out := be k (powMod x (ofBe j.rsaKey.2) (ofBe j.rsaKey.1) (8 * j.rsaKey.2.length)) }) ∧
    WorksPure s id (isOp 0xA 0) (.eccKeygen id) (templateFails (fun j => 0xA00 + j.set) 1) free (fun b j d =>
      let pub := algBytes .ecPk j.set [d] (1 + 2 * nistL j.set)
      match b.fromTemplate j.slice j.template (0xA00 + j.set) 1 with
      | .error e => .error e
      | .ok k => .ok { out := if j.desc.bit4 then le 1 (2 + ofBe (pub.drop (1 + nistL j.set)) % 2) ++ sub pub 1 (nistL j.set) else pub,
                       effects := [.createKey { k with secret := algBytes .ecSk j.set [d] (nistL j.set), pub := pub } true] }) ∧
    Outputs s id (isOp 0xA 2) (.ecdsaSign id) (fun j => if j.desc.deterministic then 0 else 32) (fun _ j d =>
      algBytes .ecSig j.set [j.keyObj.secret, le 1 j.desc.hashId, j.input, d] (2 * nistL j.set)) ∧
    plain (isOp 0xA 3) (.ecdsaVerify id) (fun _ j _ =>
      let l := nistL j.set
      let n := j.desc.inLen - 2 * l - phLen j.desc.hashId
      let sig := (j.afterKey n).take (2 * l)
      judge ((if j.desc.supplied then pointChecks j.set (j.publicKey n) else []) ++ [(!rsOk j.set sig, St.verifyReject, 4),
        (!Config.ask .verifies (0xA00 + j.set) [j.publicKey n, sig, le 1 j.desc.hashId, (j.afterKey n).drop (2 * l)], St.verifyReject, 5)])) ∧
    WorksPure s id (isOp 0xA 4) (.ecdh id) (fun _ j => firstFail (pointChecks j.set j.input)) noDraw
      (fun b j _ => b.sharedSecret j [] (algBytes .ecdh j.set [j.keyObj.secret, j.input] (nistL j.set))) ∧
    plain (isOp 0xA 6) (.pointValidate id) (fun _ j _ => judge (pointChecks j.set (if j.desc.supplied then j.input else j.keyObj.pub))) ∧
    WorksPure s id (isOp 0xB 0) (.keygenEd id) (templateFails (fun j => 0xB00 + j.set) 1) (fun j => edPkLen j.set)
      (fun b j d => b.madeKey j (0xB00 + j.set) 1 d (algBytes .edPk j.set [d] (edPkLen j.set))) ∧
    WorksPure s id (isOp 0xB 1) (.keygenX id) (templateFails (fun j => 0xB10 + j.set) 1) (fun j => xLen j.set)
      (fun b j d => b.madeKey j (0xB10 + j.set) 1 d (algBytes .xPk j.set [d] (xLen j.set))) ∧
    (∀ k c, (k, c) ∈ [(2, Instr.eddsaSign id), (4, .signCtx id), (6, .signPh id)] →
      Outputs s id (isOp 0xB k) c noDraw (fun _ j _ =>
        algBytes .edSig (sigSet j.op) ([j.keyObj.secret] ++ j.signed j.input) (edSigLen j.set))) ∧
    (∀ k c, (k, c) ∈ [(3, Instr.eddsaVerify id), (5, .verifyCtx id), (7, .verifyPh id)] →
      plain (isOp 0xB k) c (fun _ j _ =>
        let pk := j.publicKey (edPkLen j.set)
        let rest := j.afterKey (edPkLen j.set)
        let sig := rest.take (edSigLen j.set)
        let half := edSigLen j.set / 2
        judge ((if j.desc.supplied then [((edFails j.set pk).1, St.inputInvalid, 1), ((edFails j.set pk).2.1, St.inputInvalid, 2),
            ((edFails j.set pk).2.2, St.inputInvalid, 3)] else []) ++
          [(decide (edL j.set ≤ ofLe (sig.drop half)), St.verifyReject, 4), (!edDecodes j.set (sig.take half), St.verifyReject, 1),
           (!Config.ask .verifies (sigSet j.op) ([pk, sig] ++ j.signed (rest.drop (edSigLen j.set))), St.verifyReject, 5)]))) ∧
    plain (isOp 0xB 8) (.xDh id) (fun b j _ =>
      let u := (if j.set = 0 then ofLe j.input % 2 ^ 255 else ofLe j.input) % edP j.set
      let r := algBytes .xShared j.set [j.keyObj.secret, le (xLen j.set) u] (xLen j.set)
      if allZero r then .error (St.inputInvalid, 5) else b.sharedSecret j [] r) ∧
    (∀ c sig, rsOk c sig = true ↔ 0 < ofBe (sig.take (nistL c)) ∧ ofBe (sig.take (nistL c)) < nistN c ∧
      0 < ofBe (sig.drop (nistL c)) ∧ ofBe (sig.drop (nistL c)) < nistN c)

/-- The combiners, KDFs, key wraps, AEAD, FROST and fabric jobs (Table 3.12, R69 to R74, R346, R347). A share is given only over a commitment list whose
identifiers rise strictly from 1 to n and whose entry for the share is the nonce's own (R73). The least of a list: what AGGREGATE names is the lowest
failing identifier (R74). -/
def Obligations.SymmetricAndThresholdJobs : Prop :=
  (∀ (s : State) (id : Nat) (lost : Option (BitVec 12)) (dest : Option W32),
      let plain (op : Nat → Bool) (c : Instr) (r : Block → Job → Bytes → RunResult) := WorksPure s id op c noPre noDraw r
      plain (only 0x0C00) (.combineConcat id) (fun b j _ => .ok { effects := [.createKey
        { b.sessionKey j.slice (j.keyObj.secret ++ j.keyTwo.secret) with expire := j.keyObj.expire || j.keyTwo.expire } true] }) ∧
      plain (only 0x0D10) (.hkdfExtract id) (fun b j _ => .ok { effects := [.createKey (b.sessionKey j.slice
        (algBytes .hkdfExtract j.desc.hashId [j.keyObj.secret, j.input] (phLen j.desc.hashId))) true] }) ∧
      (∀ o a c, (o, a, c) ∈ [(0x0C10, Alg.kdf56c, Instr.combineKdf id), (0x0D00, .kdf108, .kdf108 id), (0x0D11, .hkdfExpand, .hkdfExpand id),
          (0x0D20, .kdf56c, .kdf56c id)] →
        plain (only o) c (fun b j _ => b.sharedSecret j []
          (algBytes a (j.op * 256 + j.desc.hashId) [j.keyObj.secret ++ j.keyTwo.secret, j.input] j.desc.outCap))) ∧
      (∀ o c, (o, c) ∈ [(0x0D30, Instr.wrapKw id), (0x0D32, .wrapKwp id)] →
        Outputs s id (only o) c noDraw (fun _ j _ => algBytes .kwWrap j.op [j.keyObj.secret, j.keyTwo.wrapped] (wrapLen j.keyTwo))) ∧
      (∀ k : Key, frostKey k.typ.toNat = false → k.wrapped = k.secret) ∧
      (∀ o c, (o, c) ∈ [(0x0D31, Instr.unwrapKw id), (0x0D33, .unwrapKwp id)] →
        WorksPure s id (only o) c
          (fun b j => if statefulType (fld j.param 0 2) = true ∨ j.desc.parAddr = 0 then some (St.badParam, 0x44)
            else templateFails (fun j => fld j.param 0 2) 4 b j) (fun j => if aeadType (fld j.param 0 2) then 4 else 0) (fun b j d =>
          let t := fld j.param 0 2
          let args := [j.keyObj.secret, j.input]
          match b.fromTemplate j.slice j.template t 4 with
          | .error e => .error e
          | .ok k =>
            if Config.ask .unwrapOk j.op args = false then .error (St.inputInvalid, 7) else
            let m := algBytes .kwUnwrap j.op args (if o = 0x0D31 then j.input.length - 8 else (Config.decoded .kwUnwrap j.op args).headD 0)
            let want := wrappedLen t k.keyLen.toNat m
            let u := { k with secret := [], pub := [] }.unwrapped m
            let u : Key := if frostKey t then u else { u with pub := if aeadType t then d else derivedPub t u u.secret }
            if m.length ≠ (if o = 0x0D31 then roundUp want 8 else want) ∨ secretOk t u.secret = false then .error (St.inputInvalid, 0x41)
            else if secretAgrees t k.keyLen.toNat u.secret u.pub = false then .error (St.inputInvalid, 0x42)
            else .ok { effects := [.createKey u true] })) ∧
      (∀ o ct tag c, (o, ct, tag, c) ∈ [(0x0D40, Alg.gcmCt, Alg.gcmTag, Instr.gcmSeal id), (0x0D50, .ccpCt, .ccpTag, .ccpSeal id)] →
        Outputs s id (only o) c noDraw (fun b j _ =>
          let iv := b.fixedField j.keyObj.replicated (fit 4 j.keyObj.pub) ++ be 8 j.oneTime
          let args := [j.keyObj.secret, iv, j.param, j.input]
          iv ++ algBytes ct 0 args j.input.length ++ algBytes tag 0 args 16)) ∧
      (∀ o pt c, (o, pt, c) ∈ [(0x0D41, Alg.gcmPt, Instr.gcmOpen id), (0x0D51, .ccpPt, .ccpOpen id)] →
        plain (only o) c (fun _ j _ =>
          let n := j.input.length - 28
          let args := [j.keyObj.secret, j.input.take 12, j.param, sub j.input 12 n, j.input.drop (12 + n)]
          if Config.ask .tagOk o args then .ok { out := algBytes pt 0 args n } else .error (St.verifyReject, 5))) ∧
      Works s id (isOp 0x12 0) (.dealerKeygen id)
        (fun b j => if ¬ (2 ≤ j.dealt.1 ∧ j.dealt.1 ≤ j.dealt.2 ∧ j.dealt.2 ≤ 64) then some (St.inputInvalid, 0)
          else templateFails (fun j => 0x1200 + j.set) 1 b j) (fun j => Config.freeNat 10 j.op) (fun b j d =>
        let t := j.dealt.1
        let n := j.dealt.2
        match b.fromTemplate j.slice j.template (0x1200 + j.set) 1 with
        | .error e => (b, .error e)
        | .ok k =>
          let pk := algBytes .frostPk j.set [d, le 1 t, le 1 n] (frostPoint j.set)
          let vs := (List.range n).map (fun i => algBytes .frostVShare j.set [d, le 1 t, le 1 n, le 1 (i + 1)] (frostPoint j.set))
          let x := b.assignMany j.scope n
          let y := x.1.assign j.scope
          (y.1, .ok {
            out := pk ++ ((x.2.zip vs).map (fun p => le 4 p.1.toNat ++ p.2)).flatten, detail := y.2,
            effects := x.2.zipIdx.map (fun p => .putKey p.1 { k with
              typ := BitVec.ofNat 16 (0x1210 + j.set), usage := k.usage &&& BitVec.ofNat 16 (permitted (0x1210 + j.set)), ceiling := 1024,
              secret := algBytes .frostShare j.set [d, le 1 t, le 1 n, le 1 (p.2 + 1)] (frostScalar j.set), pub := [],
              share := some (t, n, p.2 + 1) }) ++
              [.putKey y.2 { k with secret := [], pub := pk ++ vs.flatten, ceiling := 1024, share := some (t, n, 0) }] })) ∧
      (∀ (b : Block) (sc n : Nat), (b.assignMany sc n).2.length = n) ∧
      WorksPure s id (isOp 0x12 1) (.commit id) noPre (fun j => Config.freeNat 10 j.op) (fun _ j d =>
        let c := algBytes .frostCommit j.set [j.keyObj.secret, d] (2 * frostPoint j.set)
        .ok { out := c, effects := [.createKey {
          typ := BitVec.ofNat 16 (0x1220 + j.set), usage := 1, expire := true, origin := 1, useLimit := 1, ceiling := 1024,
          secret := algBytes .frostNonce j.set [j.keyObj.secret, d] (2 * frostScalar j.set), pub := c } true] }) ∧
      plain (isOp 0x12 2) (.signShare id) (fun _ j _ =>
        let sh := j.keyObj.share.getD (0, 0, 0)
        let list := j.input.take j.desc.aux
        let n := frostPoint j.set
        match firstFail [(!(decide (sh.1 ≤ j.entries) && decide (j.entries ≤ sh.2.1)), St.inputInvalid, 0x11),
          (!(rising (j.entryList.map (·.1)) && j.entryList.all (fun e => decide (1 ≤ e.1) && decide (e.1 ≤ sh.2.1))), St.inputInvalid, 0x12),
          (!j.entryList.all (fun e => frostPointOk j.set (e.2.take n) && frostPointOk j.set (e.2.drop n)), St.inputInvalid, 0x13),
          (!j.entryList.any (fun e => e.1 == sh.2.2 && e.2 == j.keyTwo.pub), St.inputInvalid, 0x14)] with
        | some e => .error e
        | none => .ok { out := algBytes .frostSigShare j.set [j.keyObj.secret, j.keyTwo.secret, list, j.input.drop j.desc.aux] (frostScalar j.set) }) ∧
      plain (isOp 0x12 3) (.aggregate id) (fun _ j _ =>
        let list := j.input.take j.desc.aux
        let sc := frostScalar j.set
        let shares := sub j.input j.desc.aux (j.entries * sc)
        let msg := j.input.drop (j.desc.aux + j.entries * sc)
        let bad := (List.range j.entries).filter (fun i =>
          !Config.ask .shareOk j.set [j.keyObj.pub, list, le 2 (j.entryAt i).1, sub shares (i * sc) sc, msg])
        match lowest (bad.map (fun i => (j.entryAt i).1)) with
        | some i => .error (St.inputInvalid, BitVec.ofNat 32 (0x10000 + i))
        | none => .ok { out := algBytes .frostSig j.set [j.keyObj.pub, list, shares, msg] (frostSigLen j.set) }) ∧
      plain (isOp 0x12 4) (.frostVerify id) (fun _ j _ =>
        let n := frostPoint j.set
        let pk := if j.desc.supplied then j.input.take n else j.keyObj.pub.take n
        let rest := j.afterKey n
        judge ((if j.desc.supplied then frostChecks j.set pk else []) ++ [
          (!Config.ask .verifies (0x1200 + j.set) [pk, rest.take (frostSigLen j.set), rest.drop (frostSigLen j.set)], St.verifyReject, 5)])) ∧
      WorksPure s id (isOp 0x12 5) (.fabricSign id lost) noPre (fun _ => 32) (fun _ j parts =>
        let k := fld j.input 0 1
        let sh := j.keyObj.share.getD (0, 0, 0)
        let list := sub j.input 4 (8 * k)
        let msg := j.input.drop (4 + 8 * k)
        let bad := (List.range k).filter (fun i => !Config.ask .shareOk j.set [j.keyObj.pub, list, le 2 i, parts, msg])
        if k < sh.1 ∨ sh.2.1 < k then .error (St.inputInvalid, 0x11)
        else if j.input.length < 4 + 8 * k then .error (St.lengthMismatch, BitVec.ofNat 32 (4 + 8 * k))
        else match lost with
          | some m => .error (St.fabricUnreachable, m.setWidth 32)
          | none => match lowest (bad.map (fun i => (Config.decoded .frostShare j.set [sub list (8 * i) 8]).headD 0)) with
            | some i => .error (St.inputInvalid, BitVec.ofNat 32 (0x10000 + i))
            | none => .ok { out := algBytes .frostSig j.set [j.keyObj.pub, list, parts, msg] (frostSigLen j.set) }) ∧
      plain (isOp 0x12 6) (.shareSend id dest) (fun _ j _ => match dest with
        | none => .error (St.fabricUnreachable, BitVec.ofNat 32 (fld j.input 0 2 % 4096))
        | some h => .ok { effects := [.sendShare j.desc.handle h] })) ∧
  (∀ (l : List Nat), (rising l = true ↔ l.Pairwise (· < ·))) ∧
  (∀ (l : List Nat), (lowest l = none ↔ l = []) ∧ ∀ i, lowest l = some i → i ∈ l ∧ ∀ x ∈ l, i ≤ x)

/-- The primitive, digest and random jobs (R117, R258, R274, R280, R283, R420, Tables 4.7 to 4.9 and 11.7): operands as Table 4.7 lays them out, its checks
in the order of Table 4.8. RANDOM gives as many bytes as its output capacity, once the wale DRBGs that wait at its quadrant's seeder are served.
FULL_ENTROPY takes the conditioned blocks its quadrant has, one by one, and keeps them while it waits for more; short of its output it ends with
ENTROPY_UNAVAILABLE, Detail 2, when every source of the quadrant is OFF or FENCED. -/
def Obligations.PrimitiveAndRandomJobs : Prop :=
  ∀ (s : State) (id : Nat),
    (∀ o p c, (o, p, c) ∈ [(0x1100, Prim.modAdd, Instr.modAdd id), (0x1101, .modSub, .modSub id), (0x1102, .modMul, .modMul id),
        (0x1103, .modRed, .modRed id), (0x1104, .modInv, .modInv id), (0x1105, .modExp, .modExp id)] →
      WorksPure s id (only o) c noPre noDraw (fun _ j _ =>
        let l := bits j.desc.inline.toNat 15 0
        let e := bits j.desc.inline.toNat 31 16
        let n := p.lens l e
        match primRun p false e l (sub j.input n.2.2 n.1) (sub j.input (n.2.2 + n.1) n.2.1) (j.input.take n.2.2) with
        | .ok v => .ok { out := v }
        | .error e => .error e)) ∧
    (∀ o p c, (o, p, c) ∈ [(0x1110, Prim.ptAdd, Instr.ptAdd id), (0x1111, .ptMul, .ptMul id)] →
      WorksPure s id (only o) c noPre noDraw (fun _ j _ =>
        let l := bits j.desc.inline.toNat 15 0
        let e := bits j.desc.inline.toNat 31 16
        let n := p.lens l e
        match primRun p (bits j.desc.inline.toNat 33 32 == 1) e l (j.input.take n.1) (sub j.input n.1 n.2.1) j.param with
        | .ok v => .ok { out := v }
        | .error e => .error e)) ∧
    Outputs s id (fun op => fam op == 0xE) (.digest id) noDraw (fun _ j _ => digestOf j.set j.input) ∧
    (∀ j, Runs s id (only 0x0F00) j →
      let b := s.toBlock.serveRanks j.quad
      (b.serves j.quad = false → 0 < j.desc.outCap → exec (.random id) s = .next (s.to b)) ∧
      (b.serves j.quad = true → 0 < j.desc.outCap → exec (.random id) s = .next (s.to
        ((b.seedDraw j.quad j.desc.outCap).presentResult j
          (.ok { out := b.draw j.desc.outCap, detail := if b.rng.pattern.isSome then 1 else 0 }))))) ∧
    (∀ j, Runs s id (only 0x0F01) j →
      let b := s.toBlock
      let n := min (Tab.get 0 b.rng.blocks j.quad) ((j.desc.outCap - j.input.length) / 16)
      let got := j.input ++ b.conditioned n
      let t := (b.takeBlocks j.quad n).drew (16 * n)
      (j.desc.outCap ≤ got.length →
        exec (.fullEntropy id) s = .next (s.to (t.presentResult j (.ok { out := got, detail := if b.rng.pattern.isSome then 1 else 0 })))) ∧
      (got.length < j.desc.outCap → b.healthy j.quad = 0 ∧ b.reviving j.quad = false →
        exec (.fullEntropy id) s = .next (s.to (b.present id { status := St.entropyUnavailable, detail := 2 }))) ∧
      (got.length < j.desc.outCap → ¬ (b.healthy j.quad = 0 ∧ b.reviving j.quad = false) →
        exec (.fullEntropy id) s = .next (s.to (t.modJob id (fun x => { x with input := got }))))) ∧
    (∀ (b : Block) (n : Nat), (b.conditioned n).length = 16 * n)

/-- The modular primitives compute what they are named for (R117, Tables 4.7 and 4.8): on operands below an odd modulus of full width, the sum, difference and
product modulo it and a power of the first operand, most significant byte first; and an inverse that MOD_INV answers is one. -/
def Obligations.ModularPrimitives : Prop :=
  ∀ (n a b e m elen : Nat), 8 ≤ n → 2 ^ (8 * n - 64) ≤ m → m < 256 ^ n → m % 2 = 1 → 1 < m → a < m → b < m → e < 2 ^ elen →
    primRun .modAdd false 0 (8 * n) (be n a) (be n b) (be n m) = .ok (be n ((a + b) % m)) ∧
    primRun .modSub false 0 (8 * n) (be n a) (be n b) (be n m) = .ok (be n ((a + (m - b)) % m)) ∧
    primRun .modMul false 0 (8 * n) (be n a) (be n b) (be n m) = .ok (be n (a * b % m)) ∧
    primRun .modExp false elen (8 * n) (be n a) (be ((elen + 7) / 8) e) (be n m) = .ok (be n (a ^ e % m)) ∧
    ∀ v, primRun .modInv false 0 (8 * n) (be n a) [] (be n m) = .ok v → a * ofBe v % m = 1

/-- The key-management jobs (Table 10.5, R239 to R251): generation of a byte-string key, import and its checks, deletion, attributes, narrowing, sealing,
eviction, loading, counters, defaults. Each answers what the rules give it, and a restriction that is no narrowing is BAD_PARAM, Detail 0x45. A counter
an eviction binds or a bound object was sealed under advances by one at the run, so that no object is stamped twice or loaded twice (log 132); a counter
that a key is bound to, be it resident, evicted or on its way, is not freed. A loaded AEAD key takes a fresh fixed field (R70). A narrowing takes no right a key did not have (R243): no usage is added, no use limit raised or lifted, NO_MIGRATE is not cleared and the masking order does
not fall. -/
def Obligations.KeyManagementJobs : Prop :=
  (∀ (s : State) (id : Nat),
      let plain (o : Nat) (c : Instr) (r : Block → Job → Bytes → RunResult) := WorksPure s id (only o) c noPre noDraw r
      let typ (j : Job) := fld j.param 0 2
      let nbits (j : Job) := if typ j = 0x900 then importBits j.param j.input 4 else fld j.param 0x1A 2
      WorksPure s id (only 0x1000) (.keyGenerate id)
        (fun b j => if j.desc.parAddr = 0 ∨ ¬ (0x0D00 ≤ typ j ∧ typ j ≤ 0x0D03) then some (St.badParam, 0x44) else templateFails typ 1 b j)
        (fun j => secretLen (typ j) (fld j.param 0x1A 2) + (if aeadType (typ j) then 4 else 0)) (fun b j d =>
          match b.fromTemplate j.slice j.template (typ j) 1 with
          | .error e => .error e
          | .ok k => .ok { effects := [.createKey { k with
              secret := d.take (secretLen (typ j) (fld j.param 0x1A 2)), pub := d.drop (secretLen (typ j) (fld j.param 0x1A 2)) } true] }) ∧
      WorksPure s id (only 0x1010) (.keyImport id) (fun b j =>
          if j.desc.parAddr = 0 ∨ importable (typ j) = false then some (St.badParam, 0x44)
          else if j.input.length ≠ secretLen (typ j) (nbits j) then some (St.lengthMismatch, BitVec.ofNat 32 (secretLen (typ j) (nbits j)))
          else if typ j = 0x900 ∧ keyLenOk 0x900 (nbits j) = false then some (St.badParam, 0x44) else templateFails typ 2 b j)
        (fun j => if aeadType (typ j) then 4 else 0) (fun b j d =>
          match b.fromTemplate j.slice j.template (typ j) 2 with
          | .error e => .error e
          | .ok k =>
            let k := { k with
              secret := j.input, pub := [], keyLen := BitVec.ofNat 16 (nbits j),
              usage := if typ j / 256 = 8 then k.usage &&& ~~~0x0004 else k.usage }
            let k := { k with pub := if aeadType (typ j) then d else derivedPub (typ j) k j.input }
            if k.usage = 0 then .error (St.badParam, 0x44)
            else if b.roomFor j k.space = false then .error (St.quota, 6)
            else if secretOk (typ j) j.input = false then .error (St.inputInvalid, 0x41)
            else if secretAgrees (typ j) (nbits j) j.input k.pub = false then .error (St.inputInvalid, 0x42)
            else .ok { effects := [.createKey k true] }) ∧
      (∀ m, secretOk 0x900 m = true ↔ (rsaParts m).1 % 2 = 1 ∧ 3 ≤ (rsaParts m).1 ∧ (rsaParts m).2.1 % 2 = 1 ∧ (rsaParts m).2.2 % 2 = 1) ∧
      (∀ c < 3, ∀ m, secretOk (0xA00 + c) m = true ↔ 0 < ofBe m ∧ ofBe m < nistN c) ∧
      WorksPure s id (only 0x1011) (.keyImportPublic id) (fun b j =>
          let want := publicLen (typ j) (nbits j)
          let short := typ j / 256 = 0xA ∧ j.input.length = 1 + nistL (typ j % 256)
          if j.desc.parAddr = 0 ∨ importable (typ j) = false ∨ publicLen (typ j) 2048 = 0 then some (St.badParam, 0x44)
          else if j.input.length ≠ want ∧ ¬ short then some (St.lengthMismatch, BitVec.ofNat 32 want)
          else if typ j = 0x900 ∧ keyLenOk 0x900 (nbits j) = false then some (St.badParam, 0x44) else templateFails typ 2 b j)
        noDraw (fun b j _ =>
          let short := typ j / 256 = 0xA ∧ j.input.length = 1 + nistL (typ j % 256)
          match b.fromTemplate j.slice j.template (typ j) 2 with
          | .error e => .error e
          | .ok k =>
            let k := { k with
              secret := [], pub := if short then decompress (typ j % 256) j.input else j.input, keyLen := BitVec.ofNat 16 (nbits j),
              usage := k.usage &&& 0x0006 }
            if k.usage = 0 then .error (St.badParam, 0x44)
            else if b.roomFor j k.space = false then .error (St.quota, 6)
            else if publicOk (typ j) j.input = false then .error (St.inputInvalid, 0x41)
            else .ok { effects := [.createKey k true] }) ∧
      plain 0x1020 (.keyDelete id) (fun _ j _ => .ok { effects := [.deleteKey j.desc.handle] }) ∧
      plain 0x1021 (.keyGetAttr id) (fun b j _ => .ok { out := attrBytes (b.keyNow j) }) ∧
      plain 0x1022 (.keyExportPublic id) (fun b j _ => .ok { out := (b.keyNow j).publicHalf }) ∧
      plain 0x1023 (.keyRestrict id) (fun b j _ =>
        let k := b.keyNow j
        let n := parseAttr j.input
        if narrows k j.input then .ok { effects := [.restrict j.desc.handle { k with
          usage := n.usage, useLimit := n.useLimit, noMigrate := n.noMigrate, order := n.order, label := n.label }] }
        else .error (St.badParam, 0x45)) ∧
      plain 0x1030 (.keySeal id) (fun b j _ => .ok (j.sealedTo (b.sealed j (b.admittedKey j) 0xFFFF 0) [])) ∧
      Works s id (only 0x1031) (.keyEvict id)
        (fun b j => if j.desc.ctrValid = true ∧ b.ctrOwner (b.ctrOf j.slice j.desc.ctrNo) ≠ .slice j.slice then some (St.badParam, 0)
          else if j.desc.ctrValid = true ∧ 2 ^ 64 - 1 ≤ b.counter (b.ctrOf j.slice j.desc.ctrNo) then some (St.keyExhausted, 0) else none) noDraw
        (fun b j _ =>
          let n := b.ctrOf j.slice j.desc.ctrNo
          if j.desc.ctrValid then
            (b.raiseCounter n (b.counter n + 1),
              .ok (j.sealedTo (b.sealed j { b.admittedKey j with bound := true, ctr := BitVec.ofNat 32 n } n (b.counter n + 1))
                [.bindCtr n, .deleteKey j.desc.handle]))
          else (b, .ok (j.sealedTo (b.sealed j (b.admittedKey j) 0xFFFF 0) [.deleteKey j.desc.handle]))) ∧
      Works s id (only 0x1032) (.keyLoad id) noPre (fun j => if aeadType (s.toBlock.loaded j).typ.toNat then 4 else 0) (fun b j d =>
        let ddr := addrForm j.desc.inAddr = 1
        let o := if ddr then j.object else j.input
        let n := if fld o 0xA 2 = 0xFFFF then 0xFFFF else b.ctrOf j.slice (fld o 0xA 2)
        let absent : Block := if ddr then b.absentObject j.slice j.objectNo else b
        let advanced : Block := b.raiseCounter n (b.counter n + 1)
        match objectFails 1 (b.knownAs j.slice) o with
        | some e => (absent, .error e)
        | none =>
          if Config.ask .sealTagOk 1 (b.sealKey j.slice ++ [o]) = false then (absent, .error (St.inputInvalid, 6))
          else if n ≠ 0xFFFF ∧ fld o 0x10 8 ≠ b.counter n then (b, .error (St.inputInvalid, 0xB))
          else if n ≠ 0xFFFF ∧ 2 ^ 64 - 1 ≤ b.counter n then (b, .error (St.keyExhausted, 0))
          else (if n = 0xFFFF then b else { advanced with bat := { advanced.bat with evicted := b.bat.evicted.filter (· != n) } },
            .ok { effects := [.loadKey (BitVec.ofNat 32 (fld o 0x18 4))
              (if aeadType (b.loaded j).typ.toNat then { b.loaded j with pub := d } else b.loaded j)] })) ∧
      (∀ (b : Block) (j : Job), let o := if addrForm j.desc.inAddr = 1 then j.object else j.input
        Config.ask .sealTagOk 1 (b.sealKey j.slice ++ [o]) = true →
          b.loaded j = payloadKey (algBytes .unseal 1 (b.sealKey j.slice ++ [o]) (fld o 0x2C 4))) ∧
      (∀ (b : Block) (j : Job), let k := b.admittedKey j
        (k.usage = j.keyObj.usage ∧ k.useLimit = j.keyObj.useLimit ∧ k.noMigrate = j.keyObj.noMigrate ∧ k.order = j.keyObj.order) ∧
        (∀ k', b.key j.desc.handle = some k' → k.useCount = k'.useCount ∧ k.secret = k'.secret ∧ k.pub = k'.pub)) ∧
      plain 0x1040 (.ctrAlloc id) (fun b j _ => match b.freeCounter with
        | some n => if b.ctrsOf j.slice < 64 then .ok { effects := [.allocCtr n] } else .error (St.quota, 8)
        | none => .error (St.quota, 8)) ∧
      WorksPure s id (only 0x1041) (.ctrRead id) ctrForeign noDraw (fun b j _ => .ok { out := le 8 (b.counter (b.ctrOf j.slice j.desc.ctrNo)) }) ∧
      WorksPure s id (only 0x1042) (.ctrFree id) ctrForeign noDraw (fun b j _ =>
        let n := b.ctrOf j.slice j.desc.ctrNo
        if b.boundTo n then .error (St.keyState, 0) else .ok { effects := [.freeCtr n] }) ∧
      (∀ (b : Block) (n : Nat), n ∈ b.bat.evicted ∨ (∃ p ∈ b.kst.keys, p.2.bound = true ∧ p.2.ctr.toNat = n ∧ p.2.tombstone = false) ∨
          (∃ j ∈ b.jobs, j.granted = true ∧ j.ended = false ∧ ∃ h k, Effect.loadKey h k ∈ j.result.effects ∧ k.bound = true ∧ k.ctr.toNat = n) ∨
          (∃ j ∈ b.jobs, j.granted = true ∧ j.ended = false ∧ j.op = 0x1031 ∧ j.desc.ctrValid = true ∧ b.ctrOf j.slice j.desc.ctrNo = n) →
        b.boundTo n = true) ∧
      plain 0x1050 (.keySync id) (fun _ _ _ => .ok {}) ∧
      plain 0x1060 (.keySetDefaults id) (fun _ j _ =>
        if defaultBad (j.input.take 64) [0] 0x3FFF || defaultBad (j.input.drop 64) [0, 0x0C00] 0x00E0 then .error (St.badParam, 0x44)
        else .ok { effects := [.setTemplates (j.input.take 64) (j.input.drop 64)] })) ∧
  (∀ (k : Key) (r : Bytes), narrows k r = true →
      let n := parseAttr r
      n.usage &&& k.usage = n.usage ∧ (k.useLimit ≠ 0 → n.useLimit ≠ 0 ∧ n.useLimit ≤ k.useLimit) ∧ (k.noMigrate = true → n.noMigrate = true) ∧
      k.order ≤ n.order)

/-- The journal, the sweep and the customer's run (R131, R244, R252, R318): a commit writes the oldest change, advances the epoch counter and counts itself,
then releases the jobs that waited; the sweep leaves the store ZEROISED with nothing in it but tombstones, which hold no secret, and a seal that waited for it is
taken: the core domain is held in reset, and the battery domain, the fuses, the flash and the tamper domain go on; a customer job's wale begins its
microprogram, by the WAIT_WORK at its address, at the registered address. -/
def Obligations.JournalAndSweep : Prop :=
  ∀ (s : State) (id : Nat) (j : Job) (w : WaleId),
    let b := s.toBlock
    (b.kst.lag = [] ∨ b.boot.coreUp = false → exec .journalCommit s = .next s) ∧
    (∀ c r, b.kst.lag = c :: r → b.boot.coreUp = true →
      exec .journalCommit s = .next (s.to b.commitOne.releaseWaits) ∧ b.commitOne.kst.lag = r ∧ b.commitOne.kst.commits = b.kst.commits + 1 ∧
      b.commitOne.kst.lastCommit = b.now ∧ b.commitOne.flash.written = true ∧ b.commitOne.flash.epoch = b.commitOne.counter 0 ∧
      (b.counter 0 + 1 < 2 ^ 64 → b.commitOne.counter 0 = b.counter 0 + 1)) ∧
    (b.flt.sealing = false →
      (b.kst.st ≠ .sweeping → exec .sweepEnd s = .next s) ∧
      (b.kst.st = .sweeping → exec .sweepEnd s = .next (s.to { b with kst := { b.kst with st := .zeroised, keys := tombstones b.kst.keys } }))) ∧
    (b.flt.sealing = true → ∃ t, exec .sweepEnd s = .next t ∧ t.pending = s.pending ∧ t.flt = { b.flt with sealed := true, sealing := false } ∧
      t.bat = b.bat ∧ t.otp = b.otp ∧ t.tam = b.tam ∧ t.flash = b.flash ∧ t.pwr = b.pwr ∧ t.boot.coreUp = false ∧ t.jobs = [] ∧
      (b.kst.st = .sweeping → t.kst.st = .zeroised ∧ t.kst.keys = tombstones b.kst.keys)) ∧
    (∀ p ∈ tombstones b.kst.keys, p.2.tombstone = true ∧ p.2.secret = [] ∧ ∃ k, (p.1, k) ∈ b.kst.keys ∧ (k.expire = true ∨ k.tombstone = true)) ∧
    (b.job id = some j → j.entry.customer = false → exec (.customerEntry id) s = .next s) ∧
    (b.job id = some j → j.entry.customer = true → j.wales = [w] → j.phase = .running →
      let x := b.wale w
      x.job = some id → x.st = .running → x.micro.issuing = false → x.micro.released = none → x.spells w (.waitWork w) = true →
      let y := x.begin j b.now none [] []
      exec (.customerEntry id) s = .next (s.toWale w y) ∧ y.micro.pc = j.entry.address ∧ y.micro.issuing = true ∧ y.micro.customer = true)

/-! ### Mailboxes (chapters 07, 09 to 16) -/

/-- The exchange (R185, R186, R187, R204, R212, Table 7.13): an answer stands over the window behind a header with the version, the response bit, the
command, the host's sequence number, status, length and Detail; BUSY clears and DONE sets. A DMA payload goes to its address, the admin's without PASID; a
slice's is written as its tokens allow, and its mailbox is BUSY until all of it has gone; a wedged slice's mailbox answers nothing (R211). Of an admin answer nothing else changes but its event. The first
check that fails decides, in the order version, mailbox, reserved fields, layout, readiness, the command's own slice state, lifecycle. -/
def Obligations.MailboxAnswers : Prop :=
  (∀ (b : Block) (r : Req) (code : W16) (y : Reply), y.out.length < 2 ^ 32 → 0 < b.host.mps →
    let h := responseHeader r code y
    let first := min (b.host.mps - r.respAddr.toNat % b.host.mps) y.out.length
    (h.length = 16 ∧ fld h 0 1 = 3 ∧ fld h 1 1 = (if r.dma then 3 else 1) ∧ fld h 2 2 = code.toNat ∧ fld h 4 2 = r.seq.toNat ∧
      fld h 6 2 = y.status.toNat ∧ fld h 8 4 = y.out.length ∧ fld h 12 4 = y.detail.toNat) ∧
    (∀ sl, r.box = some sl → (b.slice sl).st = .wedged →
      (b.reply r code y).link = b.link ∧ ((b.reply r code y).box r.box).window = (b.box r.box).window ∧
      ((b.reply r code y).box r.box).done = (b.box r.box).done) ∧
    ((r.dma = true → ∀ sl, r.box = some sl → (b.slice sl).quota.rate = 0) → (∀ sl, r.box = some sl → (b.slice sl).st ≠ .wedged) →
      let m := (b.reply r code y).box r.box
      m.busy = false ∧ m.done = true ∧ m.seq = r.seq ∧ m.cmd = none ∧
      m.window = (b.box r.box).window.writeAll 0 (h ++ (if r.dma then [] else y.out))) ∧
    (∀ sl, r.dma = true → y.out ≠ [] → r.box = some sl → (b.slice sl).st ≠ .wedged → (b.slice sl).quota.rate ≠ 0 → (b.slice sl).bucket < (first : Int) →
      let m := (b.reply r code y).box r.box
      m.busy = true ∧ m.toWrite = some (r.respAddr, y.out, h) ∧ m.window = (b.box r.box).window ∧ (b.reply r code y).link = b.link) ∧
    (r.box = none →
      let b' := b.reply r code y
      b'.host.evtStatus.getLsbD 0 = true ∧
      (r.dma = true → y.out ≠ [] → LinkOp.write r.respAddr (y.out.take first) none true ∈ b'.link) ∧
      { b' with admin := b.admin, host := b.host, link := b.link } = b)) ∧
  (∀ (b : Block) (c : Cmd) (r : Req) (own : Option (W16 × W32)),
    (r.version ≠ 3 → b.refuses c r own = some (St.badParam, 0)) ∧
    (r.version = 3 →
      ((if r.box.isNone then c.admin else c.slice) = false → b.refuses c r own = some (St.badOpcode, 0)) ∧
      ((if r.box.isNone then c.admin else c.slice) = true → r.readFault = none →
        (r.reserved ≠ 0 ∨ r.declared ≠ r.payload.length ∨ c.len r.payload.length = false → b.refuses c r own = some (St.badParam, 0)) ∧
        (r.reserved = 0 → r.declared = r.payload.length → c.len r.payload.length = true → r.declared ≤ c.most → (r.dma = false → r.declared ≤ 2032) →
          (b.boot.ready = false → b.boot.recovery = false → c.early = false → b.refuses c r own = some (St.contextBusy, 0xE0)) ∧
          (r.box = none → b.boot.ready = true → b.boot.recovery = false →
            (∀ e, own = some e → b.refuses c r own = some e) ∧
            (own = none → b.otp.lifecycle ∉ c.states → b.refuses c r own = some (St.keyState, BitVec.ofNat 32 b.otp.lifecycle.code)) ∧
            (own = none → b.otp.lifecycle ∈ c.states → b.refuses c r own = none))))))

/-- The commands that only read (Tables 7.16, 10.13, 10.18, 10.19, 11.11, 12.8, 13.7, 13.12, 15.6, 16.7, R75, R189, R190): what each answers, and that
nothing but its mailbox changes; a payload that comes by DMA is asked for first. SPDM measurements are answered after the negotiation, blocks 1 to 16 with
their registers and block 0xFD with a QUOTE, signed where that is asked (R261, log 139); a nonce comes from the lowest-numbered seeder that
delivers, and without one the answer is Busy (log 166). The fault log is read in the order its notes were given their numbers (log 158). Layouts the spec does not give are log 24; signed statements and certificate chains are of outside standards (log 2). -/
def Obligations.MailboxReads : Prop :=
  ∀ (s : State) (r : Req),
    let p := r.payload
    let wal (i : Instr) (code : W16) (f : Block → WaleId → Nat) := Submits s i { code := code, len := exactly 4 } r (fun b =>
      if fld p 2 2 ≠ 0 then (b, .fail St.badParam 0)
      else if h : fld p 0 2 < 64 then (b, .ok (le 4 (f b ⟨fld p 0 2, h⟩))) else (b, .fail St.badParam 1))
    Reads s (.getVersion r) { code := 0x0001, slice := true, states := anyLife, early := true, recovery := true } r (fun b =>
      let x := b.boot.slots[b.boot.running]
      le 1 3 ++ le 1 (Config.freeNat 13 (if b.boot.recovery then 0 else x.version.toNat)) ++ le 2 0 ++
      le 4 (if b.boot.recovery then 0 else x.version.toNat) ++ le 4 (if b.boot.recovery then 0 else x.security) ++
      le 4 b.boot.catGen.toNat ++ le 4 (b.visible r.box).length) ∧
    Submits s (.catQuery r) { code := 0x0002, slice := true, len := exactly 8 } r (fun b =>
      let l := ((b.visible r.box).drop (fld p 0 4)).take (if r.dma then fld p 4 2 else min (fld p 4 2) 63)
      if fld p 6 2 ≠ 0 then (b, .fail St.badParam 0)
      else (b, .ok (le 4 b.boot.catGen.toNat ++ le 4 (b.visible r.box).length ++ le 2 l.length ++ le 2 0 ++ l.flatMap entryBytes))) ∧
    wal (.walCfgRead r) 0x0010 (fun b w => b.walCfg w) ∧ wal (.walStatRead r) 0x0012 (fun b w => b.walStat w) ∧
    wal (.walCsbRead r) 0x0013 (fun b w => (b.wale w).csb.toNat) ∧
    SubmitsLc s (.lcState r) { code := 0x0050, states := anyLife, early := true } r (fun b _ => (b, .ok
      (le 1 b.otp.lifecycle.code ++ le 1 b.kst.st.code ++ [b.otp.stepping, 0] ++ le 1 b.otp.zeroCount ++ zeros 3 ++ fit 48 b.otp.ownerKeyId))) ∧
    Reads s (.kstStatus r) { code := 0x0054 } r (fun b =>
      le 1 b.kst.st.code ++ zeros 3 ++ le 4 (b.poolUsed (fun s => decide (s < 1024))) ++ le 4 (b.poolUsed (fun s => s == 1024)) ++
      le 4 (Config.freeNat 19 0 % 513) ++ le 4 (4032 - (b.bat.owners.filter (fun o => o.2 != .none)).length) ++ le 4 b.kst.lag.length ++
      le 8 b.kst.lastCommit.toNat) ∧
    Reads s (.kstPolicyGet r) { code := 0x0056 } r (fun b => le 4 b.kst.policy.toNat) ∧
    Reads s (.measRead r) { code := 0x0100, slice := true } r (fun b =>
      (List.range 16).flatMap (fun m => (Tab.get {} b.att.regs m : Bank).sha2 ++ (Tab.get {} b.att.regs m : Bank).sha3) ++ le 1 (b1 b.att.overflow) ++
      b.att.events.flatMap (fun e => le 1 e.reg ++ le 8 e.ts.toNat ++ e.sha2 ++ e.sha3 ++ [e.kind])) ∧
    Reads s (.attestQuote r) { code := 0x0101, admin := false, slice := true, len := nonceLen } r (fun b => b.statement 1 p r.box [] []) ∧
    Submits s (.attestKey r) { code := 0x0102, admin := false, slice := true, len := fun n => decide (4 ≤ n) && nonceLen (n - 4) } r (fun b =>
      let h : W32 := BitVec.ofNat 32 (fld p 0 4)
      if b.kst.st ≠ .unlocked then (b, .fail St.keyState 0) else
      match r.box.bind (fun sl => b.visibleKey sl h) with
      | none => (b, .fail St.keyNotFound 0)
      | some k => if k.tombstone then (b, .fail St.keyExpired 0) else (b, .ok (b.statement 2 (p.drop 4) r.box (keyClaim h k) []))) ∧
    Reads s (.certChain r) { code := 0x0103, slice := true, states := anyLife } r (fun b => algBytes .certChain 0
      (b.deviceKeys ++ b.aliasKeys ++ (List.range 4).map (fun m => (Tab.get {} b.att.regs m : Bank).sha2)) (2 * signatures + Config.statementLen 6)) ∧
    (∀ (b : Block) (keys : Bank × Bank × Bank × Bank),
      b.att.regs = [(0, keys.1), (1, keys.2.1), (2, keys.2.2.1), (3, keys.2.2.2)] →
      b.aliasKeys = idKeys (algBytes .deviceId 1 [b.otp.uds, keys.1.sha2 ++ keys.2.1.sha2 ++ keys.2.2.1.sha2 ++ keys.2.2.2.sha2 ++
        le 4 (b.boot.slots[b.boot.running]).security] 88) ∧ b.deviceKeys = idKeys (algBytes .deviceId 1 [b.otp.uds, []] 88)) ∧
    Reads s (.rngStatus r) { code := 0x0060, states := anyLife } r Block.rngRecord ∧
    Reads s (.rngCfgGet r) { code := 0x0062 } r (fun b => le 4 b.rng.cfg.toNat) ∧
    Reads s (.tamPolicyGet r) { code := 0x0070 } r (fun b => policyBytes b.tam.policy) ∧
    Reads s (.tamLogRead r) { code := 0x0074, states := anyLife, early := true } r (fun b =>
      b.tam.log.reverse.flatMap eventBytes ++ b.bat.log.reverse.flatMap eventBytes ++ le 4 (b1 b.bat.logOver)) ∧
    Reads s (.tamLidRead r) { code := 0x0075, states := anyLife } r (fun b =>
      let side (t : Tab (Nat × Nat)) : Bytes := (List.range 96).flatMap (fun i => le 4 (Tab.get (0, 0) t i).1 ++ le 4 (Tab.get (0, 0) t i).2)
      side b.tam.lidNow ++ side b.tam.lidRefs) ∧
    Submits s (.fltLogRead r) { code := 0x0080, len := exactly 8, states := anyLife, early := true, recovery := true } r (fun b =>
      if 1 < fld p 0 1 ∨ fld p 1 3 ≠ 0 then (b, .fail St.badParam 0)
      else if fld p 0 1 = 1 then (b, .ok ((b.flash.faults.reverse.filter (fun x => decide (fld p 4 4 ≤ x.1.toNat))).flatMap (fun x => noteBytes x.2)))
      else (b, .ok ((b.flt.log.reverse.filter (fun x => decide (fld p 4 4 = 0 ∨ b.flt.place (fld p 4 4) ≤ b.flt.place x.1.toNat))).flatMap
        (fun x => noteBytes x.2)))) ∧
    Reads s (.fltFenceRead r) { code := 0x0082, states := anyLife } r (fun b =>
      le 8 b.flt.fence.wale.toNat ++ le 4 b.flt.fence.unit.toNat ++ le 4 b.flt.fence.dma.toNat ++ le 4 b.flt.fence.grp.toNat ++
      le 4 b.flt.fence.dev.toNat ++ le 4 b.flt.recs.length ++ zeros 4 ++ b.flt.recs.flatMap (fun x => fenceRecBytes
        (if ∃ n ∈ b.flt.log, n.1 = x.2.seq then x.2 else { x.2 with seq := 0 }))) ∧
    (∃ f, Reads s (.wtyStatus r) { code := 0x0090, len := exactly 0, states := ownedLife } r f ∧ ∀ b n, b.wty.number = some n →
      ∃ rest, f b = le 2 n.toNat ++ le 8 (b.counter 2) ++ le 2 b.wty.masterNo.toNat ++ le 1 b.wty.depth ++
        b.wty.ports.toList.flatMap (fun x => le 4 x.word) ++ rest) ∧
    Reads s (.wtyFzPolicyGet r) { code := 0x0096, len := exactly 0, states := ownedLife } r (fun b => le 4 b.wty.fzPolicy.toNat) ∧
    Reads s (.pwrStatus r) { code := 0x00A0, states := anyLife, early := true } r (fun b =>
      le 1 b.devState.code ++ le 1 (b1 b.pwr.avsLost + 2 * b1 b.pwr.ioutHold + 4 * b1 b.pwr.derated) ++ le 2 b.pwr.rail ++ le 2 b.pwr.vout ++
      le 2 b.pwr.iout ++ le16 (Tjs.hottest b.pwr.tj) ++ le16 b.pwr.tcase ++
      (List.range 4).flatMap (fun q => le 1 ((b.quad q).bin.val + 8 * b1 (b.quad q).onNet + 16 * b1 (!(b.quad q).pllRun) + 32 * b1 (b.quad q).hold)) ++
      le 8 b.now.toNat) ∧
    Reads s (.pwrCfgGet r) { code := 0x00A2 } r (fun b => le 4 b.pwr.cfg.toNat) ∧
    Reads s (.ageStatus r) { code := 0x00A6, states := anyLife } r (fun b => (List.range 64).flatMap b.ageRecord) ∧
    Reads s (.ageCfgGet r) { code := 0x00A8 } r (fun b => le 4 b.pwr.ageCfg.toNat) ∧
    Reads s (.fwStatus r) { code := 0x00B0, states := anyLife, early := true, recovery := true } r (fun b =>
      b.boot.slots.toList.flatMap (fun x => le 1 (b1 (x.valid && decide (b.otp.fwFloor ≤ x.security))) ++ le 4 x.version.toNat ++ le 4 x.security) ++
      le 1 b.boot.active.val ++ b.boot.trial.bytes ++ le 1 b.otp.fwFloor) ∧
    (∃ f : Block → SliceId → Bytes, OnSlice s (.sliceQuery r) 0x0032 r (exactly 4) anySlice (fun b sl => (b, .ok (f b sl))) ∧
      ∀ b sl, ∃ rest, f b sl = le 1 (b.slice sl).st.code ++ le 8 (b.slice sl).since.toNat ++ le 1 (b1 (b.slice sl).adsor) ++ rest) ∧
    OnSlice s (.sliceCounters r) 0x0039 r (exactly 4) [.quiesced, .active, .quiescing, .wedged, .frozen, .receiving]
      (fun b sl => (b, .ok (b.sliceCounters sl))) ∧
    OnOwn s (.sliceState r) 0x0122 r (exactly 0) [.quiesced, .active, .quiescing, .frozen]
      (fun b sl => (b, .ok (le 1 (b.slice sl).st.code ++ le 8 (b.slice sl).since.toNat))) ∧
    OnOwn s (.migPolicyGet r) 0x0121 r (exactly 0) [.quiesced, .active]
      (fun b sl => (b, .ok (le 4 (b.slice sl).migPolicy.toNat ++ fit 48 (b.slice sl).migDigest))) ∧
    (∀ (via : SpdmVia) (secured signed : Bool) (block : Byte) (nonce : Bytes),
      let b := s.toBlock
      let n := block.toNat
      let c := b.spdm via
      let run := exec (.spdmGetMeasurements ⟨via, secured, signed, block⟩ nonce) s
      let head (code p1 : Byte) : Bytes := [if c.version = 0 then 0x10 else c.version, code, p1, 0]
      let answers (d : Bytes) : Prop :=
        (b.drawDevice 32 = none → run = .next (s.to (b.emit (.spdm via secured (head 0x7F 0x03))))) ∧
        (∀ x b', b.drawDevice 32 = some (x, b') → run = .next (s.to (b'.emit (.spdm via secured (head 0x60 0 ++ (if signed
          then d ++ x ++ algBytes .ecSig 0x48 [block :: nonce, x, d] 96 else d ++ x))))))
      (b.boot.rimUp = false → run = .next s) ∧
      (b.boot.rimUp = true →
        (c.algs = false ∨ (secured = true ∧ c.sessions = 0) → run = .next (s.to (b.emit (.spdm via secured (head 0x7F 0x04))))) ∧
        (c.algs = true → (secured = true → c.sessions ≠ 0) →
          (1 ≤ n → n ≤ 16 → answers (Tab.get {} b.att.regs (n - 1) : Bank).sha2) ∧ (n = 0xFD → answers (b.statement 1 nonce none [] [])) ∧
          (n = 0 ∨ (16 < n ∧ n ≠ 0xFD) → run = .next (s.to (b.emit (.spdm via secured (head 0x7F 0x01)))))))) ∧
    (∀ (b : Block) (n : Nat),
      ((∀ q < 4, b.delivers q = false) → b.drawDevice n = none) ∧
      (∀ q < 4, b.delivers q = true → (∀ k < q, b.delivers k = false) → b.drawDevice n = some (b.draw n, b.seedDraw q n)))

/-- WAL_CFG_WRITE, CS_LOAD, CS_UNLOAD, CS_SCRUB and CS_RELOAD_END (R76, R105, R126 to R132, R315, Table 5.14): a slot length takes effect on an idle wale and is held pending on another; an image
is measured into register 4, then checked, a failed check answering INPUT_INVALID with its reason (log 22), its counters and stores untouched; the customer
opcodes are withdrawn, the spilled customer jobs are killed and the command waits for running ones; the floor rises to the image's version. A scrub
of a word whose parity is even changes nothing, and one that finds a bit inverted is a machine check; a reload whose read-back is good writes the wale's
regions and lifts its CS_PARITY fence, unless the escalation of R314 holds it. -/
def Obligations.ControlStoreCommands : Prop :=
  (∀ (s : State) (r : Req) (bad : W64),
    let p := r.payload
    Submits s (.walCfgWrite r) { code := 0x0011, len := exactly 8 } r (fun b =>
      let w := fld p 0 2
      let v := BitVec.ofNat 2 (fld p 4 4)
      if fld p 2 2 ≠ 0 then (b, .fail St.badParam 0)
      else if 64 ≤ w then (b, .fail St.badParam 1)
      else if b.waleHolds w then (b.modWale w (fun x => { x with slotPend := some v }), .ok [])
      else (b.modWale w (fun x => { x with slotLen := v, slotPend := none }), .ok [])) ∧
    SubmitsWait s (.csLoad r bad) { code := 0x0020, len := fun _ => true } r (fun b =>
      let b := b.extend 4 (digestOf 2 p) (digestOf 6 p)
      match b.imageFails p with
      | some n => .inr (b, .fail St.inputInvalid (BitVec.ofNat 32 n))
      | none =>
        if b.withdrawCustomer.customerRuns then .inl { b.withdrawCustomer with boot := { b.withdrawCustomer.boot with csBad := bad } }
        else .inr (b.withdrawCustomer.installImage p bad)) ∧
    SubmitsWait s (.csUnload r) { code := 0x0021 } r (fun b =>
      if b.withdrawCustomer.customerRuns then .inl b.withdrawCustomer
      else .inr (b.withdrawCustomer.dropCustomer.extend 4 (zeros 48) (zeros 48), .ok []))) ∧
  (∀ (s : State) (w : WaleId) (a : BitVec 14),
    let b := s.toBlock
    let x := b.wale w
    (∀ nano u, x.st = .running ∨ x.st = .wiping ∨ x.st = .spilling ∨ x.st = .fenced → exec (.csScrub w nano a u) s = .next s) ∧
    (x.st = .gated ∨ x.st = .clockGated ∨ x.st = .warm →
      (microParityOk (x.uword a.toNat) = true → exec (.csScrub w false a none) s = .next s) ∧
      (microParityOk (x.uword a.toNat) = false → exec (.csScrub w false a none) s = .next (s.to (b.machineCheck w 0x10A))) ∧
      (nanoParityOk (x.nword (a.toNat % 2048)) = true → exec (.csScrub w true a none) s = .next s) ∧
      (nanoParityOk (x.nword (a.toNat % 2048)) = false → exec (.csScrub w true a none) s = .next (s.to (b.machineCheck w 0x10B))) ∧
      (∀ i : Fin 25, microParityOk (x.uword a.toNat) = true → exec (.csScrub w false a (some ⟨i.val, by omega⟩)) s =
        .next (s.to ((b.modWale w (fun y => { y with
          ustore := Tab.put y.ustore a.toNat (x.uword a.toNat ^^^ (1#25 <<< i.val)) })).machineCheck w 0x10A))) ∧
      (∀ i : Fin 196, nanoParityOk (x.nword (a.toNat % 2048)) = true → exec (.csScrub w true a (some i)) s =
        .next (s.to ((b.modWale w (fun y => { y with
          nstore := Tab.put y.nstore (a.toNat % 2048) (x.nword (a.toNat % 2048) ^^^ (1#196 <<< i.val)) })).machineCheck w 0x10B))))) ∧
  (∀ (s : State) (w : WaleId) (ok : Bool),
    let b := s.toBlock
    ((∀ p ∈ b.flt.recs, p.1 ≠ (FUnit.wale w.val).source.toNat) → exec (.csReloadEnd w ok) s = .next s) ∧
    exec (.csReloadEnd w false) s = .next s ∧
    (b.storePort w = false → exec (.csReloadEnd w true) s = .next s) ∧
    (∀ (r : FenceRec), (b.flt.recs.find? (fun p => p.1 == (FUnit.wale w.val).source.toNat)).map (·.2) = some r →
      (r.kind ≠ 0x03 ∨ b.flt.fence.has (.wale w.val) = false → exec (.csReloadEnd w true) s = .next s) ∧
      (r.kind = 0x03 → b.flt.fence.has (.wale w.val) = true → b.storePort w = true →
        (r.held = true → exec (.csReloadEnd w true) s = .next (s.to (b.reload w))) ∧
        (r.held = false → exec (.csReloadEnd w true) s = .next (s.to ((b.reload w).unfence (.wale w.val))))))) ∧
  (∀ (b : Block) (p : Bytes),
    (b.imageFails p = none → b.counter 1 ≤ fld p 8 4 ∧ fld p 0 4 = 0x57434D49 ∧ 0x3000 ≤ imgMicroAt p ∧ imgMicroAt p + imgMicro p ≤ 0x4000 ∧
      sub p 0x48 48 = b.otp.ownerKeyId ∧ p.length ≤ 1048576 ∧ b.otp.lifecycle ∈ [Lifecycle.provisioned, .deployed] ∧
      ∀ i < imgMicro p, microMaker (imgWord p i) = false) ∧
    (∀ n, b.imageFails p = some n → 1 ≤ n ∧ n ≤ 12))

/-- The slice commands (R211 to R225, Tables 9.2 to 9.5): creation with the number the device chose in Detail, destruction, quotas, weight and ceiling, vectors, PASID,
the rings and latches a lowered count silences, quiesce with its bound and its wedge, resume, and the migration policy. Detail codes are those of the tables; log 23 and log 25 name two readings. -/
def Obligations.SliceCommands : Prop :=
  ∀ (s : State) (r : Req) (sl : SliceId),
    let p := r.payload
    let locked (b : Block) (sl : SliceId) : Bool := (b.slice sl).tdi == .locked || (b.slice sl).tdi == .run
    SubmitsIn s (.sliceCreate r) { code := 0x0030, len := exactly 6 } r (fun b => b.stateRefusal p [.free]) (fun b => match b.chosen p with
      | .error e => (b, e)
      | .ok n => if 1 < fld p 4 2 then (b, .fail St.badParam 0)
          else if 15360 < b.kstReserved n + 64 then (b, .fail St.quota 6)
          else (b.makeSlice n (fld p 4 2 == 1) .quiesced, { detail := if fld p 0 2 = 0xFFFF then BitVec.ofNat 32 n.val else 0 })) ∧
    OnSlice s (.sliceDestroy r) 0x0031 r (exactly 4) [.quiesced] (fun b n => (b.destroySlice n, .ok [])) ∧
    OnSlice s (.sliceSetQuota r) 0x0033 r (exactly 36) [.quiesced, .active] (fun b n =>
      let q := parseQuota (p.drop 4)
      if locked b n then (b, .fail St.contextBusy 0x100) else
      match quotaBad (b.slice n).adsor (p.drop 4) with
      | some o => (b, .fail St.badParam (BitVec.ofNat 32 (o + 0x10)))
      | none =>
        if b.ddr.fitted[0] + b.ddr.fitted[1] < b.ddrReserved n + q.ddr5 ∨ q.ddr5 * 256 < b.ddrOf n then (b, .fail St.quota 5)
        else if 15360 < b.kstReserved n + q.kst ∨ q.kst * 1024 < b.keyUse n then (b, .fail St.quota 6)
        else (((b.modSlice n (fun x => { x with quota := q })).dropOver n).change (.slice n), .ok [])) ∧
    OnSlice s (.sliceSetSched r) 0x0034 r (exactly 6) [.quiesced, .active] (fun b n =>
      let w := fld p 4 1
      let c := fld p 5 1
      let lim : Fin 8 := Fin.ofNat 8 c
      let b' := b.modSlice n (fun x => { x with weight := w, ceiling := lim })
      if locked b n then (b, .fail St.contextBusy 0x100)
      else if w = 0 ∨ 7 < c then (b, .fail St.badParam 4)
      else
        let b' : Block := { b' with jobs := b'.jobs.map (fun (j : Job) => if j.inSlice n ∧ j.listed ∧ lim < j.level then { j with level := lim } else j) }
        (((List.range 8).foldl (fun (b : Block) l => b.dryDeficit l n) b').change (.slice n), .ok [])) ∧
    OnSlice s (.sliceSetVectors r) 0x0035 r (exactly 8) [.quiesced] (fun b n =>
      let base := fld p 4 2
      let k := fld p 6 2
      if locked b n then (b, .fail St.contextBusy 0x100)
      else if k < 1 ∨ 64 < k ∨ 2048 < base + k then (b, .fail St.badParam 6)
      else ((b.modSlice n (fun x => { x with
        vecBase := base, vecCount := k, cq := x.cq.map (fun c => if k ≤ c.vector.toNat then { c with mute := true } else c),
        err := if k ≤ x.err.vector.toNat then { x.err with mute := true } else x.err })).change (.slice n), .ok [])) ∧
    OnSlice s (.sliceBindPasid r) 0x0036 r (exactly 8) [.quiesced] (fun b n =>
      let v := fld p 4 4
      let id : BitVec 20 := BitVec.ofNat 20 v
      if locked b n then (b, .fail St.contextBusy 0x100)
      else if bits v 30 20 ≠ 0 then (b, .fail St.badParam 0)
      else if bit v 31 ∧ b.slices.any (fun x => x.1 != n.val && x.2.pasid == some (some id)) then (b, .fail St.badParam 5)
      else ((b.modSlice n (fun x => { x with pasid := if bit v 31 then some (some id) else if id = 0 then some none else none })).change (.slice n),
        .ok [])) ∧
    OnSlice s (.sliceQuiesce r) 0x0037 r (exactly 12) [.active] (fun b n =>
      let q := fld p 4 4
      let b₀ := (b.sliceTo n .quiescing).tdiError n
      let b₁ := b₀.modSlice n (fun x => { x with quiesceAt := b₀.now, quiesceQ := if q = 0 then 1000 else q, forced := false })
      let b₂ := (Block.failJobs (b₁.jobsWhere (fun j => j.inSlice n && (j.phase == .ready || j.phase == .walking))) St.aborted 1 b₁).checkRest n
      if 600000 < q ∨ 1 < fld p 8 4 then (b, .fail St.badParam 0)
      else (if fld p 8 4 = 1 ∧ (b₂.slice n).st = .quiescing then b₂.forceQuiesce n else b₂, .ok [])) ∧
    ((s.toBlock.slice sl).st ≠ .quiescing → exec (.quiesceBound sl) s = .next s ∧ exec (.wedgeTimer sl) s = .next s) ∧
    ((s.toBlock.slice sl).st = .quiescing →
      ((s.toBlock.slice sl).forced = false → exec (.wedgeTimer sl) s = .next s ∧ exec (.quiesceBound sl) s = .next (s.to
        ((s.toBlock.advanceTo (s.toBlock.slice sl).quiesceAt ((s.toBlock.slice sl).quiesceQ * 1000000)).forceQuiesce sl))) ∧
      ((s.toBlock.slice sl).forced = true → exec (.quiesceBound sl) s = .next s ∧
        exec (.wedgeTimer sl) s = .next (s.to ((s.toBlock.advanceTo (s.toBlock.slice sl).quiesceAt 100000000).wedge sl)))) ∧
    OnSlice s (.sliceResume r) 0x0038 r (exactly 4) [.quiesced] (fun b n =>
      if (b.slice n).pasid = none then (b, .fail St.badParam 2)
      else if (b.slice n).vecCount = 0 then (b, .fail St.badParam 3)
      else (((b.modSlice n (fun x => { x with tdi := if x.tdi = .locked then .run else x.tdi })).sliceTo n .active).resumeRings n, .ok [])) ∧
    OnOwn s (.migPolicySet r) 0x0120 r (exactly 52) [.quiesced, .active] (fun b n =>
      if fld p 1 3 ≠ 0 then (b, .fail St.badParam 0)
      else if 2 < fld p 0 1 ∨ (fld p 0 1 < 2 ∧ allZero (p.drop 4) = false) then (b, .fail St.badParam 7)
      else ((b.modSlice n (fun x => { x with
        migPolicy := BitVec.ofNat 8 (fld p 0 1), migDigest := if fld p 0 1 = 2 then p.drop 4 else [] })).change (.slice n), .ok []))

/-- Migration (R212, R226 to R231, Tables 9.6 and 9.7): preparation draws a token and transport keys for a RECEIVING slice, and a slice that is not FREE is
CONTEXT_BUSY before anything narrower; with no seeder that delivers neither draws (log 166). MIG_SAVE checks the request, then the
stepping, then the tenant's policy, and leaves the slice FROZEN with its stateful keys held; MIG_RESTORE makes its checks in order, then installs all of the
package; abandon, commit, unfreeze and cancel end the exchange, and what they change of a stateful key goes to the journal with it. The layouts inside the sealed image are of outside standards (log 2). -/
def Obligations.MigrationCommands : Prop :=
  ∀ (s : State) (r : Req),
    let q := r.payload.drop 4
    let mig (i : Instr) (code : W16) (len : Nat → Bool) (st : SliceSt) (body : Block → SliceId → Block × Reply) :=
      OnSlice s i code r (fun n => decide (4 ≤ n) && len (n - 4)) [st] body
    let thaw (b : Block) (n : SliceId) (f : Stateful → Stateful) : Block := ((b.modStateful n f).sliceTo n .quiesced).change (.slice n)
    SubmitsIn s (.migPrepare r) { code := 0x0040, len := exactly 4 } r (fun b => b.stateRefusal r.payload [.free]) (fun b =>
      match b.chosen r.payload with
      | .error e => (b, e)
      | .ok n =>
        if 15360 < b.kstReserved n + 64 then (b, .fail St.quota 6)
        else match b.drawDevice 128 with
        | none => (b, .fail St.entropyUnavailable 1)
        | some (d, b) =>
          let b' := (b.makeSlice n false .receiving).modSlice n (fun x => { x with mig := { token := some (d.take 16), secret := d.drop 16 } })
          (b', {
            detail := if fld r.payload 0 2 = 0xFFFF then BitVec.ofNat 32 n.val else 0,
            out := b'.statement 3 [] (some n) [] [le 2 n.val, d.take 16, transportPublic (d.drop 16), b'.otp.ownerKeyId, [b'.otp.stepping],
              le 1 b'.otp.lifecycle.code] })) ∧
    mig (.migSave r) 0x0041 (fun _ => true) .quiesced (fun b n =>
      if (b.slice n).locked then (b, .fail St.contextBusy 0x100)
      else if Config.ask .requestOk 0 [q] = false then (b, .fail St.inputInvalid 0x21)
      else if (requestOf q).2.1 ≠ 0xC0 ∨ ((requestOf q).2.2 ≠ 2 ∧ (requestOf q).2.2 ≠ 3) then (b, .fail St.inputInvalid 0x22)
      else if b.permits n q = false then (b, .fail St.keyUsage 0x23)
      else match b.drawDevice 80 with
      | none => (b, .fail St.entropyUnavailable 1)
      | some (d, b) =>
        let b := if (b.slice n).sealCeil ≤ (b.slice n).sealCtr then b.writeChange (.slice n) else b
        let k := b.package n q d
        let b' := (b.modSlice n (fun x => { x with sealCtr := x.sealCtr + 1 })).modSlice n (fun x => { x with mig := { x.mig with
          savedToken := algBytes .importRequest 1 [q] 16, savedDigest := sha384 k } })
        (((b'.modStateful n (fun t => { t with migrating := true })).sliceTo n .frozen).change (.slice n), .ok k)) ∧
    mig (.migRestore r) 0x0042 (fun _ => true) .receiving (fun b n =>
      let m := (b.slice n).mig
      let wanted := (carriedCounters m.secret q).length +
        ((Config.decoded .image 1 [m.secret, q]).filter (fun i => (carriedKey m.secret q i).stateful.isSome)).length
      match b.restoreFails n q wanted with
      | some (st, e) => (b, .fail st e)
      | none =>
        let b' := ((b.install n q).sliceTo n .quiesced).change (.slice n)
        (b', .ok (b'.statement 4 [] (some n) [] [m.token.getD [], sha384 q]))) ∧
    mig (.migAbandon r) 0x0043 (fun k => k == 0) .receiving (fun b n =>
      (b.destroySlice n, .ok ((b.destroySlice n).statement 5 [] (some n) [] [(b.slice n).mig.token.getD []]))) ∧
    mig (.migCommit r) 0x0044 (fun _ => true) .frozen (fun b n =>
      if (b.slice n).accepts 4 q then (b.destroySlice n, .ok []) else (b, .fail St.inputInvalid 0x35)) ∧
    mig (.migUnfreeze r) 0x0045 (fun _ => true) .frozen (fun b n =>
      if (b.slice n).accepts 5 q then (thaw b n (fun t => { t with migrating := false, u := t.c }), .ok []) else (b, .fail St.inputInvalid 0x35)) ∧
    mig (.migCancel r) 0x0046 (fun k => k == 0) .frozen (fun b n => (thaw b n (fun t => { t with migrating := false, cancelled := true }), .ok [])) ∧
    (∀ (b : Block) (n : SliceId) (f : Stateful → Stateful) h k,
      (h, k) ∈ b.keysOf n → k.stateful.isSome = true → Change.key h ∈ (b.modStateful n f).kst.lag)

/-- Lifecycle, policy, device-scope keys, measurement and the digest port (R248, R253 to R257, R262, R263, Tables 10.11 to 10.18): which fuses, keys and
registers each writes and each failure's status and Detail; a device-scope key is made by a job of priority 7 that the command waits for. Every LC_ command spends the nonce. A payload the tables do not lay out is packed as log 24 says;
the status LC_PROVISION fails with for want of a cell is open (log 4). -/
def Obligations.LifecycleAndKeyCommands : Prop :=
  (∀ (s : State) (r : Req),
    let p := r.payload
    SubmitsLc s (.lcProvision r) { code := 0x0051, states := [.factory], len := exactly 2689 } r (fun b _ =>
      match b.drawDevice 32 with
      | none => (b, .fail St.entropyUnavailable 1)
      | some (root, b') =>
        if b.bat.supplied = false ∨ b.tam.active.getLsbD 4 = true ∨ b.rootBarred = true then
          (b, .fail (St.failing.getD (Config.freeNat 18 0 % St.failing.length) St.keyState) 0)
        else ((({ b' with
          otp := { b'.otp with ownerKeyId := sha384 p }, bat := { b'.bat with rootKey := some root, zeroised := false },
          kst := { b'.kst with st := .unlocked, keys := [] },
          tam := { b'.tam with lidRefs := b'.tam.lidNow, lidTj := Tjs.hottest b'.pwr.tj } } : Block).setLife .provisioned).change .policies, .ok [])) ∧
    SubmitsLc s (.lcChallenge r) { code := 0x0052 } r (fun b _ =>
      match b.drawDevice 32 with
      | none => (b, .fail St.entropyUnavailable 1)
      | some (n, b') => ({ b' with att := { b'.att with nonce := some n } }, .ok n)) ∧
    SubmitsLc s (.lcTransition r) { code := 0x0053, len := exactly 7496 } r (fun b nonce =>
      let t := fld p 0 1
      if fld p 1 3 ≠ 0 then (b, .fail St.badParam 0)
      else if sha384 (sub p 0x54 2689) ≠ b.otp.ownerKeyId then (b, .fail St.inputInvalid 0x91)
      else if nonce ≠ some (sub p 4 32) ∨ sub p 0x24 48 ≠ sha384 b.deviceKeys.flatten then (b, .fail St.inputInvalid 0x92)
      else if Config.ask .ownerSigOk 2 [p] = false then (b, .fail St.inputInvalid 0x93)
      else if t = 3 ∧ b.otp.lifecycle = .provisioned ∧ b.otp.stepping = 0xC0 then (b.setLife .deployed, .ok [])
      else if t = 4 ∧ (b.otp.lifecycle = .provisioned ∨ b.otp.lifecycle = .deployed) then (b.decommission, .ok [])
      else (b, .fail St.badParam 0x94)) ∧
    Submits s (.kstPolicySet r) { code := 0x0055, len := exactly 4, states := [.provisioned, .deployed] } r (fun b =>
      let v : W32 := BitVec.ofNat 32 (fld p 0 4)
      let m := bits v.toNat 9 8
      if m = 0 ∨ m = 3 ∨ v &&& 0xFFFFFC80 ≠ 0 then (b, .fail St.badParam 0x8A)
      else if b.otp.lifecycle = .deployed ∧ (v &&& 0x7F &&& ~~~b.kst.policy ≠ 0 ∨ m < bits b.kst.policy.toNat 9 8) then (b, .fail St.keyState 0)
      else (({ b with kst := { b.kst with policy := v, shadow := ~~~v } }.change .policies).measurePolicies, .ok [])) ∧
    SubmitsWait s (.devKeyCreate r) { code := 0x0057, len := fun n => decide (64 ≤ n) && decide (n ≤ 128) } r (fun b =>
      let t := fld p 0 2
      let e := (b.entryOf (generatorOf t)).getD {}
      let ctr := if statefulType t then b.freeCounter else none
      let need := 4 + deviceOut t (fld p 0x1A 2) (p.drop 64)
      let c : Block := match ctr with
        | some n => b.setOwner n (.reserved b.dsp.next)
        | none => b
      if b.kst.st ≠ .unlocked then .inr (b, .fail St.keyState 0)
      else if b.allows 6 = false then .inr (b, .fail St.keyUsage 0x86)
      else if deviceType t (fld p 0x1A 2) = false then .inr (b, .fail St.badParam 0x44)
      else if statefulType t = true ∧ ctr = none then .inr (b, .fail St.quota 8)
      else match b.lacking e with
        | some d => .inr (b, .fail St.resourceFenced d)
        | none =>
          if e.draws = true ∧ ∀ q : Fin 4, (b.seeder q).st = .stopped then .inr (b, .fail St.entropyUnavailable 1)
          else if replyRoom r < need then .inr (b, .fail St.outputTooSmall (BitVec.ofNat 32 need))
          else .inl (Block.refill { c with jobs := b.jobs ++ [b.deviceJob e t p ctr], dsp := { b.dsp with next := b.dsp.next + 1 } })) ∧
    (∀ (b : Block) (e : Entry) (t : Nat) (ctr : Option Nat), let j := b.deviceJob e t p ctr
      j.id = b.dsp.next ∧ j.dev = true ∧ j.level = 7 ∧ j.desc.priority = 7 ∧ j.desc.opcode = BitVec.ofNat 16 (generatorOf t) ∧ j.param = p.take 64 ∧
      j.input = (if t = 0x0900 then sub p 0x1A 2 ++ zeros 6 else p.drop 64) ∧ j.phase = .ready) ∧
    Submits s (.devKeyGrant r) { code := 0x0058, len := fun n => decide (4 ≤ n) && n % 2 == 0 && decide (n ≤ 36) } r (fun b =>
      let h : W32 := BitVec.ofNat 32 (fld p 0 4)
      if b.kst.st ≠ .unlocked then (b, .fail St.keyState 0)
      else if devScope h = false ∨ b.key h = none then (b, .fail St.keyNotFound 0)
      else if (words16 (p.drop 4)).any (fun g => decide (1024 ≤ g.toNat) && g != 0xFFFF) then (b, .fail St.badParam 0)
      else ((b.modKey h (fun k => { k with grants := words16 (p.drop 4) })).change (.key h), .ok [])) ∧
    Submits s (.devKeyDelete r) { code := 0x0059, len := exactly 4 } r (fun b =>
      let h : W32 := BitVec.ofNat 32 (fld p 0 4)
      if b.kst.st ≠ .unlocked then (b, .fail St.keyState 0)
      else if devScope h = false ∨ b.key h = none then (b, .fail St.keyNotFound 0)
      else (b.eraseKey h, .ok [])) ∧
    Submits s (.measExtend r) { code := 0x005A, len := exactly 49 } r (fun b =>
      if fld p 0 1 < 8 ∨ 15 < fld p 0 1 then (b, .fail St.badParam 0) else (b.extend (fld p 0 1) (p.drop 1) (p.drop 1), .ok [])) ∧
    (let dig (i : Instr) (code : W16) (len : Nat → Bool) (f : Dig → Except Reply (Dig × Bytes)) :=
        Submits s i { code := code, slice := true, len := len } r (fun b => match f (b.dig r.box) with
          | .error e => (b, e)
          | .ok (d, out) => (b.setDig r.box d, .ok out))
      let begun (d : Dig) : Dig := if d.st = .finished then freshDig d.ph else d
      dig (.digInit r) 0x0108 (exactly 1) (fun _ =>
        if fld p 0 1 = 0 ∨ 9 < fld p 0 1 then .error (.fail St.badParam 0) else .ok (freshDig (fld p 0 1), [])) ∧
      dig (.digUpdate r) 0x0109 (fun _ => true) (fun d =>
        if d.st = .idle then .error (.fail St.badParam 0x70)
        else if ∃ m ∈ phLimit (begun d).ph, m < (begun d).count + p.length then .error (.fail St.lengthMismatch 0)
        else .ok ((begun d).absorb p, [])) ∧
      dig (.digFinal r) 0x010A (exactly 0) (fun d =>
        if d.st = .idle then .error (.fail St.badParam 0x70)
        else .ok ({ begun d with st := .finished }, hashEnd (begun d).ph (begun d).chain (begun d).part (begun d).count)) ∧
      dig (.digSave r) 0x010B (exactly 0) (fun d =>
        if d.st ≠ .active ∨ d.count % phBlock d.ph ≠ 0 then .error (.fail St.badParam 0x71)
        else .ok (d, le 4 0x57445354 ++ le 1 d.ph ++ [1, 0, 0] ++ le 8 d.count ++ fit 200 d.chain)) ∧
      dig (.digRestore r) 0x010C (exactly 216) (fun _ =>
        if fld p 0 4 ≠ 0x57445354 ∨ fld p 4 1 = 0 ∨ 9 < fld p 4 1 ∨ fld p 5 1 ≠ 1 ∨ fld p 6 2 ≠ 0 ∨ fld p 8 8 % phBlock (fld p 4 1) ≠ 0
        then .error (.fail St.inputInvalid 0x72)
        else .ok ({ st := .active, ph := fld p 4 1, chain := fit 200 (sub p 16 (chainLen (fld p 4 1))), count := fld p 8 8 }, [])))) ∧
  (∀ (b : Block) (m : Nat) (d d' : Bytes),
    let b' := b.extend m d d'
    let old : Bank := Tab.get {} b.att.regs m
    (Tab.get {} b'.att.regs m : Bank) = { sha2 := sha384 (old.sha2 ++ d), sha3 := sha3of384 (old.sha3 ++ d') } ∧
    (∀ n, n ≠ m → (Tab.get {} b'.att.regs n : Bank) = Tab.get {} b.att.regs n) ∧
    (b.att.events.length < 1024 → b'.att.events.length = b.att.events.length + 1 ∧ b'.att.overflow = b.att.overflow) ∧
    (1024 ≤ b.att.events.length → b'.att.events = b.att.events ∧ b'.att.overflow = true) ∧ { b' with att := b.att } = b)

/-- The SPDM and TDISP responder on either transport (R165, R166, R188, R225, R261). Version, capabilities and algorithms are negotiated in this order, 1.2
or 1.3 alone; no certificate, challenge or session before that; a challenge is answered with a fresh nonce of a seeder and a signature, or with Busy
where none delivers (log 166); a key exchange and its FINISH
open a session, which the requester ends; a stream key is programmed or stopped only within a session. A TDI is locked only on a QUIESCED slice with a PASID
bound and its stream keyed, starts only when its slice is ACTIVE, and stops at any time; nothing else of the slice changes. While the Rim is down nothing is
answered. The codes are log 139's. -/
def Obligations.SpdmResponder : Prop :=
  ∀ (s : State) (v : SpdmVia) (sec : Bool) (sl : SliceId) (k : Fin 4),
    let b := s.toBlock
    let x := b.slice sl
    let h := b.host
    let c := b.spdm v
    let run (m : SpdmMsg) := exec (.spdmMessage ⟨v, sec, m⟩) s
    let said (b' : Block) (secured : Bool) (code p1 : Byte) (body : Bytes) : Block :=
      b'.emit (.spdm v secured ([if (b'.spdm v).version = 0 then 0x10 else (b'.spdm v).version, code, p1, 0] ++ body))
    let answers (m : SpdmMsg) (b' : Block) (secured : Bool) (code p1 : Byte) (body : Bytes) : Prop := run m = .next (s.to (said b' secured code p1 body))
    (b.boot.rimUp = false → ∀ m, run m = .next s) ∧
    (b.boot.rimUp = true →
      answers .getVersion (b.setSpdm v {}) false 0x04 0 [0, 2, 0x00, 0x12, 0x00, 0x13] ∧
      (∀ n, n = 0x12 ∨ n = 0x13 → answers (.getCapabilities n) (b.setSpdm v { c with version := n }) false 0x61 0 (le 4 spdmCaps)) ∧
      (∀ n, n ≠ 0x12 → n ≠ 0x13 → answers (.getCapabilities n) b false 0x7F 0x41 []) ∧
      (∀ as hs dh ae, c.version ≠ 0 → answers (.negotiate as hs dh ae) (b.setSpdm v { c with algs := as && hs, kex := as && hs && dh && ae }) false 0x63 0
        ([as, hs, dh, ae].map (fun o => BitVec.ofNat 8 (b1 o)))) ∧
      (c.handshakes ≠ 0 →
        answers (.finish true) (b.setSpdm v { c with handshakes := c.handshakes - 1, sessions := c.sessions + 1 }) sec 0x65 0 [] ∧
        answers (.finish false) (b.setSpdm v { c with handshakes := c.handshakes - 1 }) sec 0x7F 0x06 []) ∧
      (c.handshakes = 0 → ∀ ok, answers (.finish ok) b sec 0x7F 0x04 []) ∧
      (c.algs = false ∨ (sec = true ∧ c.sessions = 0) → ∀ m, m ∈ [SpdmMsg.getCertificate 0, .endSession, .ideKeyProgram k, .ideKeyStop k, .tdiLock sl k,
          .tdiStart sl, .tdiStop sl, .tdiReport sl] → answers m b sec 0x7F 0x04 []) ∧
      (c.algs = true → (sec = true → c.sessions ≠ 0) →
        (let chain := b.certChain 1 (Config.statementLen 7);
          answers (.getCertificate 0) b sec 0x02 0 chain ∧ ∀ nonce,
            (b.drawDevice 32 = none → answers (.challenge 0 nonce) b sec 0x7F 0x03 []) ∧
            (∀ d b', b.drawDevice 32 = some (d, b') →
              answers (.challenge 0 nonce) b' sec 0x03 0 (sha384 chain ++ d ++ algBytes .ecSig 0x48 [nonce, d, sha384 chain] 96))) ∧
        (∀ slot nonce, slot ≠ 0 → answers (.getCertificate slot) b sec 0x7F 0x01 [] ∧ answers (.challenge slot nonce) b sec 0x7F 0x01 []) ∧
        (sec = false → c.kex = true → ∀ share,
          (b.drawDevice 32 = none → answers (.keyExchange share) b sec 0x7F 0x03 []) ∧
          (∀ x b', b.drawDevice 32 = some (x, b') →
            let b₁ := b'.setSpdm v { c with handshakes := c.handshakes + 1 }
            (b₁.drawDevice 32 = none → answers (.keyExchange share) b₁ sec 0x7F 0x03 []) ∧
            (∀ n b₂, b₁.drawDevice 32 = some (n, b₂) → ∃ body, answers (.keyExchange share) b₂ sec 0x64 0 body))) ∧
        (sec = true →
          answers .endSession (b.setSpdm v { c with sessions := c.sessions - 1 }) sec 0x6C 0 [] ∧
          answers (.ideKeyProgram k) { b with host := { h with ide := setBit h.ide k true } } sec 0x7E 0 [0x03] ∧
          answers (.ideKeyStop k) { b with host := { h with ide := setBit h.ide k false } } sec 0x7E 0 [0x06]) ∧
        (sec = false → ∀ m, m ∈ [SpdmMsg.endSession, .ideKeyProgram k, .ideKeyStop k] → answers m b sec 0x7F 0x04 []) ∧
        (∀ n, x.st = .quiesced → x.pasid = some (some n) → x.tdi = .unlocked → h.ide.getLsbD k = true →
          answers (.tdiLock sl k) (b.modSlice sl (fun x => { x with tdi := .locked, stream := k })) sec 0x7E 0 [0x03]) ∧
        (x.st ≠ .quiesced ∨ x.pasid = none ∨ x.pasid = some none ∨ x.tdi ≠ .unlocked ∨ h.ide.getLsbD k = false →
          answers (.tdiLock sl k) b sec 0x7E 0 [0x7F]) ∧
        (x.tdi = .locked → x.st = .active → answers (.tdiStart sl) (b.modSlice sl (fun x => { x with tdi := .run })) sec 0x7E 0 [0x06]) ∧
        (x.tdi ≠ .locked ∨ x.st ≠ .active → answers (.tdiStart sl) b sec 0x7E 0 [0x7F]) ∧
        answers (.tdiStop sl) (b.modSlice sl (fun x => { x with tdi := .unlocked })) sec 0x7E 0 [0x07] ∧
        ∃ report, answers (.tdiReport sl) b sec 0x7E 0 (0x04 :: report)))

/-- Randomness, tamper and fault settings (Tables 11.11, 11.12, 12.7, 12.8, 13.7, R282, R283, R299 to R302, R306, R315, R316, R321): what each writes, in
which lifecycle states, and the status and Detail of each refusal. A policy never has a response of T15 below HALT, and in DEPLOYED it is never loosened. The
source field of the sticky-clear record and the failure of TAM_LID_CAL while T1 is active are open (log 4); notes are cleared in the order they were
given their numbers, and a number no note has had clears all (log 158); a source whose enable bit is 0 is not tested (log 159). -/
def Obligations.ProtectionSettings : Prop :=
  (∀ (s : State) (r : Req) (samples : Bytes),
    let p := r.payload
    Submits s (.rngCfgSet r) { code := 0x0061, len := exactly 4 } r (fun b =>
      if bits (fld p 0 4) 31 16 ≠ 0 ∨ bits (fld p 0 4) 7 1 ≠ 0 then (b, .fail St.badParam 0)
      else (({ b with rng := { b.rng with cfg := BitVec.ofNat 32 (fld p 0 4) } }.followEnables).change .policies, .ok [])) ∧
    Submits s (.rngRetest r) { code := 0x0063, len := exactly 4 } r (fun b =>
      let i := fld p 0 1
      if 7 < i ∨ fld p 1 3 ≠ 0 then (b, .fail St.badParam 0)
      else if (b.source i).st ≠ .fenced ∨ b.noiseAvail i = false then (b, .fail St.contextBusy 0)
      else ((b.startSource i).settleEntropy, .ok [])) ∧
    Submits s (.rngRawCapture r samples) { code := 0x0064, len := exactly 8, states := [.factory, .provisioned] } r (fun b =>
      let i := fld p 0 1
      let n := fld p 4 4
      if 7 < i ∨ fld p 1 3 ≠ 0 ∨ n = 0 ∨ 16777216 < n then (b, .fail St.badParam 0)
      else if (b.source i).st = .off ∨ (b.source i).st = .fenced then (b, .fail St.contextBusy 0)
      else (((b.discardHeld i).startSource i).settleEntropy, .ok (fit ((n + 7) / 8) samples))) ∧
    Submits s (.rngTestPattern r) { code := 0x0065, len := exactly 8, states := [.factory] } r (fun b =>
      let b₁ := { b with rng := { b.rng with pattern := none, blocks := [], held := [] } }
      let b₂ := (List.range 4).foldl (fun (b : Block) (q : Nat) =>
        b.modSeeder q (fun x => { x with st := .init, seeded := false, withheld := false, donor := none, ts := b.now })) b₁
      let b₃ := (List.range 8).foldl (fun (b : Block) (i : Nat) =>
        if (b.source i).st = .off ∨ (b.source i).st = .fenced then b else b.startSource i) b₂
      if allZero p = false then ({ b with rng := { b.rng with pattern := some (BitVec.ofNat 64 (ofLe p)), patternFrom := b.rng.draws, blocks := [], held := [] } }, .ok [])
      else if b.rng.pattern = none then (b, .ok []) else (b₃.settleEntropy, .ok [])) ∧
    Submits s (.tamPolicySet r) { code := 0x0071, len := exactly 64 } r (fun b =>
      let new := parsePolicy p
      if policyBad p then (b, .fail St.badParam 0xB0)
      else if ((new.resp[15]?).getD Resp.log).code < 2 then (b, .fail St.badParam 0xB1)
      else if b.otp.lifecycle = .deployed ∧ loosens b.tam.policy new then (b, .fail St.keyState 0)
      else (({ b with tam := { b.tam with policy := new, shadow := new } }.change .policies).measurePolicies, .ok [])) ∧
    Submits s (.tamFuseDisable r) { code := 0x0072, len := exactly 2, states := [.factory, .provisioned] } r (fun b =>
      let m : BitVec 16 := BitVec.ofNat 16 (fld p 0 2)
      ({ b with otp := { b.otp with fused := b.otp.fused ||| m },
                tam := { b.tam with active := b.tam.active &&& ~~~m, due := b.tam.due &&& ~~~m },
                bat := { b.bat with sticky := b.bat.sticky &&& ~~~m } }.measurePolicies, .ok [])) ∧
    Submits s (.tamStickyClear r) { code := 0x0073, len := exactly 2, states := [.provisioned, .deployed] } r (fun b =>
      let m : BitVec 16 := BitVec.ofNat 16 (fld p 0 2) &&& ~~~b.tam.active
      ({ b with bat := { b.bat with sticky := b.bat.sticky &&& ~~~m, battEvent := false } }.logEvent
        (BitVec.ofNat 16 (Config.freeNat 23 0)) .log .log (m.setWidth 32) 4, .ok [])) ∧
    Submits s (.tamAck r) { code := 0x0076, states := anyLife } r (fun b =>
      if b.tam.halted = true ∨ ∃ t : Fin 16, b.tam.active.getLsbD t = true ∧ 1 ≤ (b.respOf t).code then (b, .ok [])
      else ({ b with tam := { b.tam with alarmN := false, level := .log, batch := 0 } }, .ok [])) ∧
    Submits s (.tamLidCal r) { code := 0x0077, states := [.provisioned] } r (fun b =>
      if b.tam.active.getLsbD 1 then (b, .fail (St.failing.getD (Config.freeNat 18 1 % St.failing.length) St.keyState) 0)
      else ({ b with tam := { b.tam with lidRefs := b.tam.lidNow, lidTj := Tjs.hottest b.pwr.tj } }, .ok [])) ∧
    Submits s (.fltLogClear r) { code := 0x0081, len := exactly 4 } r (fun b =>
      let f := b.flt
      let n := fld p 0 4
      let future := f.seq.toNat < n ∧ ∀ x ∈ f.log, x.1 ≤ f.seq
      ({ b with flt := { f with log := f.log.filter (fun x =>
        decide ((¬ future ∧ f.place n < f.place x.1.toNat) ∨ (3 ≤ x.2.cls.val ∧ f.place f.startSeq.toNat ≤ f.place x.1.toNat))) } }, .ok [])) ∧
    (∀ (x : Faults) (n : Nat), x.place n = if n ≤ x.seq.toNat then n + 2 ^ 32 else n) ∧
    SubmitsWait s (.fltUnfence r) { code := 0x0083, len := exactly 4 } r (fun b =>
      if fld p 2 2 ≠ 0 then .inr (b, .fail St.badParam 0) else
      match FUnit.ofSource (BitVec.ofNat 16 (fld p 0 2)) with
      | none => .inr (b, .fail St.badParam 1)
      | some u =>
        let b' := { b with flt := { b.flt with tests := b.flt.tests ++ [u.source] } }
        if b.flt.halted = true ∨ b.tam.halted = true then .inr (b, .fail St.keyState 0)
        else if b.flt.fence.has u = false then .inr (b, { detail := 2 })
        else if b.fenceStays u = true then .inr (b, .fail St.contextBusy 0)
        else match u with
          | .noise i => if b.sourceOn i = false then .inr (b, .fail St.contextBusy 0) else .inl (b'.startSource i).settleEntropy
          | _ => .inl b') ∧
    SubmitsWait s (.fltFence r) { code := 0x0084, len := exactly 4 } r (fun b =>
      let src : W16 := BitVec.ofNat 16 (fld p 0 2)
      if fld p 2 2 ≠ 0 then .inr (b, .fail St.badParam 0) else
      match FUnit.ofSource src with
      | none => .inr (b, .fail St.badParam 1)
      | some u =>
        if b.unitHolds u then .inl { b with flt := { b.flt with fencesDue := b.flt.fencesDue ++ [src] } }
        else .inr (b.note src 0x16 1 (openDetail 0x16), .ok []))) ∧
  (∀ (old new : Policy), loosens old new = false →
    old.closed = new.closed ∧ ∀ (t : Nat) (a c : Resp), old.resp[t]? = some a → new.resp[t]? = some c → a.code ≤ c.code)

/-- Fabric, power, ageing and firmware commands (Tables 14.8, 15.6 to 15.9, 16.7, R323, R327, R342, R348, R353, R354, R365, R385): what each writes, the
lifecycle states it is accepted in, and the status and Detail of each refusal; the floor never falls at FW_COMMIT, and DEV_RESET answers before the device
restarts. Payloads of the fabric commands are packed as log 24 says; whether a reachable master agrees to WTY_TAKEOVER is open (log 4). -/
def Obligations.FabricPowerAndFirmwareCommands : Prop :=
  ∀ (s : State) (r : Req) (f : BootFacts),
    let p := r.payload
    let owned : List Lifecycle := [.provisioned, .deployed]
    let wty (i : Instr) (code : W16) (len : Nat → Bool) (body : Block → Block × Reply) := Submits s i { code := code, len := len, states := owned } r body
    wty (.wtyPlanSet r) 0x0091 (fun n => n % 52 == 0 && decide (n ≤ 52 * 4096)) (fun b =>
      let b₁ := b.modWty (fun f => { f with plan := parsePlan p, master := true, number := some b.self, masterNo := b.self })
      let b' := (parsePlan p).foldl Block.sendPlan b₁
      if (b.joined = true ∧ b.wty.master = false) ∨ (∃ x ∈ b.wty.ports.toList, x.role = .up) then (b, .fail St.contextBusy 0)
      else if planReserved p then (b, .fail St.badParam 0)
      else if planBad (parsePlan p) then (b, .fail St.badParam 0xC0)
      else ({ b' with timeFabric := true }.change .policies, .ok [])) ∧
    wty (.wtyPortCfg r) 0x0092 (exactly 4) (fun b =>
      let role := PortRole.ofCode (fld p 1 1)
      if h : fld p 0 1 < 4 ∧ fld p 1 1 < 4 ∧ fld p 2 1 ≠ 0 ∧ fld p 3 1 = 0 then
        let q : PortId := ⟨fld p 0 1, h.1⟩
        if role = (b.port q).role then (b.modPort q (fun x => { x with spreadWait := fld p 2 1 }), .ok [])
        else if (b.port q).st ≠ .off then (b, .fail St.contextBusy 0)
        else if role = .up ∧ (b.wty.master ∨ b.wty.ports.any (fun x => x.role == .up)) then (b, .fail St.badParam 0)
        else (b.modPort q (fun x => { x with role := role, spreadWait := fld p 2 1, st := if role = .off then .off else .training }), .ok [])
      else (b, .fail St.badParam 0)) ∧
    wty (.wtyTimeCfg r) 0x0093 (exactly 8) (fun b =>
      if fld p 0 4 < 1 ∨ 3600 < fld p 0 4 ∨ fld p 4 4 < 1 ∨ 86400 < fld p 4 4 then (b, .fail St.badParam 0)
      else ((b.modWty (fun f => { f with holdLimit := fld p 0 4, replGrace := fld p 4 4 })).change .policies, .ok [])) ∧
    wty (.wtyMemberAdmit r) 0x0094 (exactly 4) (fun b =>
      let m := fld p 0 2
      if 4095 < m ∨ fld p 2 2 ≠ 0 then (b, .fail St.badParam 0)
      else if b.wty.master = false then (b, .fail St.contextBusy 0)
      else (b.modWty (fun f => { f with
        members := Tab.put f.members m { (Tab.get {} f.members m : Member) with quarantined := false },
        isolated := f.isolated.filter (fun x => x.toNat != m) }), .ok [])) ∧
    wty (.wtyFzPolicySet r) 0x0095 (exactly 4) (fun b =>
      let v := fld p 0 1
      if 3 < v ∨ fld p 1 3 ≠ 0 then (b, .fail St.badParam 0)
      else if b.otp.lifecycle = .deployed ∧ v < b.wty.fzPolicy.toNat then (b, .fail St.keyState 0)
      else (((b.modWty (fun f => { f with fzPolicy := BitVec.ofNat 8 v })).change .policies).measurePolicies, .ok [])) ∧
    wty (.wtySliceJoin r) 0x0097 (exactly 6) (fun b => match b.named p [.quiesced] with
      | .error e => (b, e)
      | .ok n =>
        let b₁ := b.modSlice n (fun x => { x with
          replicated := true, spread := fld p 4 2 == 1, members := if x.members.contains b.self then x.members else x.members ++ [b.self] })
        let b₂ := (b₁.keysOf n).foldl (fun (b : Block) (k : W32 × Key) => b.modKey k.1 (fun k => { k with replicated := b.replicates n k })) b₁
        if 1 < fld p 4 2 then (b, .fail St.badParam 0) else if b.joined = false then (b, .fail St.contextBusy 0) else (b₂.change (.slice n), .ok [])) ∧
    wty (.wtySliceLeave r) 0x0098 (exactly 4) (fun b => match b.named p [.quiesced, .active] with
      | .error e => (b, e)
      | .ok n => (((b.dropReplicas n).modSlice n (fun x => { x with replicated := false, spread := false, members := [] })).change (.slice n), .ok [])) ∧
    wty (.wtyTakeover r) 0x0099 (exactly 0) (fun b =>
      if b.wty.standby = false ∨ b.wty.eligible = false ∨ (b.wty.lostMaster = false ∧ Config.freeNat 25 (b.counter 2) = 0)
      then (b, .fail St.contextBusy 0) else (b.becomeMaster, .ok [])) ∧
    Submits s (.pwrCfgSet r) { code := 0x00A1, len := exactly 4 } r (fun b =>
      let v := fld p 0 4
      if bits v 15 0 ≠ 0 ∨ bits v 23 16 < 100 ∨ 190 < bits v 23 16 then (b, .fail St.badParam 0xD0)
      else ({ b with pwr := { b.pwr with cfg := BitVec.ofNat 32 v }, flash := { b.flash with pwrCfg := BitVec.ofNat 32 v } }, .ok [])) ∧
    Submits s (.pwrStandby r) { code := 0x00A3, states := owned } r (fun b =>
      match b.slices.find? (fun x => x.2.st != .free && x.2.st != .quiesced && x.2.st != .frozen) with
      | some x => (b, .fail St.contextBusy (BitVec.ofNat 32 x.1))
      | none => if (∃ x ∈ b.wty.ports.toList, x.st = .up) ∨ b.kst.st = .sweeping then (b, .fail St.contextBusy 0xFFFF) else (b.powerDown, .ok [])) ∧
    SubmitsWait s (.pwrWake r) { code := 0x00A4, states := owned } r (fun b =>
      let b₁ := { b with pwr := { b.pwr with dev := .idle }, ddr := { b.ddr with selfRefresh := false } }
      let b₂ := (([0, 1, 2, 3] : List Nat).foldl (fun (b : Block) q => b.modQuad q (fun z => { z with pllRun := true })) b₁).followEnables.refill
      if b.pwr.dev ≠ .standby then .inr (b, .ok []) else if b₂.awake then .inr (b₂, .ok []) else .inl b₂) ∧
    Submits s (.pwrBinSet r) { code := 0x00A5, len := exactly 2, states := owned } r (fun b =>
      let q := fld p 0 1
      let n := fld p 1 1
      let bin : Fin 5 := Fin.ofNat 5 n
      let want := if (b.quad q).bin = bin ∧ (b.quad q).binTo = none then none else some bin
      if 3 < q ∨ 4 < n then (b, .fail St.badParam 0)
      else if b.binFits q n = false ∨ (b.pwr.avsLost = true ∧ n < (b.quad q).bin.val) then (b, .fail St.badParam 0xD1)
      else ((b.modQuad q (fun z => { z with binWant := want })).planQuad q, .ok [])) ∧
    Submits s (.ageCfgSet r) { code := 0x00A7, len := exactly 4 } r (fun b =>
      let v := fld p 0 4
      if bits v 15 1 ≠ 0 then (b, .fail St.badParam 0xD0)
      else ({ b with pwr := { b.pwr with ageCfg := BitVec.ofNat 32 v }, flash := { b.flash with ageCfg := BitVec.ofNat 32 v } }, .ok [])) ∧
    Submits s (.ageRun r) { code := 0x00A9, len := exactly 2 } r (fun b =>
      let i := fld p 0 2
      let mark (b : Block) (w : Nat) : Block := b.modWale w (fun x => { x with age := { x.age with runWanted := true } })
      if 63 < i ∧ i ≠ 0xFFFF then (b, .fail St.badParam 0)
      else (((if i = 0xFFFF then List.range 64 else [i]).foldl mark b).startRuns, .ok [])) ∧
    Submits s (.fwWrite r) { code := 0x00B1, states := owned, recovery := true, len := fun n => decide (n ≤ 67108864), most := 67108864 } r (fun b =>
      let other : Fin 2 := if b.boot.active = 0 then 1 else 0
      match b.imageRefused p with
      | some (st, d) => (b, .fail st d)
      | none => if b.boot.trialSlot.isSome then (b, .fail St.contextBusy 0)
          else
            let x : FwSlot := ⟨true, BitVec.ofNat 32 (fld p 8 4), fld p 0xC 4, sha384 p⟩
            ({ b with boot := { b.boot with slots := b.boot.slots.set other x } }, .ok [])) ∧
    Submits s (.fwActivate r) { code := 0x00B2, states := owned } r (fun b =>
      if b.boot.trial = .pendingCommit then (b, .fail St.contextBusy 0)
      else ({ b with boot := { b.boot with trialSlot := some (if b.boot.active = 0 then 1 else 0), trial := .pending 3 } }, .ok [])) ∧
    (∃ body, Submits s (.fwCommit r) { code := 0x00B3, states := owned } r body ∧ ∀ b,
      (b.boot.trial ≠ .pendingCommit ∨ b.boot.trialSlot = none → body b = (b, .fail St.contextBusy 0)) ∧
      (∀ t, b.boot.trial = .pendingCommit → b.boot.trialSlot = some t → body b = ({ b with
        boot := { b.boot with active := t, trial := .none, trialSlot := none },
        otp := { b.otp with fwFloor := max b.otp.fwFloor b.boot.slots[t].security } }, .ok []))) ∧
    Submits s (.fwRevert r) { code := 0x00B4, states := owned } r (fun b =>
      ({ b with boot := { b.boot with trial := .none, trialSlot := none } }, .ok [])) ∧
    (let c : Cmd := { code := 0x00B5, states := anyLife, recovery := true };
      Goes s s.toBlock (.devReset r f) c r (fun b => Checked s b (.devReset r f) c r none
        (exec (.devReset r f) s = .next (s.to ((b.reply r 0x00B5 (.ok [])).fullReset f true)))))

/-! ### Events of the device (chapters 04, 05, 09, 11 to 16) -/

/-- Noise sources, conditioners, seeders and wale DRBGs (R264 to R274, R279, R283, R421, Tables 11.2 to 11.7): the servo steps CODE by one outside ± 64 of the
middle and fails at the sixteenth block at a rail; a failing source is noted, loses its held blocks and starts again, and is fenced within 1 s of its last
failure; a start-up test ends HEALTHY or FENCED; a block is held until the windows of its sources end; a seeder reseeds from 384 fresh bits of its own or
of its donor's noise, and delivers once its known-answer test, of 2 µs and again 10 s after the last, has passed; a wale DRBG's interval doubles or halves
between 64 KiB and 16 MiB, but not while its seeder gives nothing; a request of rank 3 is served before one of rank 4, in order of arrival. -/
def Obligations.RandomnessEvents : Prop :=
  (∀ (s : State) (i : SourceId) (n : Nat) (ok : Bool),
    let b := s.toBlock
    let x := b.source i
    let fine (b : Block) : Host.Outcome State Fault Refusal := .next (s.to b.checkWake)
    ((x.st ≠ .starting ∧ x.st ≠ .healthy) ∨ 4096 < n → exec (.servoBlock i n) s = fine b) ∧
    ((x.st = .starting ∨ x.st = .healthy) → n ≤ 4096 →
      let code := if 2112 < n then x.code - 1 else if n < 1984 then min 1023 (x.code + 1) else x.code
      let rail := if x.code = 0 ∨ x.code = 1023 then x.rail + 1 else 0
      let quiet := if x.st = .starting ∧ 2 ≤ x.quiet then x.quiet else if 1984 ≤ n ∧ n ≤ 2112 then x.quiet + 1 else 0
      (rail < 16 → exec (.servoBlock i n) s =
        fine (b.modSource i (fun x => { x with code := code, samples := x.samples + 4096, rail := rail, quiet := quiet }))) ∧
      (16 ≤ rail → exec (.servoBlock i n) s =
        fine ((b.modSource i (fun x => { x with code := code, samples := x.samples + 4096, rail := 0, quiet := quiet })).sourceFails i 3))) ∧
    exec (.repetitionCount i) s = fine (b.sourceFails i 1) ∧
    (783 ≤ n → exec (.proportionWindowEnd i n) s = fine (b.sourceFails i 2)) ∧
    (n < 783 → x.st ≠ .healthy → exec (.proportionWindowEnd i n) s = fine b) ∧
    (n < 783 → x.st = .healthy →
      let q := i.val / 2
      let l := (Tab.get [] b.rng.held q).map (fun (h : HeldBlock) => { h with awaits := h.awaits.filter (· != i.val) })
      let b' := { b with rng := { b.rng with held := Tab.put b.rng.held q (l.filter (fun h => !h.awaits.isEmpty)) } }
      exec (.proportionWindowEnd i n) s = fine ((l.filter (fun h => h.awaits.isEmpty)).foldl (fun b _ => b.releaseBlock q) b')) ∧
    (x.st ≠ .starting ∨ x.quiet < 2 → exec (.startupTestEnd i ok) s = fine b) ∧
    (x.st = .starting → 2 ≤ x.quiet →
      (b.rng.pattern = none → exec (.startupTestEnd i false) s = fine (b.startFails i)) ∧
      (ok = true ∨ b.rng.pattern ≠ none → Src.noise i ∈ b.flt.tests → exec (.startupTestEnd i ok) s = fine (b.endTest (.noise i) true)) ∧
      (ok = true ∨ b.rng.pattern ≠ none → Src.noise i ∉ b.flt.tests →
        exec (.startupTestEnd i ok) s = fine ((b.modSource i (fun x => { x with st := .healthy, since := b.now, quiet := 0 })).settleEntropy))) ∧
    (x.st ≠ .starting ∨ 2 ≤ x.quiet → exec (.settlingTimeout i) s = fine b) ∧
    (x.st = .starting → x.quiet < 2 →
      let bound := if 0 ≤ b.pwr.tcase then 200000 else if -400 ≤ b.pwr.tcase then 1000000 else 4000000
      exec (.settlingTimeout i) s = fine ((b.advanceTo x.since bound).startFails i))) ∧
  (∀ (b : Block) (i : SourceId) (t : Nat), b.rng.pattern = none → (b.source i).st = .healthy →
    let b' := ((b.discardHeld i).modSource i (fun x => { x with
      st := .suspect, lastFail := some b.now, failures := if x.failures = 0xFFFFFFFF then x.failures else x.failures + 1 })).note
        (Src.noise i) 0x0A 0 (testDetail t (b.source i).code)
    let recent := ∃ u, (b.source i).lastFail = some u ∧ b.elapsed u < 1000000000
    (recent → b.sourceFails i t = (b'.fenceSource i t).settleEntropy) ∧ (¬ recent → b.sourceFails i t = (b'.startSource i).settleEntropy)) ∧
  (∀ (s : State) (q : QuadId) (w : WaleId) (ok : Bool),
    let b := s.toBlock
    let sd := b.seeder q
    let x := b.wale w
    let fine (b : Block) : Host.Outcome State Fault Refusal := .next (s.to b.checkWake)
    let srcs := [2 * q.val, 2 * q.val + 1].filter (fun i => (b.source i).st == .healthy)
    (b.rng.pattern ≠ none → exec (.conditionerBlock q) s = fine (b.releaseBlock q)) ∧
    (b.rng.pattern = none → srcs = [] → exec (.conditionerBlock q) s = fine b) ∧
    (b.rng.pattern = none → srcs ≠ [] → exec (.conditionerBlock q) s =
      fine { b with rng := { b.rng with held := Tab.put b.rng.held q (Tab.get [] b.rng.held q ++ [⟨srcs, srcs⟩]) } }) ∧
    (b.delivers q = false → exec (.seederReseed q) s = .next s) ∧
    (b.delivers q = true →
      let b' := if sd.since < 65536 then b.advanceTo sd.lastReseed 100000 else b
      (sd.st = .seeded ∨ b'.donorFor q = none → Tab.get 0 b'.rng.blocks q < 3 → exec (.seederReseed q) s = .next (s.to b')) ∧
      (sd.st = .seeded ∨ b'.donorFor q = none → 3 ≤ Tab.get 0 b'.rng.blocks q → exec (.seederReseed q) s = .next (s.to
        ({ b' with rng := { b'.rng with blocks := Tab.put b'.rng.blocks q (Tab.get 0 b'.rng.blocks q - 3) } }.modSeeder q
          (fun z => { z with reseeds := z.reseeds + 1, since := 0, lastReseed := b'.now })))) ∧
      (∀ d, sd.st = .relayed → b'.donorFor q = some d →
        (Tab.get 0 b'.rng.blocks d < 3 → exec (.seederReseed q) s = .next (s.to b')) ∧
        (3 ≤ Tab.get 0 b'.rng.blocks d → exec (.seederReseed q) s = .next (s.to (b'.relaySeed q d))))) ∧
    (b.flt.fence.has (.seeder q) = false → sd.seeded = true → b.healthy q ≠ 0 → sd.st = .relayed → b.seederState q = .seeded) ∧
    (b.flt.fence.has (.seeder q) = true ∨ (sd.seeded = false ∧ sd.withheld = false) → exec (.seederKat q ok) s = fine b) ∧
    (b.flt.fence.has (.seeder q) = false → sd.seeded = true ∨ sd.withheld = true →
      let c := b.advanceTo sd.katAt 10000000000
      let b' := if sd.seeded then c.setTime (c.now + 2000) else b.advanceTo sd.katAt 2000
      exec (.seederKat q false) s =
        fine ((b'.modSeeder q (fun z => { z with withheld := false })).note (Src.seeder q) 0x0B 1 (testDetail 5 0)).settleEntropy ∧
      (sd.seeded = true → exec (.seederKat q true) s = fine (b'.modSeeder q (fun z => { z with katAt := b'.now }))) ∧
      (sd.seeded = false →
        let own := b'.healthy q ≠ 0 ∨ b'.rng.pattern ≠ none
        exec (.seederKat q true) s =
        fine ((b'.modSeeder q (fun z => { z with
          seeded := true, withheld := false, ts := b'.now, since := 0, lastReseed := b'.now, katAt := b'.now,
          st := if own then .seeded else if z.donor ≠ none then .relayed else .paused, donor := if own then none else z.donor })).settleEntropy).rootIfDue)) ∧
    (x.drbgSeeded = false ∨ x.drbgWant = true ∨ x.drbgSent = true ∨ b.delivers (w.val / 16) = false → exec (.drbgReseedRequest w) s = .next s) ∧
    (x.drbgSeeded = true → x.drbgWant = false → x.drbgSent = false → b.delivers (w.val / 16) = true → exec (.drbgReseedRequest w) s =
      .next (s.to ((b.modWale w (fun y => { y with drbgWant := true })).modSeeder (w.val / 16) (fun z => { z with queue := z.queue ++ [w] })))) ∧
    ((x.drbgWant = false ∧ x.drbgSent = false) ∨ b.delivers (w.val / 16) = false → exec (.drbgIntervalReached w) s = .next s) ∧
    (x.drbgWant = true ∨ x.drbgSent = true → b.delivers (w.val / 16) = true → exec (.drbgIntervalReached w) s =
      .next (s.to (b.modWale w (fun y => { y with
        drbgUrgent := true, drbgLog := if y.drbgLog < 14 then y.drbgLog + 1 else y.drbgLog,
        drbgStretch := if y.drbgLog < 14 ∧ y.drbgStretch ≠ 0xFFFFFF then y.drbgStretch + 1 else y.drbgStretch })))) ∧
    (x.drbgSent = false → exec (.drbgReseed w) s = .next s) ∧
    (x.drbgSent = true → exec (.drbgReseed w) s = .next (s.to (b.modWale w (fun y => { y with
      drbgSent := false, drbgUrgent := false, drbgLog := if y.drbgUrgent then y.drbgLog else max 6 (y.drbgLog - 1) })))) ∧
    (let l : List WaleId := sd.queue.filter (fun (w : WaleId) => (b.wale w).drbgWant);
      (b.serves q = false ∨ l = [] → exec (.seederRequest q) s = .next s) ∧
      (∀ v, b.serves q = true →
        (l.find? (fun (w : WaleId) => (b.wale w).drbgUrgent) = some v ∨ (l.find? (fun (w : WaleId) => (b.wale w).drbgUrgent) = none ∧ l.head? = some v)) →
        exec (.seederRequest q) s = .next (s.to (((b.modSeeder q (fun z => { z with queue := l.filter (· != v) })).seedDraw q 48).modWale v
          (fun y => { y with drbgWant := false, drbgSent := true }))))))

/-- The tamper and battery events (R286 to R306, R398, R400, Tables 12.1 to 12.5): a source whose condition is present raises its alarm where it is not in alarm, on
main power or in the battery log; the Lid drives each pair with a fresh bit and its complement, and compares each pair's reading with its reference within
8 %; a loop or switch is classified by Tables 12.4 and 12.5 and needs F + 1 abnormal samples; a sensor alarms outside the limits of Table 12.3; a
shadow that disagrees raises T15 with the register's Detail; deadlines after a response; OTP steps with their three tries. A fused source never alarms. The
packing of T1's Detail is open (log 4), as are the Lid's LFSR and its correction (log 160), the order of the rows of Table 12.4 (log 161) and the Detail of a
sensor (log 162). -/
def Obligations.TamperAndBatteryEvents : Prop :=
  ∀ (s : State) (t : TamperId) (d : W32) (p : Fin 96) (c : ChanId),
    let b := s.toBlock
    let ended (b : Block) (t : TamperId) : Block :=
      { b with tam := { b.tam with active := setBit b.tam.active t false, due := setBit b.tam.due t false } }
    (b.otp.fused.getLsbD t = true → b.tamperAlarm t d = b ∧ exec (.batteryAlarm t d) s = .next s) ∧
    (b.tam.active.getLsbD t = true → exec (.batteryAlarm t d) s = .next s) ∧
    ((b.watching = true → b.tam.active.getLsbD t = true → b.alarmOn t d = b) ∧
      (b.watching = true → b.tam.active.getLsbD t = false → b.alarmOn t d = b.tamperAlarm t d) ∧
      (b.watching = false → b.alarmOn t d = b.batteryAlarm t d)) ∧
    (∀ v, LidLine.wrong v .follows = false ∧ LidLine.wrong v .bridged = true ∧ LidLine.wrong v (.held v) = false ∧ LidLine.wrong (!v) (.held v) = true) ∧
    (∀ pairs, (b.watched = false → exec (.lidASweep pairs) s = .next s) ∧
      (b.watched = true →
        let drive (k : Fin 96) : Bool := (lidSteps (k.val + 1) b.bat.lfsr).getLsbD 0
        let bad (k : Fin 96) : Prop := ∃ x ∈ pairs, x.pair = k ∧ (LidLine.wrong (drive k) x.line = true ∨ LidLine.wrong (!drive k) x.partner = true)
        let b' := { b with bat := { b.bat with lfsr := lidSteps 96 b.bat.lfsr } }
        ((∀ k, ¬ bad k) → exec (.lidASweep pairs) s = .next (s.to (ended b' 0))) ∧
        (∀ k, bad k → (∀ n < k, ¬ bad n) → exec (.lidASweep pairs) s = .next (s.to (b'.alarmOn 0 (BitVec.ofNat 32 k.val)))))) ∧
    (∀ x z, b.watching = false → exec (.lidBMeasure p x z) s = .next s) ∧
    (∀ x z r, b.watching = true → b.tam.active.getLsbD 1 = true → Tab.has b.tam.lidRefs p = true → Tab.get (0, 0) b.tam.lidRefs p = r →
      Tjs.hottest b.pwr.tj = b.tam.lidTj →
      (100 * (x - r.1) > 8 * r.1 ∨ 100 * (r.1 - x) > 8 * r.1 ∨ 100 * (z - r.2) > 8 * r.2 ∨ 100 * (r.2 - z) > 8 * r.2) →
      exec (.lidBMeasure p x z) s = .next (s.to { b with tam := { b.tam with lidNow := Tab.put b.tam.lidNow p (x, z) } })) ∧
    (∀ x z, b.watching = true →
      let b' := { b with tam := { b.tam with lidNow := Tab.put b.tam.lidNow p (x, z) } }
      (b'.pairStrays p = true → b.tam.active.getLsbD 1 = false → exec (.lidBMeasure p x z) s = .next (s.to (b'.tamperAlarm 1 (b'.lidDetail p)))) ∧
      (b'.pairStrays p = false → (∃ k < 96, b'.pairStrays k = true) → exec (.lidBMeasure p x z) s = .next (s.to b')) ∧
      ((∀ k < 96, b'.pairStrays k = false) → exec (.lidBMeasure p x z) s = .next (s.to (ended b' 1)))) ∧
    (∀ (i : Fin 4) (fwd rev : LoopDrive),
      let r := loopResult fwd rev
      let b' (n : Nat) : Block := { b with
        bat := { b.bat with lfsr := lidSteps 9 b.bat.lfsr },
        tam := { b.tam with
          loops := b.tam.loops.set i (BitVec.ofNat 4 r.1), loopRun := b.tam.loopRun.set i n,
          loopDrive := b.tam.loopDrive.set i ((lidSteps 1 b.bat.lfsr).getLsbD 0, (lidSteps 9 b.bat.lfsr).setWidth 8) } }
      (b.watched = false → exec (.loopSample i fwd rev) s = .next s) ∧
      (b.watched = true → r.1 = 0 → exec (.loopSample i fwd rev) s = .next (s.to (ended (b' 0) ⟨9 + i.val, by omega⟩))) ∧
      (b.watched = true → r.1 ≠ 0 → b.tam.loopRun[i] + 1 ≤ b.filterOf (9 + i.val) →
        exec (.loopSample i fwd rev) s = .next (s.to (b' (b.tam.loopRun[i] + 1)))) ∧
      (b.watched = true → r.1 ≠ 0 → b.filterOf (9 + i.val) < b.tam.loopRun[i] + 1 → exec (.loopSample i fwd rev) s =
        .next (s.to ((b' (b.tam.loopRun[i] + 1)).alarmOn ⟨9 + i.val, by omega⟩ (BitVec.ofNat 32 (r.1 + 16 * r.2)))))) ∧
    (∀ (f g : LoopDrive),
      (∀ o, f.foreign = some o ∨ (f.foreign = none ∧ g.foreign = some o) → loopResult f g = (4, o.val)) ∧
      (f.foreign = none → g.foreign = none →
        (f.low = true ∨ g.low = true → loopResult f g = (2, 0)) ∧
        (f.low = false → g.low = false →
          (f.high = true ∨ g.high = true → loopResult f g = (3, 0)) ∧
          (f.high = false → g.high = false →
            (f.ohms < 1000 → g.ohms < 1000 → loopResult f g = (6, 0)) ∧
            (1000 ≤ f.ohms ∨ 1000 ≤ g.ohms →
              (f.nA = 0 → g.nA = 0 → loopResult f g = (1, 0)) ∧
              (f.nA ≠ 0 ∨ g.nA ≠ 0 →
                (f.inWindow = true → g.nA < 2000 → loopResult f g = (0, 0)) ∧
                (f.nA < 2000 → g.inWindow = true → f.inWindow = false ∨ 2000 ≤ g.nA → loopResult f g = (5, 0)) ∧
                (f.inWindow = false ∨ 2000 ≤ g.nA → 2000 ≤ f.nA ∨ g.inWindow = false → (loopResult f g).1 ≠ 0))))))) ∧
    (∀ (i : Fin 2) (seen : SwitchSeen),
      let k := switchResult (b.tam.policy.closed.getLsbD i) seen
      let b' (n : Nat) : Block := { b with tam := { b.tam with
        switches := b.tam.switches.set i (BitVec.ofNat 4 k), switchRun := b.tam.switchRun.set i n } }
      (b.watched = false → exec (.switchSample i seen) s = .next s) ∧
      (b.watched = true → k = 0 → exec (.switchSample i seen) s = .next (s.to (ended (b' 0) ⟨13 + i.val, by omega⟩))) ∧
      (b.watched = true → k ≠ 0 → b.tam.switchRun[i] + 1 ≤ b.filterOf (13 + i.val) →
        exec (.switchSample i seen) s = .next (s.to (b' (b.tam.switchRun[i] + 1)))) ∧
      (b.watched = true → k ≠ 0 → b.filterOf (13 + i.val) < b.tam.switchRun[i] + 1 → exec (.switchSample i seen) s =
        .next (s.to ((b' (b.tam.switchRun[i] + 1)).alarmOn ⟨13 + i.val, by omega⟩ (BitVec.ofNat 32 k))))) ∧
    (∀ (closed : Bool) (n : Nat),
      switchResult closed .rail = 3 ∧ (n < 1000 → switchResult closed (.ohms n) = 3) ∧ (50000 < n → switchResult closed (.ohms n) = 2) ∧
      (4465 ≤ n → n ≤ 4935 → switchResult closed (.ohms n) = if closed then 0 else 1) ∧
      (8930 ≤ n → n ≤ 9870 → switchResult closed (.ohms n) = if closed then 1 else 0)) ∧
    (t.val < 2 ∨ 8 < t.val → (∀ x, exec (.sensorAlarm t x) s = .next s) ∧ exec (.sensorAlarmEnd t) s = .next s) ∧
    (2 ≤ t.val → t.val ≤ 8 → exec (.sensorAlarmEnd t) s = .next (s.to (ended b t)) ∧ ∀ x,
      let b' := if t.val = 3 ∧ b.watching = true then { b with tam := { b.tam with falling := Reading.falls x } } else b
      let off := (b'.tam.disarmed = true ∨ b'.tam.falling = true) ∧ t ∈ ([2, 5, 7, 8] : List TamperId)
      (off ∨ outside t x = false → exec (.sensorAlarm t x) s = .next (s.to b')) ∧
      (¬ off → outside t x = true → exec (.sensorAlarm t x) s = .next (s.to (b'.alarmOn t (sensorDetail t))))) ∧
    (∀ (v : Int) (n r p c : Nat) (l : List (Fin 1024)),
      (outside 2 (.supply v n) = true ↔ (v < 600 ∨ 920 < v) ∧ 2 ≤ n) ∧
      (outside 3 (.supply v n) = true ↔ (900 < v ∧ 2 ≤ n) ∨ (v < 720 ∧ 2 ≤ n ∧ n < 20000)) ∧
      (outside 4 (.supply v n) = true ↔ v < 2100 ∨ 3600 < v) ∧
      (outside 5 (.clocks r p c) = true ↔ r < 95000 ∨ 105000 < r ∨ p < 70 ∨ c < 14000 ∨ 18000 < c) ∧
      (outside 6 (.temperature v) = true ↔ 1500 < v ∨ v < -650) ∧ (outside 7 (.light n) = true ↔ 40 < n) ∧
      (outside 8 (.canaries l) = true ↔ l ≠ [])) ∧
    (∀ r u, b.watching = false → exec (.shadowCompare r u) s = .next s) ∧
    (∀ r u, b.watching = true → (b.upsetShadow r u).shadowOk r = false →
      exec (.shadowCompare r u) s = .next (s.to ((b.upsetShadow r u).alarmOn 15 (shadowDetail r)))) ∧
    (∀ r u, b.watching = true → (b.upsetShadow r u).shadowOk r = true →
      ((∀ k ∈ allShadowed, (b.upsetShadow r u).shadowOk k = true) → exec (.shadowCompare r u) s = .next (s.to (ended (b.upsetShadow r u) 15))) ∧
      ((∃ k ∈ allShadowed, (b.upsetShadow r u).shadowOk k = false) → exec (.shadowCompare r u) s = .next (s.to (b.upsetShadow r u)))) ∧
    (b.tam.haltAt = none → exec .haltRecordDeadline s = .next s) ∧
    (∀ u, b.tam.haltAt = some u →
      exec .haltRecordDeadline s = .next (s.to ((b.jobsWhere (fun j => j.ended && !b.kst.waits.contains j.id)).foldl Block.finish (b.advanceTo u 100000)))) ∧
    (b.tam.lineAt = none ∨ (b.chan c).xfer = none → exec (.zeroiseOutputTimeout c) s = .next s) ∧
    (∀ u x, b.tam.lineAt = some u → (b.chan c).xfer = some x →
      let b' := b.advanceTo u 1000000
      let cut (b : Block) : Host.Outcome State Fault Refusal := .next (s.to (b.closeXfer c { x with pieces := [], asked := [] }))
      (x.write = false → exec (.zeroiseOutputTimeout c) s = .next s) ∧
      (x.write = true →
        (b'.job x.job = none → exec (.zeroiseOutputTimeout c) s = cut b') ∧
        (∀ j, b'.job x.job = some j → exec (.zeroiseOutputTimeout c) s =
          cut (((Block.wipeAll j.wales b').modQuad j.quad (fun z => z.dropJob j)).modJob j.id (fun j => { j with
            result := { status := St.aborted, detail := 5 }, ended := true, wales := [], pages := [], phase := .waiting, needDdr := false, needOut := false }))))) ∧
    (b.bat.zeroPin = false → exec .tamZeroPulseEnd s = .next s) ∧
    (∀ u, b.bat.zeroPin = true → b.tam.lineAt = some u →
      exec .tamZeroPulseEnd s = .next (s.to (let b' := b.advanceTo u 10000000; { b' with bat := { b'.bat with zeroPin := false } }))) ∧
    (b.otp.stepDue = 0 ∨ b.boot.aonUp = false → ∀ ok, exec (.otpStepWrite ok) s = .next s) ∧
    (b.otp.stepDue ≠ 0 → b.boot.aonUp = true →
      exec (.otpStepWrite true) s = .next (s.to
        ({ b with otp := { b.otp with zeroCount := min 255 (b.otp.zeroCount + 1), stepDue := b.otp.stepDue - 1, tries := 0 } }).spend) ∧
      (b.otp.tries < 2 → exec (.otpStepWrite false) s = .next (s.to { b with otp := { b.otp with tries := b.otp.tries + 1 } })) ∧
      (2 ≤ b.otp.tries → exec (.otpStepWrite false) s = .next (s.to
        (({ b with otp := { b.otp with tries := 0 } }).note (Src.device 13 0) 0x17 4 (openDetail 0x17))))) ∧
    (b.bat.onVbat = false ∨ onBattery t = false → exec (.batteryAlarm t d) s = .next s) ∧
    (b.bat.onVbat = true → onBattery t = true → b.otp.fused.getLsbD t = false → b.tam.active.getLsbD t = false →
      ∃ b' : Block, exec (.batteryAlarm t d) s = .next (s.to b') ∧ b'.bat.sticky = setBit b.bat.sticky t true ∧ b'.bat.log.length ≤ 16 ∧
        (b.bat.batch = 0 ∨ (∀ e ∈ b.bat.log.head?, e.rtc ≠ b.bat.rtc) → ∀ e ∈ b'.bat.log.head?, e.ts = 0 ∧ e.rtc = b.bat.rtc ∧ e.detail = d ∧
          e.source = Src.tamper t ∧ e.conf = b.respOf t ∧ e.eff = Resp.after b.bat.level (b.onCell (b.respOf t))) ∧ b'.bat.log ≠ [] ∧
        ((b.actual (b.respOf t)).code < 3 → b'.bat.rootKey = b.bat.rootKey ∧ b'.bat.counters = b.bat.counters ∧ b'.bat.otpPending = b.bat.otpPending) ∧
        (3 ≤ (b.actual (b.respOf t)).code → b'.bat.rootKey = none ∧ b'.bat.zeroised = true ∧ (∀ e ∈ b'.bat.counters, e.1 < 64) ∧
          b'.bat.otpPending = b.bat.otpPending + (if b.bat.rootKey.isSome then 1 else 0)) ∧
        (∀ k : Nat, b'.tam.active.getLsbD k = (b.tam.active.getLsbD k || k == t.val)) ∧ Tab.get 0 b'.tam.details t = d ∧
        { b' with bat := b.bat, tam := b.tam } = (if 3 ≤ (b.actual (b.respOf t)).code then { b.dropCarried with bat := b.bat } else b)) ∧
    (b.boot.aonUp = true → exec .batteryReturn s = .next (s.to { b with bat := { b.bat with onVbat := false } }) ∧
      exec .batterySwitch s = .next (s.to b.powerLoss) ∧ exec .batteryDomainLoss s = .next s) ∧
    (b.boot.aonUp = false → exec .batteryReturn s = .next s ∧ exec .batterySwitch s = .next s ∧
      exec .batteryDomainLoss s = .next (s.to
        { b with bat := { supplied := false }, tam := { b.tam with active := 0, details := [] } }.dropCarried)) ∧
    exec .xtalFail s = .next (s.to { b with bat := { b.bat with rtcInternal := true, xtalNote := some (b.bat.rtc.setWidth 32) } })

/-- The fault collector (R15, R20, R201, R310 to R316, R320, R322, R425, Tables 13.1 to 13.4): FAULT_NOTE raises a note, stamped up to 500 ns before it arrives,
and fails the job it names with the status of its kind, and of two notes of one merge window the earlier decides; a channel's failing buffers end its
transfer as any error does, but not an output of which bytes have gone to the host (log 153). MERGE_WINDOW places the earliest held note 1 µs after its
stamp, HEARTBEAT fences a quadrant whose beat is missed, FENCE_FLASH_COPY copies a fence to flash, SELF_TEST_END ends the test of a unit. The log keeps
2,048 notes, and a full one loses its oldest F0 note first. -/
def Obligations.FaultEvents : Prop :=
  (∀ (s : State) (n : NoteIn),
    let b := s.toBlock
    let moves (c : Nat) : Prop := ∃ x, (b.chan c).xfer = some x ∧ ¬ (x.write = true ∧ x.target = 0 ∧ ∃ j, b.job x.job = some j ∧ j.sent = true)
    (b.boot.aonUp = false → exec (.faultNote n) s = .next s) ∧
    (b.boot.aonUp = true → ∀ c, ownBuffers n = some c → moves c → exec (.faultNote n) s = .next (s.to (b.failXfer c 0x30 false))) ∧
    (b.boot.aonUp = true → (∀ c, ownBuffers n = some c → ¬ moves c) →
      let ago := min 500 n.ago
      let b' := b.raise { source := n.source, kind := n.kind, cls := n.cls, detail := n.detail, addr := n.addr, job := n.job, ago := ago }
      (n.job = none ∨ noteStatus n.kind n.detail = none → exec (.faultNote n) s = .next (s.to b'.checkWake)) ∧
      (∀ id e, n.job = some id → noteStatus n.kind n.detail = some e →
        exec (.faultNote n) s = .next (s.to (b'.failNoted id (b.now - BitVec.ofNat 64 ago, n.source) e.1 e.2).checkWake)))) ∧
  (∀ (b : Block) (id : Nat) (j : Job) (n : W64 × W16) (st : W16) (d : W32), b.job id = some j → j.ended = true → j.phase ≠ .ready →
    (∀ m, j.noted = some m → Note.before n m = true →
      b.failNoted id n st d = b.modJob id (fun j => { j with result := { status := st, detail := d }, noted := some n })) ∧
    ((∀ m, j.noted = some m → Note.before n m = false) → b.failNoted id n st d = b)) ∧
  (∀ (s : State) (q : QuadId) (src : W16) (ok : Bool) (f : FUnit),
    let b := s.toBlock
    (b.flt.merging = [] → exec .mergeWindow s = .next s) ∧
    (b.flt.merging ≠ [] → ∃ m ∈ b.flt.merging,
      (∀ t : W64, (∀ k ∈ b.flt.merging, (k.ts - t).toNat < 2 ^ 62) →
        ∀ k ∈ b.flt.merging, (m.ts - t).toNat < (k.ts - t).toNat ∨ (m.ts = k.ts ∧ m.source ≤ k.source)) ∧
      let b' := b.advanceTo m.ts 1000
      exec .mergeWindow s = .next (s.to ({ b' with flt := { b'.flt with merging := takeOut m b'.flt.merging } }.placeNote m).releaseNoted)) ∧
    (b.boot.coreUp = false → exec (.heartbeat q) s = .next s) ∧
    (b.boot.coreUp = true → exec (.heartbeat q) s = .next (s.to (b.note (Src.quadUnit q 4) 0x14 1 (openDetail 0x14)))) ∧
    (b.boot.rimUp = false ∨ b.flt.copyDue = [] → exec .fenceFlashCopy s = .next s) ∧
    (∀ u r, b.boot.rimUp = true → b.flt.copyDue = u :: r → exec .fenceFlashCopy s = .next (s.to { b with
      flt := { b.flt with copyDue := r },
      flash := { b.flash with fences := b.flash.fences.filter (fun x => x.unit != u) ++ (b.flt.recs.filter (fun p => p.2.unit == u)).map (·.2) } })) ∧
    (FUnit.ofSource src = none ∨ (∃ i, FUnit.ofSource src = some (.noise i)) → exec (.selfTestEnd src ok) s = .next s) ∧
    (FUnit.ofSource src = some f → (∀ i, f ≠ .noise i) →
      (f.source ∉ b.flt.tests → exec (.selfTestEnd src ok) s = .next (s.to b.checkWake)) ∧
      exec (.selfTestEnd src ok) s = .next (s.to (b.endTest f ok).checkWake))) ∧
  (∀ (b : Block) (n : Note), b.flt.log.length ≤ 2048 →
    let b' := b.placeNote n
    b'.flt.log.length ≤ 2048 ∧
    (b'.flt = b.flt ∨ ∃ q, b'.flt.log.head? = some (q, n) ∧ b'.flt.seq = q ∧ q = (if b.flt.seq = 0xFFFFFFFF then 1 else b.flt.seq + 1) ∧
      (b.flt.log.length < 2048 → b'.flt.log = (q, n) :: b.flt.log ∧ b'.flt.lost = b.flt.lost) ∧
      (b.flt.log.length = 2048 → b'.flt.wrap = true ∧ b'.flt.log.length = 2048 ∧
        ∀ e ∈ b.flt.log, e.2.cls ≠ 0 → (∃ k ∈ b.flt.log, k.2.cls = 0) → e ∈ b'.flt.log)) ∧
    ((n.cls ≠ 0 ∨ n.kind = 0x18) → b'.flt ≠ b.flt))

/-- Fabric links and time (R323 to R332, Tables 14.1 to 14.4): the stages of a port in order, a failed stage tried again after 100 ms, a refused join's JOIN stage
after 1 s; a master refuses a device with the cause of R328 or joins it under its plan's number and sends the plan to a standby, and a member between them passes
the request on; the next frame with a good tag is taken, any other dropped, the eighth drop taking the link down; a frame sent takes the next number; the keys are
renewed; the far end's time is its stamp and half the round trip: three good corrections lock a member, whose rate is steered, and which is never stepped back
(the free rates are log 155, a step once locked log 145); a member ahead of its master makes the master step; a silent or failing link goes down. -/
def Obligations.FabricLinks : Prop :=
  (∀ (s : State) (p : PortId) (l : Fin 4) (peer self : BitVec 12) (dig : Bytes) (depth : Nat) (plan : Option Bytes) (reason : BitVec 4),
    let b := s.toBlock
    let x := b.port p
    let ok : StageEnd := .ok l peer self dig depth plan
    let run (e : StageEnd) := exec (.linkStageEnd p e) s
    let put (m : BitVec 12) : Block := b.modWty (fun f => { f with
      members := Tab.put f.members m.toNat { joined := true, lastSeen := b.now, depth := depth }, paths := Tab.put f.paths m.toNat p })
    let plans (m : BitVec 12) (b : Block) : Block := (b.wty.plan.filter (fun e => e.member == m)).foldl Block.sendPlan b
    let refuse (c : Nat) : Block := b.fabricF0 p 0 0x22 (BitVec.ofNat 32 (c * 256));
    (x.retryAt ≠ none ∨ b.stopped = true ∨ b.boot.coreUp = false → ∀ e, run e = .next s) ∧
    (x.st = .join → x.refusedAt ≠ none → ∀ e, run e = .next s) ∧
    (x.retryAt = none → b.stopped = false → b.boot.coreUp = true →
      (x.st = .off ∨ x.st = .fenced → ∀ e, run e = .next s) ∧
      (x.st = .up → run (.failed reason) = .next s) ∧
      (x.st = .up → x.role = .down → b.wty.master = true →
        (∀ c, b.joinCause dig depth = .error c → run ok = .next (s.to ((refuse c).sendFrame p "refused" (dig ++ le 1 c)))) ∧
        (∀ m, b.joinCause dig depth = .ok m → run ok = .next (s.to (plans m ((put m).sendFrame p "joined" (dig ++ le 2 m.toNat)))))) ∧
      (x.st = .up → x.role = .down → b.wty.master = false →
        (b.upLink = none → run ok = .next s) ∧
        (∀ u, b.upLink = some u → run ok = .next (s.to (b.sendFrame u "join" (dig ++ le 1 depth))))) ∧
      (x.st = .up → x.role = .up → ∀ d, plan = some d →
        (b.wty.standby = true → run ok = .next (s.to (b.modWty (fun f => { f with plan := parsePlan d })))) ∧
        (b.wty.standby = false → run ok = .next s)) ∧
      (x.st = .up → x.role = .off ∨ x.role = .alt ∨ (x.role = .up ∧ plan = none) → run ok = .next s) ∧
      (x.st = .training → l = 0 → run ok = .next (s.to (b.stageFails p 1))) ∧
      (x.st = .training → l ≠ 0 → run ok = .next (s.to (b.modPort p (fun x => { x with st := .auth, lanes := BitVec.ofNat 2 l.val })))) ∧
      (x.st = .auth → run ok = .next (s.to (b.modPort p (fun x => { x with st := .keys })))) ∧
      (x.st = .keys → run ok = .next (s.to ((b.drew 64).modPort p (fun x => { x with st := .join, keys := b.anyBytes 64 })))) ∧
      (x.st = .join → x.refusedAt = none → b.wty.isolated.contains peer = true → b.wty.master = true → x.role ≠ .down → run ok = .next (s.to (b.stageFails p 6))) ∧
      (x.st = .join → x.refusedAt = none → b.wty.isolated.contains peer = false ∨ b.wty.master = false ∨ x.role = .down →
        (x.role = .off → run ok = .next s) ∧
        (x.role = .down → b.wty.master = false → b.joined = false → run ok = .next s) ∧
        (x.role = .down → b.wty.master = false → b.joined = true →
          run ok = .next (s.to ((b.linkUp p peer).modWty (fun f => { f with isolated := f.isolated.filter (· != peer) })))) ∧
        (x.role = .alt → run ok = .next (s.to (b.linkUp p peer))) ∧
        (x.role = .down → b.wty.master = true →
          (∀ c, b.joinCause dig depth = .error c → run ok = .next (s.to ((refuse c).stageFails p 6))) ∧
          (∀ m, b.joinCause dig depth = .ok m → run ok = .next (s.to (plans m ((put m).linkUp p m))))) ∧
        (x.role = .up → ∃ b' : Block, run ok = .next (s.to b') ∧ b'.wty.number = some self ∧ b'.wty.depth = depth ∧ b'.timeFabric = true ∧
          b'.wty.standby = plan.isSome ∧ b'.wty.lostMaster = false ∧ (b'.port p).st = .up ∧ (b'.port p).peer = peer ∧
          ∀ d, plan = some d → b'.wty.plan = parsePlan d)) ∧
      (x.st ∈ [PortSt.training, .auth, .keys, .join] → x.st ≠ .join ∨ x.refusedAt = none → run (.failed reason) = .next (s.to (b.stageFails p reason)))) ∧
    (x.retryAt = none → exec (.linkStageRetry p) s = .next s) ∧
    (∀ t, x.retryAt = some t → exec (.linkStageRetry p) s =
      .next (s.to ((b.advanceTo t 100000000).modPort p (fun x => { x with st := .training, retryAt := none, lanes := 0 })))) ∧
    (x.refusedAt = none → exec (.joinRetry p) s = .next s) ∧
    (∀ t, x.refusedAt = some t → exec (.joinRetry p) s =
      .next (s.to ((b.advanceTo t 1000000000).modPort p (fun x => { x with refusedAt := none })))) ∧
    ((b.stageFails p reason).port p).retryAt = some b.now ∧ ((b.stageFails p reason).port p).keys = []) ∧
  (∀ (b : Block) (d : Bytes) (depth : Nat),
    ((∀ e ∈ b.wty.plan, e.digest ≠ d) → b.joinCause d depth = .error 1) ∧
    (∀ m, b.joinCause d depth = .ok m → depth ≤ 7 ∧ (∃ e ∈ b.wty.plan, e.digest = d ∧ e.member = m) ∧
      (Tab.get {} b.wty.members m.toNat : Member).joined = false ∧ (Tab.get {} b.wty.members m.toNat : Member).quarantined = false)) ∧
  (∀ (b : Block) (p : PortId) (what : String) (body : Bytes),
    (b.sendFrame p what body).link = .withy p (b.port p).sent what body :: b.link ∧ ((b.sendFrame p what body).port p).sent = (b.port p).sent + 1) ∧
  (∀ (s : State) (p : PortId) (n : W64),
    let b := s.toBlock
    let x := b.port p
    (x.st ≠ .up → (∀ g, exec (.frameReceive p n g) s = .next s) ∧ exec (.linkSilence p) s = .next s ∧ exec (.linkKeyRenewal p) s = .next s) ∧
    (x.st = .up →
      (n = x.frame → exec (.frameReceive p n true) s = .next (s.to (b.modPort p (fun x => { x with
        frame := x.frame + 1, keyFrames := x.keyFrames + 1, drops := 0, lastValid := b.now })))) ∧
      (∀ g, n ≠ x.frame ∨ g = false →
        (x.drops < 7 → exec (.frameReceive p n g) s = .next (s.to (b.modPort p (fun x => { x with drops := x.drops + 1 })))) ∧
        (7 ≤ x.drops → exec (.frameReceive p n g) s = .next (s.to (b.linkDown p)))) ∧
      exec (.linkSilence p) s = .next (s.to ((b.advanceTo x.lastValid 10000).linkDown p)) ∧
      (let b' := if x.keyFrames < 2 ^ 32 then b.advanceTo x.keyedAt 3600000000000 else b;
        exec (.linkKeyRenewal p) s = .next (s.to ((b'.drew 64).modPort p (fun x => { x with
          keyedAt := b'.now, keyFrames := 0, keys := b'.anyBytes 64 }))))) ∧
    (x.role = .off ∨ x.st = .fenced → exec (.linkErrors p) s = .next s) ∧
    (x.role ≠ .off → x.st ≠ .fenced →
      let b' := b.linkDown p
      ((b'.port p).st = .fenced → exec (.linkErrors p) s = .next (s.to b')) ∧
      ((b'.port p).st ≠ .fenced → exec (.linkErrors p) s = .next (s.to (b'.note (Src.fabric p 0) 0x21 1 (farEnd 0x21 x.peer))))) ∧
    (∀ y : SyncStamp,
      let t := y.stamp + BitVec.ofNat 64 (y.roundTrip / 2)
      let ahead := (b.now - t).toNat
      let behind := (t - b.now).toNat
      let run := exec (.syncFrame p y) s
      let steered (r : Int) : Block := b.modWty (fun f => { f with good := 0, rate := r })
      let toward : Block := steered (Config.freeNat 81 t.toNat % 100001 : Nat)
      let q : Int := (Config.freeNat 80 t.toNat % 200001 : Nat) - 100000
      let good : Block := b.modWty (fun f => { f with good := b.wty.good + 1, freq := q, rate := q });
      (x.st ≠ .up ∨ b.joined = false ∨ x.role = .off ∨ x.role = .alt ∨ (b.wty.master = true ∧ x.role = .up) → run = .next s) ∧
      (x.st = .up → b.joined = true → x.role = .down →
        (behind ≤ 1000000 ∨ 2 ^ 63 ≤ behind → run = .next s) ∧
        (1000000 < behind → behind < 2 ^ 63 →
          (b.wty.master = true → run = .next (s.to (b.stepTo (t + 1000)))) ∧
          (b.wty.master = false → b.upLink = none → run = .next s) ∧
          (∀ u, b.wty.master = false → b.upLink = some u → run = .next (s.to (b.sendFrame u "sync" (le 8 t.toNat)))))) ∧
      (x.st = .up → x.role = .up → b.joined = true → b.wty.master = false →
        (2 < behind → 2 < ahead →
          (2 ^ 63 ≤ behind → run = .next (s.to (steered (-100000)))) ∧
          (behind < 2 ^ 63 → b.timeLocked = false ∨ 1000000 < behind → run = .next (s.to (toward.stepTo t))) ∧
          (behind ≤ 1000000 → b.timeLocked = true → run = .next (s.to toward))) ∧
        (behind ≤ 2 ∨ ahead ≤ 2 →
          (b.wty.good < 2 ∨ b.timeLocked = true → run = .next (s.to good)) ∧
          (2 ≤ b.wty.good → b.timeLocked = false → b.holdover = false → run = .next (s.to (good.setLock true false))) ∧
          (2 ≤ b.wty.good → b.timeLocked = false → b.holdover = true → run =
            .next (s.to (((good.modWty (fun f => { f with holdSince := none })).fabricF0 0 1 0x25 (openDetail 0x25)).setLock true false)))))) ∧
    (b.wty.holdSince = none → exec .holdLimit s = .next s) ∧
    (∀ t, b.wty.holdSince = some t → exec .holdLimit s = .next (s.to
      (((b.advanceTo t (b.wty.holdLimit * 1000000000)).modWty (fun f => { f with holdSince := none })).fabricF0 0 1 0x25 (openDetail 0x25)))))

/-- Members, masters, replicas, notices and spread jobs (R333 to R345): a master that hears of nobody for 1 ms marks a member lost; a member that hears of no
master enters holdover, and a standby that is eligible and reaches more than half of the plan takes over after 50 ms under a new term; a lease is the share of what
remains, between 1 and 1,024; keep-alives are answered by the master and passed on along the tree; a zeroise notice is taken once, sent on, and quarantines its sender at the master; a neighbour's result is
taken for a forwarded job only, and its refusal puts the job back, or ends it where its slice has stopped admitting. -/
def Obligations.FabricMembers : Prop :=
  (∀ (s : State) (p : PortId) (m : BitVec 12) (n : Nat),
    let b := s.toBlock
    let x := b.port p
    let mem : Member := Tab.get {} b.wty.members m.toNat
    (x.st ≠ .up ∨ b.joined = false → exec (.keepAlive p m) s = .next s) ∧
    (x.st = .up → b.joined = true → b.wty.master = true →
      ((mem.joined = false ∧ mem.lost = false) ∨ mem.quarantined = true → exec (.keepAlive p m) s = .next s) ∧
      (mem.joined = true ∨ mem.lost = true → mem.quarantined = false → exec (.keepAlive p m) s = .next (s.to
        ((b.modWty (fun f => { f with
          members := Tab.put f.members m.toNat { mem with joined := true, lost := false, lastSeen := b.now },
          paths := Tab.put f.paths m.toNat p })).sendFrame p "keepalive" (le 2 m.toNat))))) ∧
    (x.st = .up → b.joined = true → b.wty.master = false → x.role = .up → m = b.self → exec (.keepAlive p m) s = .next (s.to
      (b.modWty (fun f => { f with lastMaster := b.now, lostMaster := false, cutOff := false })))) ∧
    (x.st = .up → b.joined = true → b.wty.master = false → x.role = .up → m ≠ b.self →
      (b.pathTo m = none ∨ b.pathTo m = some p → exec (.keepAlive p m) s = .next s) ∧
      (∀ d, b.pathTo m = some d → d ≠ p → exec (.keepAlive p m) s = .next (s.to (b.sendFrame d "keepalive" (le 2 m.toNat))))) ∧
    (x.st = .up → b.joined = true → b.wty.master = false → x.role ≠ .up →
      (b.upLink = none → exec (.keepAlive p m) s = .next s) ∧
      (∀ u, b.upLink = some u → exec (.keepAlive p m) s = .next (s.to
        ((b.modWty (fun f => { f with paths := Tab.put f.paths m.toNat p })).sendFrame u "keepalive" (le 2 m.toNat))))) ∧
    (b.wty.master = false ∨ mem.joined = false → exec (.memberLost m) s = .next s) ∧
    (b.wty.master = true → mem.joined = true → exec (.memberLost m) s = .next (s.to
      (((b.advanceTo mem.lastSeen 1000000).modWty (fun f => { f with members := Tab.put f.members m.toNat { mem with joined := false, lost := true } })).fabricF0
        0 6 0x23 (m.setWidth 32)))) ∧
    (b.joined = false ∨ b.wty.master = true ∨ b.wty.lostMaster = true → exec .masterLost s = .next s) ∧
    (b.joined = true → b.wty.master = false → b.wty.lostMaster = false → exec .masterLost s = .next (s.to
      ((((b.advanceTo b.wty.lastMaster 1000000).modWty (fun f => { f with lostMaster := true })).fabricF0 0 6 0x24
        ((b.advanceTo b.wty.lastMaster 1000000).wty.masterNo.setWidth 32)).enterHoldover))) ∧
    (b.wty.standby = false ∨ b.wty.eligible = false ∨ b.wty.lostMaster = false ∨ 2 * n ≤ b.wty.plan.length → exec (.takeover n) s = .next s) ∧
    (b.wty.standby = true → b.wty.eligible = true → b.wty.lostMaster = true → b.wty.plan.length < 2 * n →
      exec (.takeover n) s = .next (s.to (b.advanceTo b.wty.lastMaster 50000000).becomeMaster)) ∧
    (b.wty.master = false → exec (.quorumLoss n) s = .next s) ∧
    (b.wty.master = true → exec (.quorumLoss n) s = .next (s.to (b.modWty (fun f => { f with committing := decide (f.plan.length < 2 * n) })).releaseWaits)) ∧
    (b.wty.lostMaster = false ∨ b.wty.cutOff = true ∨ b.wty.master = true → exec .replGrace s = .next s) ∧
    (b.wty.lostMaster = true → b.wty.cutOff = false → b.wty.master = false → exec .replGrace s = .next (s.to
      ((b.advanceTo b.wty.lastMaster (b.wty.replGrace * 1000000000)).modWty (fun f => { f with cutOff := true })))) ∧
    (x.st ≠ .up → exec (.advertisement p n) s = .next s) ∧
    (x.st = .up → exec (.advertisement p n) s = .next (s.to (b.modPort p (fun x => { x with idle := n })))) ∧
    exec (.forwardAbort p n) s =
      .next (s.to (Block.failJobs (b.jobsWhere (fun j => j.remote == some (p, n))) St.aborted 0 b))) ∧
  (∀ (s : State) (h : W32) (m : BitVec 12) (k : Key) (c : ReplChange) (p : PortId) (term : W64),
    let b := s.toBlock
    (b.key h = some k → k.underLease = true → b.joined = true → b.wty.lostMaster = false →
      let left := k.useLimit.toNat - (k.useCount.toNat + k.lease + k.leased)
      let n := leaseSize left (b.slice (handleSlice h)).members.length
      (m = b.self → exec (.leaseRequest h m) s = .next (s.to (b.putKey h { k with lease := k.lease + n }))) ∧
      (m ≠ b.self → b.wty.master = false → exec (.leaseRequest h m) s = .next s) ∧
      (m ≠ b.self → b.wty.master = true →
        exec (.leaseRequest h m) s = .next (s.to ((b.putKey h { k with leased := k.leased + n }).change (.key h)))) ∧
      n ≤ left ∧ n ≤ 1024 ∧ (left ≠ 0 → 1 ≤ n)) ∧
    (b.key h = none → exec (.leaseRequest h m) s = .next s) ∧
    (b.key h = some k → k.underLease = false ∨ b.joined = false ∨ b.wty.lostMaster = true → exec (.leaseRequest h m) s = .next s) ∧
    (b.joined = false ∨ (b.slice c.slice).replicated = false ∨ (b.wty.master = true ∧ b.wty.committing = false) →
      exec (.replicationChange c) s = .next s) ∧
    (b.joined = true → (b.slice c.slice).replicated = true → b.wty.master = false ∨ b.wty.committing = true →
      let set (l : List (BitVec 12)) := if l.contains c.member = true ∨ 64 ≤ l.length then l else l ++ [c.member]
      let b₁ := (b.modSlice c.slice (fun x => { x with replSeq := x.replSeq + 1, members := set x.members })).change (.slice c.slice)
      let b₂ := if b.wty.standby = true ∧ c.member = b.self then b₁.modWty (fun f => { f with eligible := c.behind == 0 }) else b₁
      (c.behind ≤ 65536 → exec (.replicationChange c) s = .next (s.to b₂)) ∧
      (65536 < c.behind → exec (.replicationChange c) s = .next (s.to (b₂.fabricF0 0 2 0x27 (c.member.setWidth 32))))) ∧
    ((b.port p).st ≠ .up ∨ (m, term) ∈ b.wty.seenNotices → exec (.zeroiseNotice p m term) s = .next s) ∧
    ((b.port p).st = .up → (m, term) ∉ b.wty.seenNotices →
      let b₁ := ((b.modWty (fun f => { f with seenNotices := (m, term) :: f.seenNotices })).sendNotice (some p) m term.toNat).fabricF0 p 5 0x28 (m.setWidth 32)
      let b₂ := if b₁.wty.master = true then b₁.modWty (fun f => { f with
        members := Tab.put f.members m.toNat { (Tab.get {} f.members m.toNat : Member) with quarantined := true, joined := false } }) else b₁
      let isolated := b₂.modWty (fun f => { f with isolated := m :: f.isolated.filter (· != m) })
      let b₃ := (List.finRange 4).foldl (fun (b : Block) (q : PortId) => if (b.port q).peer = m then b.linkDown q else b) isolated
      let shared := b₃.slices.filter (fun x => x.2.replicated && x.2.members.contains m)
      let b₄ := shared.foldl (fun (b : Block) (x : Nat × Slice) => b.dropReplicas x.1) b₃
      let b₅ := b₄.zeroiseLine
      (b.wty.fzPolicy = 0 → exec (.zeroiseNotice p m term) s = .next (s.to b₂)) ∧
      (b.wty.fzPolicy = 1 → exec (.zeroiseNotice p m term) s = .next (s.to b₃)) ∧
      (b.wty.fzPolicy = 2 → exec (.zeroiseNotice p m term) s = .next (s.to b₄)) ∧
      (b.wty.fzPolicy = 3 → exec (.zeroiseNotice p m term) s = .next (s.to (Block.failJobs (b₅.jobsWhere (fun _ => true)) St.aborted 4 b₅))))) ∧
  (∀ (s : State) (id : Nat) (j : Job) (p : PortId) (sl : SliceId) (d i q : Bytes) (n : Nat),
    let b := s.toBlock
    (b.job id = none → exec (.spreadWait id p) s = .next s ∧ ∀ r, exec (.forwardedResult id r) s = .next s) ∧
    (b.job id = some j → b.mayForward j p = false → exec (.spreadWait id p) s = .next s) ∧
    (b.job id = some j → j.phase ≠ .forwarded ∨ j.ended = true → ∀ r, exec (.forwardedResult id r) s = .next s) ∧
    (b.job id = some j → j.phase = .forwarded → j.ended = false →
      (let fixed := b.fixedLen j.slice j.entry j.desc
        let z := { j with
          phase := .ready, forwardTo := none, holding := false, levelAt := b.now - BitVec.ofNat 64 j.waited, readySince := b.now,
          fixed := fixed, passes := streamPasses fixed j.op j.desc };
        let back : Block := { (b.dryDeficit j.level j.list) with jobs := z :: b.jobs.filter (fun y => y.id != id) }.refill;
        ((b.slice j.slice).st = .active ∨ j.remote ≠ none → exec (.forwardedResult id none) s = .next (s.to back)) ∧
        ((b.slice j.slice).st ≠ .active → j.remote = none → exec (.forwardedResult id none) s = .next (s.to (back.failJob id St.aborted 1)))) ∧
      ∀ y, exec (.forwardedResult id (some y)) s = .next (s.to (((b.returnUse j).modJob id (fun z => { z with
        forwardTo := none, useHeld := false, phase := .comparing, result := { status := y.status, detail := y.detail, out := y.out } })).passed id))) ∧
    (b.job id = some j → b.mayForward j p = true →
      let b₁ := b.advanceTo j.readySince ((b.port p).spreadWait * 1000)
      let b₂ := b₁.countWait j
      let b₃ := b₂.modJob id (fun z => { { z with fixed := z.desc.inLen, passes := 0 }.withNeeds with
        phase := .loading, wales := [], quad := b₂.emptyQuad z, holding := !b₂.isHead j, grantedAt := b₂.now, waited := b₂.elapsed z.levelAt,
        forwardTo := some p, spread := true })
      exec (.spreadWait id p) s = .next (s.to ((b₃.dryDeficit j.level j.list).pump id))) ∧
    ((b.port p).st ≠ .up → exec (.forwardedJob p sl d i q n) s = .next s) ∧
    ((b.port p).st = .up → b.dispatches = false ∨ (b.slice sl).replicated = false ∨ (b.slice sl).st ≠ .active →
      exec (.forwardedJob p sl d i q n) s = .next (s.to (b.sendFrame p "refused" (le 8 n)))) ∧
    ((b.port p).st = .up → b.dispatches = true → (b.slice sl).replicated = true → (b.slice sl).st = .active →
      (b.usable sl (parseDesc d).opcode = none → exec (.forwardedJob p sl d i q n) s =
        .next (s.to (b.sendFrame p "result" (le 8 n ++ le 2 St.badOpcode.toNat ++ le 4 0)))) ∧
      (∀ e st dt, b.usable sl (parseDesc d).opcode = some e → b.admitCheck sl e (parseDesc d) = some (st, dt) →
        (st = St.quota ∨ st = St.resourceFenced → exec (.forwardedJob p sl d i q n) s = .next (s.to (b.sendFrame p "refused" (le 8 n)))) ∧
        (st ≠ St.quota → st ≠ St.resourceFenced → exec (.forwardedJob p sl d i q n) s =
          .next (s.to (b.sendFrame p "result" (le 8 n ++ le 2 st.toNat ++ le 4 dt.toNat))))) ∧
      (∀ e, b.usable sl (parseDesc d).opcode = some e → b.admitCheck sl e (parseDesc d) = none →
        ∃ b' : Block, ∃ k : Job, exec (.forwardedJob p sl d i q n) s = .next (s.to b'.refill) ∧ b'.jobs = b.jobs ++ [k] ∧ k.phase = .ready ∧
          k.slice = sl ∧ k.desc = parseDesc d ∧ k.entry = e ∧ k.remote = some (p, n) ∧ k.input = i ∧ k.param = q)))

/-- Power, temperature and ageing (R349 to R368): each command of the rail is at most 10 mV from the last; a poll keeps the readings and counts the
retries of a bad one; too heavy a current withholds grants; derating begins above 105 °C of Tcase and ends after a second below 100 °C; a wale at
rest takes its planned target when the rail allows it, and is then calibrated; a run is due every 24 h and on a ring oscillator's fall of more
than 2 %. -/
def Obligations.PowerAndAgeing : Prop :=
  (∀ (b : Block),
    (b.moveRail.pwr.rail = b.pwr.rail ∨
      (b.moveRail.pwr.rail ≤ b.pwr.rail + 10 ∧ b.pwr.rail ≤ b.moveRail.pwr.rail + 10 ∧ b.moveRail.pwr.moving = true ∧
        b.moveRail.link = .pmbus b.moveRail.pwr.rail :: b.link)) ∧
    { b.moveRail with pwr := b.pwr, link := b.link } = b) ∧
  (∀ (s : State) (v : Nat) (m : PmReading) (t : Tjs) (q : QuadId) (n : Fin 5) (w : WaleId),
    let b := s.toBlock
    let z := b.quad q
    let x := b.wale w
    (b.pwr.moving = false → ∀ o, exec (.railStep o) s = .next s) ∧
    (b.pwr.moving = true → exec (.railStep none) s = .next (s.to b.avsFault) ∧
      (v ≤ b.pwr.rail + 5 → b.pwr.rail ≤ v + 5 →
        exec (.railStep (some v)) s = .next (s.to (b.modPwr (fun p => { p with vout := v, moving := false })).moveRail)) ∧
      (b.pwr.rail + 5 < v ∨ v + 5 < b.pwr.rail →
        exec (.railStep (some v)) s = .next (s.to ((b.advanceTo b.pwr.commandedAt 50000).modPwr (fun p => { p with vout := v, moving := false })).moveRail))) ∧
    (b.boot.rimUp = false → ∀ o, exec (.pmbusPoll o) s = .next s) ∧
    (b.boot.rimUp = true → exec (.pmbusPoll none) s = .next (s.to b.avsFault) ∧
      (let far := b.pwr.rail + 10 < m.vout ∨ m.vout + 10 < b.pwr.rail
        let bad := m.fault = true ∨ (200000 ≤ b.elapsed b.pwr.commandedAt ∧ far)
        let read (k : Nat) : Block := b.modPwr (fun p => { p with
          vout := m.vout, iout := m.iout, retries := k, overSince := if b.pwr.limit < m.iout then some (p.overSince.getD b.now) else none,
          ioutHold := p.ioutHold && !decide (m.iout * 100 < b.pwr.limit * 95) });
        (¬ bad → exec (.pmbusPoll (some m)) s = .next (s.to (read 0))) ∧
        (bad → b.pwr.retries < 3 → exec (.pmbusPoll (some m)) s = .next (s.to (read (b.pwr.retries + 1)))) ∧
        (bad → 3 ≤ b.pwr.retries → exec (.pmbusPoll (some m)) s = .next (s.to (read (b.pwr.retries + 1)).avsFault)))) ∧
    (b.pwr.overSince = none → exec .ioutLimit s = .next s) ∧
    (∀ u, b.pwr.overSince = some u → exec .ioutLimit s = .next (s.to ((b.advanceTo u 1000000).modPwr (fun p => { p with ioutHold := true })))) ∧
    (b.boot.coreUp = false → exec (.thermalSample t) s = .next s) ∧
    (b.boot.coreUp = true → ∀ a : Block,
      let known (k : Int) : Prop := k ∈ t.wales.toList ∨ k ∈ t.nets.toList ∨ k = t.rim ∨ k = t.kst
      let scaled := Tjs.hottest t * 10000 - (a.pwr.vout * a.pwr.iout : Nat);
      ((∃ k, known k ∧ (1500 < k ∨ k < -650)) ∧ a = b.alarmOn 6 (sensorDetail 6)) ∨ ((∀ k, known k → k ≤ 1500 ∧ -650 ≤ k) ∧ a = b.alarmOff 6) →
      ∃ b' : Block, exec (.thermalSample t) s = .next (s.to b'.startRuns) ∧ b'.tam = a.tam ∧ b'.pwr.tj = t ∧ b'.pwr.tcase = scaled / 10000 ∧
        (scaled ≤ 10500000 → b'.pwr.derated = a.pwr.derated) ∧ (10500000 < scaled → b'.pwr.derated = true)) ∧
    (b.pwr.coolSince = none ∨ b.pwr.derated = false → exec .derateEnd s = .next s) ∧
    (∀ u, b.pwr.coolSince = some u → b.pwr.derated = true → exec .derateEnd s = .next (s.to
      ((((b.advanceTo u 1000000000).modPwr (fun p => { p with derated := false, coolSince := none })).derateQuads false).powerNote 0x31))) ∧
    (z.binWant ≠ some n ∨ z.binTo ≠ none ∨ b.boot.rimUp = false → exec (.binChange q n) s = .next s) ∧
    (z.binWant = some n → z.binTo = none → b.boot.rimUp = true → z.bin ≤ n →
      exec (.binChange q n) s = .next (s.to (b.modQuad q (fun z => { z with onNet := true, binWant := none, binTo := some n })))) ∧
    (z.binWant = some n → z.binTo = none → b.boot.rimUp = true → n < z.bin →
      let raised := ∀ k < 16, b.waleAvail (16 * q.val + k) = true → (b.wale (16 * q.val + k)).age.planned = none ∧
        (b.wale (16 * q.val + k)).age.calibrating = false
      (b.pwr.avsLost = true ∨ ¬ raised → exec (.binChange q n) s = .next s) ∧
      (b.pwr.avsLost = false → raised →
        exec (.binChange q n) s = .next (s.to (b.modQuad q (fun z => { z with onNet := true, binWant := none, binTo := some n }))))) ∧
    (x.age.planned = none → exec (.targetSettle w) s = .next s) ∧
    (∀ u, x.age.planned = some u →
      (b.railReady w = false ∨ b.idle w = false ∨ b.waleAvail w = false ∨ x.age.running = true → exec (.targetSettle w) s = .next s) ∧
      (b.railReady w = true → b.idle w = true → b.waleAvail w = true → x.age.running = false →
        exec (.targetSettle w) s = .next (s.to (b.modAge w (fun a => { a with
          target := u, planned := none, calibrating := true, levelBin := if a.target < u then 0 else a.levelBin,
          levelNet := if a.target < u then 0 else a.levelNet })).moveRail))) ∧
    (x.age.calibrating = false ∨ x.age.running = true ∨ x.job ≠ none → ∀ f g, exec (.calibrationEnd w f g) s = .next s) ∧
    (x.age.calibrating = true → x.age.running = false → x.job = none → x.st = .warm ∨ x.st = .clockGated ∨ x.st = .gated → ∀ f g,
      exec (.calibrationEnd w f g) s =
        .next (s.to ((b.modAge w (fun a => { a with levelBin := f, levelNet := g, calibrating := false })).startRuns).refill)) ∧
    (b.boot.rimUp = false → exec (.ageingRunDue w) s = .next s ∧ exec (.ringOscRead w v) s = .next s) ∧
    (b.boot.rimUp = true →
      exec (.ageingRunDue w) s =
        .next (s.to ((b.advanceTo x.age.lastRun 86400000000000).modAge w (fun a => { a with runWanted := true })).startRuns) ∧
      (let b' := b.advanceTo x.age.oscAt 10000000000;
        exec (.ringOscRead w v) s = .next (s.to (b'.modAge w (fun a => { a with
          oscAt := b'.now, runWanted := a.runWanted || decide (v * 100 < a.runKhz.toNat * 98) })).startRuns))) ∧
    (x.age.running = false → ∀ need, exec (.ageingRunEnd w need v) s = .next s) ∧
    (x.age.running = true → ∀ need,
      let bin := (b.quad (w.val / 16)).bin.val
      let b₁ := b.modAge w (fun a => { a with
        running := false, runWanted := false, deferred := false, cold := false, lastRun := b.now, oscAt := b.now, runKhz := BitVec.ofNat 32 v, need := need,
        offset := min 175 (max (a.offset - 5) (roundUp (need - Config.vnew w bin) 5)) })
      let b₂ := b₁.modAge w (fun a => { a with index := b₁.indexAt w bin, left := b₁.hoursLeft w })
      let ended (b : Block) : Prop :=
        let b' := (b.warnAge w).keepAge w
        exec (.ageingRunEnd w need v) s =
          .next (s.to (if b'.waleAvail w then b'.modAge w (fun a => { a with calibrating := true }) else b'.startRuns));
      (b.marginFence w = false → need ≤ b₂.reach → ended (b₂.planWale w).moveRail) ∧
      (b.marginFence w = false → b₂.reach < need → ended (b₂.marginFails w)) ∧
      (b.marginFence w = true → (b₂.wale w).age.index ≤ 950 → ended (b₂.unfence (.wale w))) ∧
      (b.marginFence w = true → 950 < (b₂.wale w).age.index → ended b₂)))

/-- Starts, resets, firmware watch and JTAG (R371 to R384, R397, R398, R406, Tables 16.5 and 16.6): a device with power is not started again; a full reset
makes its three steps, then a start; a sealed device takes none; PERST_N, SYS_RESET_N and the watchdog lead to it; an FLR with a WEDGED slice is one; a journal of an older epoch leaves
the store ZEROISED with an F2 note; the ready indication waits for the conditions of R377; EXTEST and HIGHZ in PROVISIONED and DEPLOYED hold the core in reset until
TRST_N. -/
def Obligations.StartsAndResets : Prop :=
  (∀ (s : State) (f : BootFacts) (c : Fin 2) (epoch : W64) (ok : Bool),
    let b := s.toBlock
    let reset (b : Block) : Block := b.fullReset f true
    (b.boot.aonUp = true → exec (.powerUp f) s = .next s) ∧
    (b.boot.aonUp = false →
      let b₁ := { b with boot := { b.boot with aonUp := true }, tam := { b.tam with log := copiedLog b.bat.log } }
      let b₂ := (b₁.checkRoot f).writePending f.otpOk
      let b₃ := if b₂.bat.otpPending = 0 then b₂ else b₂.sweepEnd
      let b₄ := { b₃ with wales := (List.range 64).map (fun i => (i, { ({} : Wale) with age := (Tab.get {} b₃.flash.ages i : Ageing) })) }
      (f.rootValid = true → b.bat.rootKey ≠ none ∨ b.bat.zeroised = true ∨ b.bat.otpPending ≠ 0 ∨ (b.otp.lifecycle ≠ .provisioned ∧ b.otp.lifecycle ≠ .deployed) →
        b₁.checkRoot f = b₁) ∧
      (b₃.flt.sealed = true ∨ b₃.flt.sealing = true → exec (.powerUp f) s = .next (s.to b₃)) ∧
      (b₃.flt.sealed = false → b₃.flt.sealing = false →
        exec (.powerUp f) s = .next (s.to ({ b₄.coreReset with now := 0, wrapped := false }.startCore f true)))) ∧
    (b.boot.aonUp = false ∨ b.boot.pwrOk = false ∨ b.flt.sealed = true ∨ b.boot.jtagHeld = true → ∀ k, b.fullReset f k = b) ∧
    (b.boot.aonUp = true → b.boot.pwrOk = true → b.flt.sealed = false → b.boot.jtagHeld = false → ∀ k,
      (b.beforeReset k).flt.sealed = false → b.fullReset f k = ((b.beforeReset k).coreReset.checkRoot f).startCore f false) ∧
    exec (.sysResetN f) s = .next (s.to (reset b)) ∧
    (b.flt.sealed = true → exec (.perstN f) s = .next (s.to { b with host := { perst := true } })) ∧
    (b.flt.sealed = false → b.boot.coreUp = false ∨ b.boot.ready = true →
      exec (.perstN f) s = .next (s.to { reset b with host := { (reset b).host with perst := true, configured := false } })) ∧
    (b.flt.sealed = false → b.boot.coreUp = true → b.boot.ready = false → (b.beforeReset true).flt.sealed = true →
      exec (.perstN f) s = .next (s.to { b.beforeReset true with host := { perst := true } })) ∧
    (b.flt.sealed = false → b.boot.coreUp = true → b.boot.ready = false → (b.beforeReset true).flt.sealed = false →
      let r := (b.beforeReset true).coreReset
      exec (.perstN f) s = .next (s.to { r with
        boot := { r.boot with interrupted := true }, host := { r.host with perst := true, configured := false } })) ∧
    (let b₁ := { b with host := { b.host with perst := false, configured := b.host.perst || b.host.configured } };
      (b.boot.interrupted = false → exec (.perstNRelease f) s = .next (s.to b₁)) ∧
      (b.boot.interrupted = true → b.boot.pwrOk = true → b.flt.sealed = false → b.boot.jtagHeld = false →
        exec (.perstNRelease f) s = .next (s.to ((b₁.checkRoot f).startCore f false))) ∧
      (b.boot.pwrOk = false ∨ b.flt.sealed = true ∨ b.boot.jtagHeld = true →
        exec (.perstNRelease f) s = .next (s.to { b₁ with boot := { b₁.boot with interrupted := false } }))) ∧
    (b.boot.coreUp = false ∨ b.boot.ready = true ∨ b.boot.recovery = true → exec (.bootWatchdog f) s = .next s) ∧
    (b.boot.coreUp = true → b.boot.ready = false → b.boot.recovery = false →
      let b₁ := b.advanceTo b.boot.releasedAt 2000000000
      (b.boot.trial = .none ∨ b.boot.trial = .pendingCommit → exec (.bootWatchdog f) s = .next (s.to (b₁.fullReset f false))) ∧
      (∀ n, b.boot.trial = .pending n →
        exec (.bootWatchdog f) s = .next (s.to ({ b₁ with boot := { b₁.boot with trial := .pending 0 } }.fullReset f false)))) ∧
    (b.boot.pwrOk = false → exec .pwrOkFall s = .next s) ∧
    (b.boot.pwrOk = true → b.flt.sealed = true → exec .pwrOkFall s = .next (s.to { b with boot := { b.boot with pwrOk := false } })) ∧
    (b.boot.pwrOk = true → b.flt.sealed = false →
      let b' := { b with bat := { b.bat with otpPending := b.bat.otpPending + b.otp.stepDue }, otp := { b.otp with stepDue := 0, tries := 0 } };
      (b.flt.sealing = true → exec .pwrOkFall s = .next (s.to { b'.seal with boot := { b'.seal.boot with pwrOk := false } })) ∧
      (b.flt.sealing = false → exec .pwrOkFall s = .next (s.to { b'.coreReset with
        boot := { b'.coreReset.boot with pwrOk := false }, tam := { b'.coreReset.tam with disarmed := true } }))) ∧
    (b.boot.aonUp = false ∨ b.boot.pwrOk = true → exec (.pwrOkRise f) s = .next s) ∧
    (b.boot.aonUp = true → b.boot.pwrOk = false → b.flt.sealed = true ∨ b.boot.jtagHeld = true →
      exec (.pwrOkRise f) s = .next (s.to { b with boot := { b.boot with pwrOk := true } })) ∧
    (b.boot.aonUp = true → b.boot.pwrOk = false → b.flt.sealed = false → b.boot.jtagHeld = false →
      let b₂ := (b.checkRoot f).writePending f.otpOk
      let b₃ := if b₂.bat.otpPending = 0 then b₂ else b₂.sweepEnd
      let c := b₃.coreReset
      (b₃.flt.sealed = true ∨ b₃.flt.sealing = true → exec (.pwrOkRise f) s = .next (s.to b₃)) ∧
      (b₃.flt.sealed = false → b₃.flt.sealing = false → exec (.pwrOkRise f) s = .next (s.to ({ c with
        now := 0, wrapped := false,
        flt := { c.flt with
          counted := c.flt.counted.map (fun (x : W16 × Byte × W64) => (x.1, x.2.1, x.2.2 - c.now)),
          kept := c.flt.kept.map (fun (x : W16 × Byte × W64) => (x.1, x.2.1, x.2.2 - c.now)) },
        wales := c.wales.map (fun (p : Nat × Wale) => (p.1, { p.2 with csb := 0x01803000, csbShadow := ~~~0x01803000 })) }.startCore f false)))) ∧
    (b.boot.coreUp = false ∨ b.ddr.fitted[c] = 0 ∨ b.ddr.trained[c] = true → exec (.ddr5TrainingEnd c ok) s = .next s) ∧
    (b.boot.coreUp = true → b.ddr.fitted[c] ≠ 0 → b.ddr.trained[c] = false →
      exec (.ddr5TrainingEnd c true) s = .next (s.to { b with ddr := { b.ddr with trained := b.ddr.trained.set c true } }) ∧
      exec (.ddr5TrainingEnd c false) s = .next (s.to (b.note (Src.device 7 c) 0x15 1 (openDetail 0x15)))) ∧
    (b.kst.st ≠ .locked ∨ b.boot.rimUp = false ∨ b.boot.ready = true ∨ (b.otp.lifecycle ≠ .provisioned ∧ b.otp.lifecycle ≠ .deployed) →
      exec (.journalReadEnd epoch ok) s = .next s) ∧
    (b.kst.st = .locked → b.boot.rimUp = true → b.boot.ready = false → b.otp.lifecycle = .provisioned ∨ b.otp.lifecycle = .deployed →
      let empty : Block := { b with
        kst := { b.kst with st := .zeroised, keys := tombstones b.kst.keys, policy := 0x17F, shadow := ~~~0x17F }, bat := { b.bat with zeroised := true } }
      (b.bat.zeroised = true → exec (.journalReadEnd epoch ok) s = .next (s.to { empty with kst := { empty.kst with rootDue := true }, flash := b.flash.eraseJournal }.rootIfDue)) ∧
      (b.bat.zeroised = false → b.bat.rootKey = none → exec (.journalReadEnd epoch ok) s = .next (s.to empty)) ∧
      (b.bat.zeroised = false → b.bat.rootKey ≠ none → ok = false ∨ (b.flash.written = true ∧ epoch.toNat ≠ b.counter 0) →
        exec (.journalReadEnd epoch ok) s = .next (s.to (empty.note (Src.device 2 0) 0x11 2 (openDetail 0x11)))) ∧
      (b.bat.zeroised = false → b.bat.rootKey ≠ none → ok = true → b.flash.written = false ∨ epoch.toNat = b.counter 0 →
        let b' := ((b.slices.map (fun p => Change.slice (Fin.ofNat 1024 p.1))).foldl Block.change b.restoreStore).followEnables
        (b'.kst.policy = b.kst.policy → b'.tam.policy = b.tam.policy → b'.wty.fzPolicy = b.wty.fzPolicy →
          exec (.journalReadEnd epoch ok) s = .next (s.to b')) ∧
        (b'.kst.policy ≠ b.kst.policy ∨ b'.tam.policy ≠ b.tam.policy ∨ b'.wty.fzPolicy ≠ b.wty.fzPolicy →
          exec (.journalReadEnd epoch ok) s = .next (s.to b'.measurePolicies)))) ∧
    (b.boot.rimUp = false ∨ b.boot.ready = true → exec .readyIndication s = .next s) ∧
    (b.boot.rimUp = true → b.boot.ready = false →
      (b.evaluate.startMet = false → exec .readyIndication s = .next (s.to b.evaluate)) ∧
      (b.evaluate.startMet = true → ∃ b' : Block, exec .readyIndication s = .next (s.to b'.refill) ∧ b'.boot.ready = true ∧ b'.pwr.dev = .idle ∧
        ((∃ n, b.evaluate.boot.trial = .pending n) → b'.boot.trial = .pendingCommit))) ∧
    (b.boot.coreUp = false ∨ b.flt.sealed = true → exec (.flr f) s = .next s) ∧
    (b.boot.coreUp = true → b.flt.sealed = false → (∃ x ∈ b.slices, x.2.st = .wedged) → exec (.flr f) s = .next (s.to (reset b))) ∧
    (b.boot.coreUp = true → b.flt.sealed = false → (∀ x ∈ b.slices, x.2.st ≠ .wedged) → ∃ t, exec (.flr f) s = .next t ∧ t.pending = s.pending ∧
      (b.pwr.dev ≠ .standby → t.jobs = [] ∧ t.admin = {} ∧ t.host.flrAt ≠ none ∧ t.host.msixOpen = [] ∧ (∀ k ∈ t.kst.keys, k.2.expire = true → k.2.tombstone = true) ∧ ∀ x ∈ t.slices, x.2.st ≠ .active ∧ x.2.tdi = .unlocked)) ∧
    (b.host.flrAt = none → exec (.flrTimeout f) s = .next s) ∧
    (∀ u, b.host.flrAt = some u →
      ((∃ i < 64, (b.wale i).st = .wiping) ∨ (∃ k < 32, (b.chan k).xfer ≠ none) →
        exec (.flrTimeout f) s = .next (s.to ((b.advanceTo u 90000000).fullReset f true))) ∧
      ((∀ i < 64, (b.wale i).st ≠ .wiping) → (∀ k < 32, (b.chan k).xfer = none) →
        exec (.flrTimeout f) s = .next (s.to { b with host := { b.host with flrAt := none } }))) ∧
    (b.boot.coreUp = false ∨ b.boot.recovery = true ∨ b.flt.sealed = true → exec (.rimRestart ok f) s = .next s) ∧
    (b.boot.coreUp = true → b.boot.recovery = false → b.flt.sealed = false →
      let b₁ := b.rimStops
      let l := b₁.now :: b₁.boot.restarts.filter (fun t => decide (b₁.elapsed t ≤ 600000000000))
      let b₂ : Block := { b₁ with boot := { b₁.boot with restarts := l } }
      (ok = false ∨ 3 ≤ l.length → exec (.rimRestart ok f) s = .next (s.to (b₂.fullReset f true))) ∧
      (ok = true → l.length < 3 → exec (.rimRestart ok f) s = .next (s.to { b₂ with boot := { b₂.boot with rimUp := true } })))) ∧
  (∀ (s : State) (f : BootFacts) (c : Instr) (ir : JtagIr), (c, ir) ∈ [(Instr.extest, JtagIr.extest), (.highz, .highz)] →
    let b := s.toBlock
    let sets (ir : JtagIr) : Host.Outcome State Fault Refusal := .next (s.to { b with boot := { b.boot with jtagIr := ir } })
    exec .bypass s = sets .bypass ∧ exec .samplePreload s = sets .samplePreload ∧
    exec .idcode s = .next (s.to ({ b with boot := { b.boot with jtagIr := .idcode } }.emit
      (.jtag (if b.otp.stepping = 0xB0 then 0xB57405D3 else 0xC57405D3)))) ∧
    ((b.otp.lifecycle ≠ .provisioned ∧ b.otp.lifecycle ≠ .deployed) ∨ b.flt.sealed = true → exec c s = sets ir) ∧
    (b.otp.lifecycle = .provisioned ∨ b.otp.lifecycle = .deployed → b.boot.coreUp = false → b.flt.sealed = false →
      exec c s = .next (s.to { b with boot := { b.boot with jtagIr := ir, jtagHeld := true } })) ∧
    (b.otp.lifecycle = .provisioned ∨ b.otp.lifecycle = .deployed → b.boot.coreUp = true → b.flt.sealed = false → (b.beforeReset true).flt.sealed = true →
      exec c s = .next (s.to { b.beforeReset true with boot := { (b.beforeReset true).boot with jtagIr := ir } })) ∧
    (b.otp.lifecycle = .provisioned ∨ b.otp.lifecycle = .deployed → b.boot.coreUp = true → b.flt.sealed = false → (b.beforeReset true).flt.sealed = false →
      let b' := (b.beforeReset true).coreReset
      exec c s = .next (s.to { b' with boot := { b'.boot with jtagIr := ir, jtagHeld := true } })) ∧
    (let b₁ := { b with boot := { b.boot with jtagIr := .idcode, jtagHeld := false } };
      (b.boot.jtagHeld = false ∨ b.boot.pwrOk = false ∨ b.boot.aonUp = false ∨ b.flt.sealed = true ∨ b.boot.interrupted = true →
        exec (.trstN f) s = .next (s.to b₁)) ∧
      (b.boot.jtagHeld = true → b.boot.pwrOk = true → b.boot.aonUp = true → b.flt.sealed = false → b.boot.interrupted = false →
        exec (.trstN f) s = .next (s.to ((b₁.checkRoot f).startCore f false)))))

/-- What the one-time programmable memory says is never taken back, whatever command runs, whatever resets, power cuts and zeroisations it brings (R129, R286,
R300): the security floor and the count of zeroisations only rise, the count to 255 at most, a fused tamper source stays fused, and the stepping is fixed. -/
def Obligations.OtpNeverRetreats : Prop :=
  ∀ (st : Byte) (n z : Nat) (f : BitVec 16) (s t : State), Kept st n z f s → steps s t → Kept st n z f t

/-- Reset (R144, R161, R171, R173, R243, R271, R310, R381, Tables 4.3, 6.2, 6.5, 7.3, 7.5 to 7.7, 7.12, 10.9, 11.9, 13.6, 15.9, 16.6). First the machine right after
reset: the registers with a stated reset value hold it, nothing is pending or listed, and the OTP is blank (a 573-C0, log 1). Then a reset of the core domain, in any
state: the OTP, the battery domain, the flash's policies, FLT_BOOT, the time base and WAL_CSB, which a full device reset leaves to the next power-up (R104), are kept; jobs, queues, rings, mailboxes, measurement registers, the
event registers, MSI-X and the device counters are lost or back at their reset values; a slice is FREE, QUIESCED or FROZEN; and a wale is gated or FENCED with
its other control registers at their reset values and empty stores. -/
def Obligations.ResetValues : Prop :=
  (let s := State.reset;
    s.pending = [] ∧ s.jobs = [] ∧ s.slices = [] ∧ s.link = [] ∧ Kept 0xC0 0 0 0 s ∧ s.otp.lifecycle = .factory ∧ s.boot.aonUp = false ∧ s.boot.coreUp = false ∧
    s.dsp.cfg = 0x40082501 ∧ (∀ q : Fin 4, s.dsp.warm[q] = 0x00101004) ∧ s.kst.policy = 0x17F ∧ s.rng.cfg = 0xFF01 ∧ s.pwr.cfg = 0x0AB40000 ∧
    s.pwr.ageCfg = 0x00890000 ∧ s.host.evtStatus = 0 ∧ s.host.evtEnable = 0 ∧ s.host.evtVector = 0 ∧ s.flt.gen = 0 ∧ s.flt.boot = 0 ∧ s.flt.log = [] ∧
    s.flt.fence = {} ∧ (∀ w : WaleId, (s.wale w).csb = 0x01803000 ∧ (s.wale w).csbShadow = ~~~0x01803000) ∧ s.admin = {} ∧ s.now = 0 ∧ s.wrapped = false ∧ s.toBlock.availWales = 0xFFFFFFFFFFFFFFFF ∧ s.toBlock.availUnits = 0x0FFFFFFF) ∧
  (∀ b : Block,
    let r := b.coreReset
    r.otp = b.otp ∧ r.bat = b.bat ∧ r.now = b.now ∧ r.wrapped = b.wrapped ∧ r.flt.boot = b.flt.boot ∧ r.flt.sealed = b.flt.sealed ∧
    r.flash.kstPolicy = b.flash.kstPolicy ∧ r.flash.tamPolicy = b.flash.tamPolicy ∧ r.flash.plan = b.flash.plan ∧ r.tam.log = b.tam.log ∧
    r.pwr.cfg = b.flash.pwrCfg ∧ r.pwr.ageCfg = b.flash.ageCfg ∧ r.ddr.objects = b.ddr.objects ∧
    r.jobs = [] ∧ r.admin = {} ∧ r.chans = [] ∧ r.att = {} ∧ r.boot.ready = false ∧ r.boot.rimUp = false ∧ r.boot.catGen = 0 ∧ r.boot.custEntries = [] ∧
    (r.host.evtStatus = 0 ∨ r.host.evtStatus = 0x10) ∧
    (let src := if b.bat.zeroised then b.slices else b.flash.slices;
      r.host.evtStatus = 0x10 ↔ (∃ e ∈ src, e.2.afterReset.st ≠ (b.slice e.1).st) ∨ (∃ e ∈ b.slices, e.2.st ≠ .free ∧ ∀ q ∈ src, q.1 ≠ e.1)) ∧
    r.host.evtEnable = 0 ∧ r.host.evtVector = 0 ∧ r.host.msixOpen = [] ∧ r.host.msixAddr = [] ∧ r.host.doe = {} ∧ r.host.mctp = {} ∧
    r.flt.worst = 0 ∧ r.flt.halted = false ∧ r.flt.cnt = [] ∧ r.flt.gen = 0 ∧ r.flt.merging = [] ∧ r.tam.halted = false ∧
    r.dsp.cfg = 0x40082501 ∧ (∀ q : Fin 4, r.dsp.warm[q] = 0x00101004) ∧ r.dsp.skeins = [] ∧ r.dsp.grants = {} ∧ r.dsp.preempts = {} ∧
    r.kst.policy = 0x17F ∧ (r.kst.st = .locked ∨ r.kst.st = .closed) ∧ (∀ e ∈ r.kst.keys, e.2.tombstone = true) ∧
    r.rng.cfg = 0xFF01 ∧ r.rng.sources = [] ∧ r.rng.seeders = [] ∧ r.pwr.avsLost = false ∧ r.pwr.derated = false ∧
    (∀ e ∈ r.slices, e.2.st ∈ [SliceSt.free, .quiesced, .frozen] ∧ e.2.sq = Vector.replicate 8 {} ∧ e.2.cq = Vector.replicate 8 {} ∧ e.2.err = {} ∧
      e.2.mbx = {} ∧ e.2.ctr = {}) ∧
    (∀ w : WaleId, ((r.wale w).st = .gated ∨ (r.wale w).st = .fenced) ∧ (r.wale w).order = 0 ∧ (r.wale w).timeRed = false ∧ (r.wale w).csb = (b.wale w).csb ∧ (r.wale w).maker = false ∧
      (r.wale w).ustore = [] ∧ (r.wale w).nstore = [] ∧ (r.wale w).opmem = [] ∧ (r.wale w).job = none ∧ (r.wale w).drbgSeeded = false))
end

