-- ==== Sys2Proof/Laws/Jobs.lean ====
section
/-! SUPPORT. What a job's command does, once for all jobs: `Works` follows from the shape of its meaning. -/
namespace Sys2Proof.Machine

/-- Nothing drawn is no byte. -/
@[simp] theorem Block.draw_zero (b : Block) : b.draw 0 = [] := by
  unfold Block.draw Block.anyBytes; split <;> rfl

/-- A command that is `workWith` works its job. -/
theorem works_of_workWith {s : State} {id : Nat} {op : Nat → Bool} {c : Instr} {pre : Block → Job → Option (W16 × W32)} {n : Job → Nat}
    {r : Block → Job → Bytes → Block × RunResult} (h : exec c s = done (s.toBlock.workWith id op pre n r) s) : Works s id op c pre n r := by
  refine ⟨?_, ?_⟩
  · intro hn
    rw [h]
    unfold Block.workWith
    split
    · rfl
    · rename_i j hj
      rw [if_pos]
      · rfl
      · cases hp : decide (j.phase = .running) <;> cases hq : decide (j.passes = 0) <;> cases ho : op j.op <;> cases hc : j.entry.customer <;> simp_all [Runs]
  · intro j hj
    obtain ⟨h1, h2, h0, h3, h4⟩ := hj
    refine ⟨?_, ?_⟩
    · intro e he
      rw [h]
      simp only [Block.workWith, h1, h2, h0, h3, h4, he]
      rfl
    · intro hp
      refine ⟨?_, ?_, ?_⟩
      · intro hn
        rw [h]
        simp only [Block.workWith, h1, h2, h0, h3, h4, hp, hn, Block.draw_zero]
        rfl
      · intro hn hs
        rw [h]
        simp only [Block.workWith, h1, h2, h0, h3, h4, hp, hs]
        simp [hn]
        rfl
      · intro hn hs
        rw [h]
        simp only [Block.workWith, h1, h2, h0, h3, h4, hp, hs]
        simp [hn]
        rfl

/-- A command that is `work` works its job and changes nothing else. -/
theorem worksPure_of_work {s : State} {id : Nat} {op : Nat → Bool} {c : Instr} {pre : Block → Job → Option (W16 × W32)} {n : Job → Nat}
    {r : Block → Job → Bytes → RunResult} (h : exec c s = done (s.toBlock.work id op pre n r) s) : WorksPure s id op c pre n r :=
  works_of_workWith h

end Sys2Proof.Machine
end

