-- ==== Sys2Proof/Laws/Mail.lean ====
section
/-! SUPPORT. What a mailbox command does, once for all of them: `Goes` follows from the shape of its meaning. -/
namespace Sys2Proof.Machine

/-- A command that is `taken` goes: what its continuation gives holds on the block that has asked for the payload. -/
theorem goes_of_taken {s : State} {b : Block} {i : Instr} {c : Cmd} {r : Req} {f : Block → Block} {go : Block → Prop}
    (hn : s.toBlock.takesGo r.box = false → exec i s = .next s)
    (hy : s.toBlock.takesGo r.box = true → b.takesGo r.box = true ∧ exec i s = done (b.taken c r f) s)
    (hg : ∀ x, exec i s = done (f x) s → go x) : Goes s b i c r go := by
  refine ⟨hn, fun h => ?_⟩
  obtain ⟨hb, he⟩ := hy h
  simp only [Block.taken, hb, Bool.not_true, Bool.false_eq_true, if_false] at he
  unfold Block.asked
  split
  · rename_i hk
    rw [if_pos hk] at he
    refine ⟨fun h0 => hg _ ?_, fun h0 => ?_⟩
    · rw [he, if_pos h0]
    · rw [he, if_neg h0]; rfl
  · rename_i hk
    rw [if_neg hk] at he
    exact ⟨fun _ => hg _ he, fun h0 => absurd rfl h0⟩

/-- A served command is refused or answered. -/
theorem checked_of_answer {s : State} {b : Block} {i : Instr} {c : Cmd} {r : Req} {own : Option (W16 × W32)} {x : Block × Reply}
    (h : exec i s = done (match b.refuses c r own with | some (st, d) => b.reply r c.code (.fail st d) | none => b.answer c r x) s) :
    Checked s b i c r own (Answers s b i c r x) := by
  refine ⟨fun e he => by rw [h, he]; rfl, fun hr => ?_⟩
  rw [hr] at h
  refine ⟨fun hs => ?_, fun hs hl => ?_, fun hs hl => ?_⟩
  · rw [h]; simp only [Block.answer, ne_eq, hs, not_false_eq_true]; rfl
  · rw [h]; simp only [Block.answer, hs, hl]; rfl
  · have : ¬ replyRoom r < x.2.out.length := by omega
    rw [h]; simp only [Block.answer, hs, this]; rfl

/-- What a `taken` does where no GO is taken. -/
theorem taken_idle {s : State} {c : Cmd} {r : Req} {f : Block → Block} (h : s.toBlock.takesGo r.box = false) :
    done (s.toBlock.taken c r f) s = .next s := by
  simp only [Block.taken, h]; rfl

/-- A command that is `commandIn` submits its frame. -/
theorem submitsIn_of_commandIn {s : State} {i : Instr} {c : Cmd} {r : Req} {own : Block → Option (W16 × W32)} {body : Block → Block × Reply}
    (h : exec i s = done (s.toBlock.commandIn c r own body) s) : SubmitsIn s i c r own body :=
  goes_of_taken (fun hn => by rw [h]; exact taken_idle hn) (fun hy => ⟨hy, h⟩) (fun _ hx => checked_of_answer hx)

/-- A command that is `command` submits its frame. -/
theorem submits_of_command {s : State} {i : Instr} {c : Cmd} {r : Req} {body : Block → Block × Reply}
    (h : exec i s = done (s.toBlock.command c r body) s) : Submits s i c r body := submitsIn_of_commandIn h

/-- A command that is `commandWait` submits its frame. -/
theorem submits_of_commandWait {s : State} {i : Instr} {c : Cmd} {r : Req} {body : Block → Block ⊕ (Block × Reply)}
    (h : exec i s = done (s.toBlock.commandWait c r (fun _ => none) body) s) : SubmitsWait s i c r body := by
  refine goes_of_taken (fun hn => by rw [h]; exact taken_idle hn) (fun hy => ⟨hy, h⟩) (fun x hx => ?_)
  cases hb : body x with
  | inl y => refine ⟨fun e he => by rw [hx, he]; rfl, fun hr => by rw [hx, hr, hb]; rfl⟩
  | inr y => rw [hb] at hx; exact checked_of_answer hx

/-- A command that is `lcCmd` submits its frame and spends the nonce. -/
theorem submits_of_lcCmd {s : State} {i : Instr} {c : Cmd} {r : Req} {body : Block → Option Bytes → Block × Reply}
    (h : exec i s = done (s.toBlock.lcCmd c r body) s) : SubmitsLc s i c r body := by
  refine ⟨fun hb => ?_, fun hb => submits_of_command (h.trans ?_)⟩
  · refine goes_of_taken (fun hn => ?_) (fun hy => ⟨hy, ?_⟩) (fun _ hx => checked_of_answer (x := body _ s.toBlock.att.nonce) hx)
    · rw [h]; simp only [Block.lcCmd, hn, Bool.not_false, Bool.or_true, if_true]; unfold Block.command Block.commandIn; exact taken_idle hn
    · rw [h]; rw [hb] at hy; simp only [Block.lcCmd, hy, hb]; rfl
  · have : r.box.isSome = true := by cases hr : r.box <;> simp_all
    simp only [Block.lcCmd, this, Bool.true_or, if_true]

end Sys2Proof.Machine
end

