-- ==== Sys2Proof/Laws/State.lean ====
section
/-! SUPPORT. One lemma for each field and each update of the state, true by definition, so that no proof unfolds a record update; and how the
sparse tables and the byte memories answer after an update. -/
namespace Sys2Proof.Machine

/-! ### Sparse tables -/

/-- What a table holds after an entry was put. -/
@[simp] theorem Tab.get_put {α : Type} (d : α) (t : Tab α) (i j : Nat) (x : α) :
    Tab.get d (Tab.put t i x) j = if i = j then x else Tab.get d t j := by
  induction t with
  | nil => rfl
  | cons p r ih =>
    obtain ⟨k, v⟩ := p
    simp only [Tab.put]
    split
    · subst k; simp only [Tab.get]; split <;> rfl
    · split
      · rfl
      · simp only [Tab.get, ih]
        split
        · subst k; rw [if_neg (by omega)]
        · rfl

/-- What a table holds after an entry was removed. -/
@[simp] theorem Tab.get_drop {α : Type} (d : α) (t : Tab α) (i j : Nat) :
    Tab.get d (Tab.drop t i) j = if i = j then d else Tab.get d t j := by
  induction t with
  | nil => simp [Tab.drop, Tab.get]
  | cons p r ih =>
    obtain ⟨k, v⟩ := p
    simp only [Tab.drop, List.filter_cons, bne_iff_ne, ne_eq] at ih ⊢
    split
    · simp only [Tab.get, ih]; split
      · subst k; rw [if_neg (by omega)]
      · rfl
    · rename_i h
      simp only [Decidable.not_not] at h; subst h
      rw [ih]; simp only [Tab.get]; split <;> rfl

/-! ### Byte memories -/

/-- A byte that was written is read; every other byte is unchanged (in a memory of canonical form). -/
theorem Mem.read_write_from (m : Mem) (n a b : Nat) (v : Byte) (h : Mem.wfFrom n m = true) :
    Mem.read (Mem.write m a v) b = if a = b then v else Mem.read m b := by
  have low (m : Mem) : ∀ n a, Mem.wfFrom n m = true → a < n → Tab.get (0 : Byte) m a = 0 := by
    induction m with
    | nil => intros; rfl
    | cons p r ih =>
      intro n a h ha
      obtain ⟨k, x⟩ := p
      simp only [Mem.wfFrom, Bool.and_eq_true, decide_eq_true_eq] at h
      simp only [Tab.get]
      rw [if_neg (by omega)]
      exact ih (k + 1) a h.2 (by omega)
  unfold Mem.read
  induction m generalizing n with
  | nil =>
    simp only [Mem.write]
    split
    · split <;> simp_all [Tab.get]
    · simp [Tab.get]
  | cons p r ih =>
    obtain ⟨k, x⟩ := p
    simp only [Mem.wfFrom, Bool.and_eq_true, decide_eq_true_eq] at h
    simp only [Mem.write]
    split
    · subst k
      split
      · split
        · subst b; have := low r (a + 1) a h.2 (by omega); simp_all
        · simp [Tab.get, *]
      · simp only [Tab.get]; split <;> rfl
    · split
      · split
        · simp only [Tab.get]
          split
          · subst k; rw [if_neg (by omega)]
          · split
            · subst b; have := low r (k + 1) a h.2 (by omega); simp_all
            · rfl
        · simp only [Tab.get]
      · simp only [Tab.get, ih (k + 1) h.2]
        split
        · subst k; rw [if_neg (by omega)]
        · rfl

/-- Every write keeps the canonical form, from any bound below it. -/
theorem Mem.wfFrom_write (m : Mem) (n a : Nat) (v : Byte) (h : Mem.wfFrom n m = true) (ha : n ≤ a) : Mem.wfFrom n (Mem.write m a v) = true := by
  have mono (m : Mem) : ∀ i j, i ≤ j → Mem.wfFrom j m = true → Mem.wfFrom i m = true := by
    intro i j hij h
    cases m with
    | nil => rfl
    | cons p r =>
      obtain ⟨k, x⟩ := p
      simp only [Mem.wfFrom, Bool.and_eq_true, decide_eq_true_eq] at h ⊢
      exact ⟨⟨by omega, h.1.2⟩, h.2⟩
  induction m generalizing n with
  | nil => simp only [Mem.write]; split <;> simp_all [Mem.wfFrom]
  | cons p r ih =>
    obtain ⟨k, x⟩ := p
    simp only [Mem.wfFrom, Bool.and_eq_true, decide_eq_true_eq] at h
    simp only [Mem.write]
    split
    · subst k
      split
      · exact mono r n (a + 1) (by omega) h.2
      · simp_all [Mem.wfFrom]
    · split
      · split
        · simp_all [Mem.wfFrom]
        · simp only [Mem.wfFrom, Bool.and_eq_true, decide_eq_true_eq]
          exact ⟨⟨ha, by assumption⟩, ⟨⟨by omega, h.1.2⟩, h.2⟩⟩
      · simp only [Mem.wfFrom, Bool.and_eq_true, decide_eq_true_eq]
        exact ⟨h.1, ih (k + 1) h.2 (by omega)⟩

/-- A write keeps the canonical form. -/
@[simp] theorem Mem.wf_write (m : Mem) (a : Nat) (v : Byte) (h : m.wf = true) : (m.write a v).wf = true := Mem.wfFrom_write m 0 a v h (Nat.zero_le a)
/-- Writing a string keeps the canonical form. -/
@[simp] theorem Mem.wf_writeAll (m : Mem) (a : Nat) (d : Bytes) (h : m.wf = true) : (m.writeAll a d).wf = true := by
  induction d generalizing m a with
  | nil => exact h
  | cons v r ih => exact ih (m.write a v) (a + 1) (Mem.wf_write m a v h)
/-- A wipe keeps the canonical form. -/
@[simp] theorem Mem.wf_clear (m : Mem) (lo hi : Nat) (h : m.wf = true) : (m.clear lo hi).wf = true := by
  have go (m : Mem) : ∀ n, Mem.wfFrom n m = true → Mem.wfFrom n (m.clear lo hi) = true := by
    induction m with
    | nil => intro n _; rfl
    | cons p r ih =>
      intro n h
      obtain ⟨k, x⟩ := p
      simp only [Mem.wfFrom, Bool.and_eq_true, decide_eq_true_eq] at h
      unfold Mem.clear at ih ⊢
      rw [List.filter_cons]
      split
      · simp only [Mem.wfFrom, Bool.and_eq_true, decide_eq_true_eq]; exact ⟨h.1, ih (k + 1) h.2⟩
      · have lower : ∀ (m : Mem) i j, i ≤ j → Mem.wfFrom j m = true → Mem.wfFrom i m = true := by
          intro m i j hij h
          cases m with
          | nil => rfl
          | cons p r =>
            obtain ⟨k, x⟩ := p
            simp only [Mem.wfFrom, Bool.and_eq_true, decide_eq_true_eq] at h ⊢
            exact ⟨⟨by omega, h.1.2⟩, h.2⟩
        exact lower _ n (k + 1) (by omega) (ih (k + 1) h.2)
  exact go m 0 h
/-- Reading after a write. -/
theorem Mem.read_write (m : Mem) (a b : Nat) (v : Byte) (h : m.wf = true) :
    (m.write a v).read b = if a = b then v else m.read b := Mem.read_write_from m 0 a b v h
/-- The canonical form of the memories of a machine after reset. -/
theorem Mem.wf_reset : (State.reset.toBlock.wale 0).opmem.wf = true ∧ State.reset.admin.window.wf = true := ⟨rfl, rfl⟩

/-! ### Reading back what an update wrote -/

@[simp] theorem Block.wale_modWale (b : Block) (i j : Nat) (f : Wale → Wale) : (b.modWale i f).wale j = if i = j then f (b.wale i) else b.wale j := by
  simp [Block.modWale, Block.wale]
@[simp] theorem Block.quad_modQuad (b : Block) (i j : Nat) (f : Quad → Quad) : (b.modQuad i f).quad j = if i = j then f (b.quad i) else b.quad j := by
  simp [Block.modQuad, Block.quad]
@[simp] theorem Block.chan_modChan (b : Block) (i j : Nat) (f : Chan → Chan) : (b.modChan i f).chan j = if i = j then f (b.chan i) else b.chan j := by
  simp [Block.modChan, Block.chan]
@[simp] theorem Block.slice_modSlice (b : Block) (i j : Nat) (f : Slice → Slice) :
    (b.modSlice i f).slice j = if i = j then f (b.slice i) else b.slice j := by
  simp [Block.modSlice, Block.slice]
@[simp] theorem Block.source_modSource (b : Block) (i j : Nat) (f : Source1 → Source1) :
    (b.modSource i f).source j = if i = j then f (b.source i) else b.source j := by
  simp [Block.modSource, Block.source]
@[simp] theorem Block.seeder_modSeeder (b : Block) (i j : Nat) (f : Seeder → Seeder) :
    (b.modSeeder i f).seeder j = if i = j then f (b.seeder i) else b.seeder j := by
  simp [Block.modSeeder, Block.seeder]
/-- A job changed without its reference is found under it. -/
@[simp] theorem Block.job_modJob (b : Block) (i : Nat) (f : Job → Job) (h : ∀ j, (f j).id = j.id) : (b.modJob i f).job i = (b.job i).map f := by
  unfold Block.modJob Block.job
  simp only [List.find?_map]
  have k : ((fun (j : Job) => j.id == i) ∘ (fun j => if j.id = i then f j else j)) = fun j => j.id == i := by
    funext j; simp only [Function.comp]; split <;> simp [h]
  rw [k]
  cases e : b.jobs.find? (fun j => j.id == i) with
  | none => rfl
  | some j =>
    have := List.find?_some e
    simp only [beq_iff_eq] at this
    simp [this]

/-! ### Fields an update leaves -/

@[simp] theorem Block.modWale_now (b : Block) (i : Nat) (f : Wale → Wale) : (b.modWale i f).now = b.now := rfl
@[simp] theorem Block.modWale_nowHi (b : Block) (i : Nat) (f : Wale → Wale) : (b.modWale i f).nowHi = b.nowHi := rfl
@[simp] theorem Block.modWale_wrapped (b : Block) (i : Nat) (f : Wale → Wale) : (b.modWale i f).wrapped = b.wrapped := rfl
@[simp] theorem Block.modWale_timeFabric (b : Block) (i : Nat) (f : Wale → Wale) : (b.modWale i f).timeFabric = b.timeFabric := rfl
@[simp] theorem Block.modWale_timeLocked (b : Block) (i : Nat) (f : Wale → Wale) : (b.modWale i f).timeLocked = b.timeLocked := rfl
@[simp] theorem Block.modWale_holdover (b : Block) (i : Nat) (f : Wale → Wale) : (b.modWale i f).holdover = b.holdover := rfl
@[simp] theorem Block.modWale_bat (b : Block) (i : Nat) (f : Wale → Wale) : (b.modWale i f).bat = b.bat := rfl
@[simp] theorem Block.modWale_otp (b : Block) (i : Nat) (f : Wale → Wale) : (b.modWale i f).otp = b.otp := rfl
@[simp] theorem Block.modWale_tam (b : Block) (i : Nat) (f : Wale → Wale) : (b.modWale i f).tam = b.tam := rfl
@[simp] theorem Block.modWale_flt (b : Block) (i : Nat) (f : Wale → Wale) : (b.modWale i f).flt = b.flt := rfl
@[simp] theorem Block.modWale_rng (b : Block) (i : Nat) (f : Wale → Wale) : (b.modWale i f).rng = b.rng := rfl
@[simp] theorem Block.modWale_kst (b : Block) (i : Nat) (f : Wale → Wale) : (b.modWale i f).kst = b.kst := rfl
@[simp] theorem Block.modWale_slices (b : Block) (i : Nat) (f : Wale → Wale) : (b.modWale i f).slices = b.slices := rfl
@[simp] theorem Block.modWale_jobs (b : Block) (i : Nat) (f : Wale → Wale) : (b.modWale i f).jobs = b.jobs := rfl
@[simp] theorem Block.modWale_dsp (b : Block) (i : Nat) (f : Wale → Wale) : (b.modWale i f).dsp = b.dsp := rfl
@[simp] theorem Block.modWale_quads (b : Block) (i : Nat) (f : Wale → Wale) : (b.modWale i f).quads = b.quads := rfl
@[simp] theorem Block.modWale_chans (b : Block) (i : Nat) (f : Wale → Wale) : (b.modWale i f).chans = b.chans := rfl
@[simp] theorem Block.modWale_ddr (b : Block) (i : Nat) (f : Wale → Wale) : (b.modWale i f).ddr = b.ddr := rfl
@[simp] theorem Block.modWale_host (b : Block) (i : Nat) (f : Wale → Wale) : (b.modWale i f).host = b.host := rfl
@[simp] theorem Block.modWale_admin (b : Block) (i : Nat) (f : Wale → Wale) : (b.modWale i f).admin = b.admin := rfl
@[simp] theorem Block.modWale_att (b : Block) (i : Nat) (f : Wale → Wale) : (b.modWale i f).att = b.att := rfl
@[simp] theorem Block.modWale_boot (b : Block) (i : Nat) (f : Wale → Wale) : (b.modWale i f).boot = b.boot := rfl
@[simp] theorem Block.modWale_flash (b : Block) (i : Nat) (f : Wale → Wale) : (b.modWale i f).flash = b.flash := rfl
@[simp] theorem Block.modWale_pwr (b : Block) (i : Nat) (f : Wale → Wale) : (b.modWale i f).pwr = b.pwr := rfl
@[simp] theorem Block.modWale_wty (b : Block) (i : Nat) (f : Wale → Wale) : (b.modWale i f).wty = b.wty := rfl
@[simp] theorem Block.modWale_link (b : Block) (i : Nat) (f : Wale → Wale) : (b.modWale i f).link = b.link := rfl
@[simp] theorem Block.modQuad_now (b : Block) (i : Nat) (f : Quad → Quad) : (b.modQuad i f).now = b.now := rfl
@[simp] theorem Block.modQuad_nowHi (b : Block) (i : Nat) (f : Quad → Quad) : (b.modQuad i f).nowHi = b.nowHi := rfl
@[simp] theorem Block.modQuad_wrapped (b : Block) (i : Nat) (f : Quad → Quad) : (b.modQuad i f).wrapped = b.wrapped := rfl
@[simp] theorem Block.modQuad_timeFabric (b : Block) (i : Nat) (f : Quad → Quad) : (b.modQuad i f).timeFabric = b.timeFabric := rfl
@[simp] theorem Block.modQuad_timeLocked (b : Block) (i : Nat) (f : Quad → Quad) : (b.modQuad i f).timeLocked = b.timeLocked := rfl
@[simp] theorem Block.modQuad_holdover (b : Block) (i : Nat) (f : Quad → Quad) : (b.modQuad i f).holdover = b.holdover := rfl
@[simp] theorem Block.modQuad_bat (b : Block) (i : Nat) (f : Quad → Quad) : (b.modQuad i f).bat = b.bat := rfl
@[simp] theorem Block.modQuad_otp (b : Block) (i : Nat) (f : Quad → Quad) : (b.modQuad i f).otp = b.otp := rfl
@[simp] theorem Block.modQuad_tam (b : Block) (i : Nat) (f : Quad → Quad) : (b.modQuad i f).tam = b.tam := rfl
@[simp] theorem Block.modQuad_flt (b : Block) (i : Nat) (f : Quad → Quad) : (b.modQuad i f).flt = b.flt := rfl
@[simp] theorem Block.modQuad_rng (b : Block) (i : Nat) (f : Quad → Quad) : (b.modQuad i f).rng = b.rng := rfl
@[simp] theorem Block.modQuad_kst (b : Block) (i : Nat) (f : Quad → Quad) : (b.modQuad i f).kst = b.kst := rfl
@[simp] theorem Block.modQuad_slices (b : Block) (i : Nat) (f : Quad → Quad) : (b.modQuad i f).slices = b.slices := rfl
@[simp] theorem Block.modQuad_jobs (b : Block) (i : Nat) (f : Quad → Quad) : (b.modQuad i f).jobs = b.jobs := rfl
@[simp] theorem Block.modQuad_dsp (b : Block) (i : Nat) (f : Quad → Quad) : (b.modQuad i f).dsp = b.dsp := rfl
@[simp] theorem Block.modQuad_wales (b : Block) (i : Nat) (f : Quad → Quad) : (b.modQuad i f).wales = b.wales := rfl
@[simp] theorem Block.modQuad_chans (b : Block) (i : Nat) (f : Quad → Quad) : (b.modQuad i f).chans = b.chans := rfl
@[simp] theorem Block.modQuad_ddr (b : Block) (i : Nat) (f : Quad → Quad) : (b.modQuad i f).ddr = b.ddr := rfl
@[simp] theorem Block.modQuad_host (b : Block) (i : Nat) (f : Quad → Quad) : (b.modQuad i f).host = b.host := rfl
@[simp] theorem Block.modQuad_admin (b : Block) (i : Nat) (f : Quad → Quad) : (b.modQuad i f).admin = b.admin := rfl
@[simp] theorem Block.modQuad_att (b : Block) (i : Nat) (f : Quad → Quad) : (b.modQuad i f).att = b.att := rfl
@[simp] theorem Block.modQuad_boot (b : Block) (i : Nat) (f : Quad → Quad) : (b.modQuad i f).boot = b.boot := rfl
@[simp] theorem Block.modQuad_flash (b : Block) (i : Nat) (f : Quad → Quad) : (b.modQuad i f).flash = b.flash := rfl
@[simp] theorem Block.modQuad_pwr (b : Block) (i : Nat) (f : Quad → Quad) : (b.modQuad i f).pwr = b.pwr := rfl
@[simp] theorem Block.modQuad_wty (b : Block) (i : Nat) (f : Quad → Quad) : (b.modQuad i f).wty = b.wty := rfl
@[simp] theorem Block.modQuad_link (b : Block) (i : Nat) (f : Quad → Quad) : (b.modQuad i f).link = b.link := rfl
@[simp] theorem Block.modChan_now (b : Block) (i : Nat) (f : Chan → Chan) : (b.modChan i f).now = b.now := rfl
@[simp] theorem Block.modChan_nowHi (b : Block) (i : Nat) (f : Chan → Chan) : (b.modChan i f).nowHi = b.nowHi := rfl
@[simp] theorem Block.modChan_wrapped (b : Block) (i : Nat) (f : Chan → Chan) : (b.modChan i f).wrapped = b.wrapped := rfl
@[simp] theorem Block.modChan_timeFabric (b : Block) (i : Nat) (f : Chan → Chan) : (b.modChan i f).timeFabric = b.timeFabric := rfl
@[simp] theorem Block.modChan_timeLocked (b : Block) (i : Nat) (f : Chan → Chan) : (b.modChan i f).timeLocked = b.timeLocked := rfl
@[simp] theorem Block.modChan_holdover (b : Block) (i : Nat) (f : Chan → Chan) : (b.modChan i f).holdover = b.holdover := rfl
@[simp] theorem Block.modChan_bat (b : Block) (i : Nat) (f : Chan → Chan) : (b.modChan i f).bat = b.bat := rfl
@[simp] theorem Block.modChan_otp (b : Block) (i : Nat) (f : Chan → Chan) : (b.modChan i f).otp = b.otp := rfl
@[simp] theorem Block.modChan_tam (b : Block) (i : Nat) (f : Chan → Chan) : (b.modChan i f).tam = b.tam := rfl
@[simp] theorem Block.modChan_flt (b : Block) (i : Nat) (f : Chan → Chan) : (b.modChan i f).flt = b.flt := rfl
@[simp] theorem Block.modChan_rng (b : Block) (i : Nat) (f : Chan → Chan) : (b.modChan i f).rng = b.rng := rfl
@[simp] theorem Block.modChan_kst (b : Block) (i : Nat) (f : Chan → Chan) : (b.modChan i f).kst = b.kst := rfl
@[simp] theorem Block.modChan_slices (b : Block) (i : Nat) (f : Chan → Chan) : (b.modChan i f).slices = b.slices := rfl
@[simp] theorem Block.modChan_jobs (b : Block) (i : Nat) (f : Chan → Chan) : (b.modChan i f).jobs = b.jobs := rfl
@[simp] theorem Block.modChan_dsp (b : Block) (i : Nat) (f : Chan → Chan) : (b.modChan i f).dsp = b.dsp := rfl
@[simp] theorem Block.modChan_wales (b : Block) (i : Nat) (f : Chan → Chan) : (b.modChan i f).wales = b.wales := rfl
@[simp] theorem Block.modChan_quads (b : Block) (i : Nat) (f : Chan → Chan) : (b.modChan i f).quads = b.quads := rfl
@[simp] theorem Block.modChan_ddr (b : Block) (i : Nat) (f : Chan → Chan) : (b.modChan i f).ddr = b.ddr := rfl
@[simp] theorem Block.modChan_host (b : Block) (i : Nat) (f : Chan → Chan) : (b.modChan i f).host = b.host := rfl
@[simp] theorem Block.modChan_admin (b : Block) (i : Nat) (f : Chan → Chan) : (b.modChan i f).admin = b.admin := rfl
@[simp] theorem Block.modChan_att (b : Block) (i : Nat) (f : Chan → Chan) : (b.modChan i f).att = b.att := rfl
@[simp] theorem Block.modChan_boot (b : Block) (i : Nat) (f : Chan → Chan) : (b.modChan i f).boot = b.boot := rfl
@[simp] theorem Block.modChan_flash (b : Block) (i : Nat) (f : Chan → Chan) : (b.modChan i f).flash = b.flash := rfl
@[simp] theorem Block.modChan_pwr (b : Block) (i : Nat) (f : Chan → Chan) : (b.modChan i f).pwr = b.pwr := rfl
@[simp] theorem Block.modChan_wty (b : Block) (i : Nat) (f : Chan → Chan) : (b.modChan i f).wty = b.wty := rfl
@[simp] theorem Block.modChan_link (b : Block) (i : Nat) (f : Chan → Chan) : (b.modChan i f).link = b.link := rfl
@[simp] theorem Block.modSlice_now (b : Block) (i : Nat) (f : Slice → Slice) : (b.modSlice i f).now = b.now := rfl
@[simp] theorem Block.modSlice_nowHi (b : Block) (i : Nat) (f : Slice → Slice) : (b.modSlice i f).nowHi = b.nowHi := rfl
@[simp] theorem Block.modSlice_wrapped (b : Block) (i : Nat) (f : Slice → Slice) : (b.modSlice i f).wrapped = b.wrapped := rfl
@[simp] theorem Block.modSlice_timeFabric (b : Block) (i : Nat) (f : Slice → Slice) : (b.modSlice i f).timeFabric = b.timeFabric := rfl
@[simp] theorem Block.modSlice_timeLocked (b : Block) (i : Nat) (f : Slice → Slice) : (b.modSlice i f).timeLocked = b.timeLocked := rfl
@[simp] theorem Block.modSlice_holdover (b : Block) (i : Nat) (f : Slice → Slice) : (b.modSlice i f).holdover = b.holdover := rfl
@[simp] theorem Block.modSlice_bat (b : Block) (i : Nat) (f : Slice → Slice) : (b.modSlice i f).bat = b.bat := rfl
@[simp] theorem Block.modSlice_otp (b : Block) (i : Nat) (f : Slice → Slice) : (b.modSlice i f).otp = b.otp := rfl
@[simp] theorem Block.modSlice_tam (b : Block) (i : Nat) (f : Slice → Slice) : (b.modSlice i f).tam = b.tam := rfl
@[simp] theorem Block.modSlice_flt (b : Block) (i : Nat) (f : Slice → Slice) : (b.modSlice i f).flt = b.flt := rfl
@[simp] theorem Block.modSlice_rng (b : Block) (i : Nat) (f : Slice → Slice) : (b.modSlice i f).rng = b.rng := rfl
@[simp] theorem Block.modSlice_kst (b : Block) (i : Nat) (f : Slice → Slice) : (b.modSlice i f).kst = b.kst := rfl
@[simp] theorem Block.modSlice_jobs (b : Block) (i : Nat) (f : Slice → Slice) : (b.modSlice i f).jobs = b.jobs := rfl
@[simp] theorem Block.modSlice_dsp (b : Block) (i : Nat) (f : Slice → Slice) : (b.modSlice i f).dsp = b.dsp := rfl
@[simp] theorem Block.modSlice_wales (b : Block) (i : Nat) (f : Slice → Slice) : (b.modSlice i f).wales = b.wales := rfl
@[simp] theorem Block.modSlice_quads (b : Block) (i : Nat) (f : Slice → Slice) : (b.modSlice i f).quads = b.quads := rfl
@[simp] theorem Block.modSlice_chans (b : Block) (i : Nat) (f : Slice → Slice) : (b.modSlice i f).chans = b.chans := rfl
@[simp] theorem Block.modSlice_ddr (b : Block) (i : Nat) (f : Slice → Slice) : (b.modSlice i f).ddr = b.ddr := rfl
@[simp] theorem Block.modSlice_host (b : Block) (i : Nat) (f : Slice → Slice) : (b.modSlice i f).host = b.host := rfl
@[simp] theorem Block.modSlice_admin (b : Block) (i : Nat) (f : Slice → Slice) : (b.modSlice i f).admin = b.admin := rfl
@[simp] theorem Block.modSlice_att (b : Block) (i : Nat) (f : Slice → Slice) : (b.modSlice i f).att = b.att := rfl
@[simp] theorem Block.modSlice_boot (b : Block) (i : Nat) (f : Slice → Slice) : (b.modSlice i f).boot = b.boot := rfl
@[simp] theorem Block.modSlice_flash (b : Block) (i : Nat) (f : Slice → Slice) : (b.modSlice i f).flash = b.flash := rfl
@[simp] theorem Block.modSlice_pwr (b : Block) (i : Nat) (f : Slice → Slice) : (b.modSlice i f).pwr = b.pwr := rfl
@[simp] theorem Block.modSlice_wty (b : Block) (i : Nat) (f : Slice → Slice) : (b.modSlice i f).wty = b.wty := rfl
@[simp] theorem Block.modSlice_link (b : Block) (i : Nat) (f : Slice → Slice) : (b.modSlice i f).link = b.link := rfl
@[simp] theorem Block.modSource_now (b : Block) (i : Nat) (f : Source1 → Source1) : (b.modSource i f).now = b.now := rfl
@[simp] theorem Block.modSource_nowHi (b : Block) (i : Nat) (f : Source1 → Source1) : (b.modSource i f).nowHi = b.nowHi := rfl
@[simp] theorem Block.modSource_wrapped (b : Block) (i : Nat) (f : Source1 → Source1) : (b.modSource i f).wrapped = b.wrapped := rfl
@[simp] theorem Block.modSource_timeFabric (b : Block) (i : Nat) (f : Source1 → Source1) : (b.modSource i f).timeFabric = b.timeFabric := rfl
@[simp] theorem Block.modSource_timeLocked (b : Block) (i : Nat) (f : Source1 → Source1) : (b.modSource i f).timeLocked = b.timeLocked := rfl
@[simp] theorem Block.modSource_holdover (b : Block) (i : Nat) (f : Source1 → Source1) : (b.modSource i f).holdover = b.holdover := rfl
@[simp] theorem Block.modSource_bat (b : Block) (i : Nat) (f : Source1 → Source1) : (b.modSource i f).bat = b.bat := rfl
@[simp] theorem Block.modSource_otp (b : Block) (i : Nat) (f : Source1 → Source1) : (b.modSource i f).otp = b.otp := rfl
@[simp] theorem Block.modSource_tam (b : Block) (i : Nat) (f : Source1 → Source1) : (b.modSource i f).tam = b.tam := rfl
@[simp] theorem Block.modSource_flt (b : Block) (i : Nat) (f : Source1 → Source1) : (b.modSource i f).flt = b.flt := rfl
@[simp] theorem Block.modSource_kst (b : Block) (i : Nat) (f : Source1 → Source1) : (b.modSource i f).kst = b.kst := rfl
@[simp] theorem Block.modSource_slices (b : Block) (i : Nat) (f : Source1 → Source1) : (b.modSource i f).slices = b.slices := rfl
@[simp] theorem Block.modSource_jobs (b : Block) (i : Nat) (f : Source1 → Source1) : (b.modSource i f).jobs = b.jobs := rfl
@[simp] theorem Block.modSource_dsp (b : Block) (i : Nat) (f : Source1 → Source1) : (b.modSource i f).dsp = b.dsp := rfl
@[simp] theorem Block.modSource_wales (b : Block) (i : Nat) (f : Source1 → Source1) : (b.modSource i f).wales = b.wales := rfl
@[simp] theorem Block.modSource_quads (b : Block) (i : Nat) (f : Source1 → Source1) : (b.modSource i f).quads = b.quads := rfl
@[simp] theorem Block.modSource_chans (b : Block) (i : Nat) (f : Source1 → Source1) : (b.modSource i f).chans = b.chans := rfl
@[simp] theorem Block.modSource_ddr (b : Block) (i : Nat) (f : Source1 → Source1) : (b.modSource i f).ddr = b.ddr := rfl
@[simp] theorem Block.modSource_host (b : Block) (i : Nat) (f : Source1 → Source1) : (b.modSource i f).host = b.host := rfl
@[simp] theorem Block.modSource_admin (b : Block) (i : Nat) (f : Source1 → Source1) : (b.modSource i f).admin = b.admin := rfl
@[simp] theorem Block.modSource_att (b : Block) (i : Nat) (f : Source1 → Source1) : (b.modSource i f).att = b.att := rfl
@[simp] theorem Block.modSource_boot (b : Block) (i : Nat) (f : Source1 → Source1) : (b.modSource i f).boot = b.boot := rfl
@[simp] theorem Block.modSource_flash (b : Block) (i : Nat) (f : Source1 → Source1) : (b.modSource i f).flash = b.flash := rfl
@[simp] theorem Block.modSource_pwr (b : Block) (i : Nat) (f : Source1 → Source1) : (b.modSource i f).pwr = b.pwr := rfl
@[simp] theorem Block.modSource_wty (b : Block) (i : Nat) (f : Source1 → Source1) : (b.modSource i f).wty = b.wty := rfl
@[simp] theorem Block.modSource_link (b : Block) (i : Nat) (f : Source1 → Source1) : (b.modSource i f).link = b.link := rfl
@[simp] theorem Block.modSeeder_now (b : Block) (i : Nat) (f : Seeder → Seeder) : (b.modSeeder i f).now = b.now := rfl
@[simp] theorem Block.modSeeder_nowHi (b : Block) (i : Nat) (f : Seeder → Seeder) : (b.modSeeder i f).nowHi = b.nowHi := rfl
@[simp] theorem Block.modSeeder_wrapped (b : Block) (i : Nat) (f : Seeder → Seeder) : (b.modSeeder i f).wrapped = b.wrapped := rfl
@[simp] theorem Block.modSeeder_timeFabric (b : Block) (i : Nat) (f : Seeder → Seeder) : (b.modSeeder i f).timeFabric = b.timeFabric := rfl
@[simp] theorem Block.modSeeder_timeLocked (b : Block) (i : Nat) (f : Seeder → Seeder) : (b.modSeeder i f).timeLocked = b.timeLocked := rfl
@[simp] theorem Block.modSeeder_holdover (b : Block) (i : Nat) (f : Seeder → Seeder) : (b.modSeeder i f).holdover = b.holdover := rfl
@[simp] theorem Block.modSeeder_bat (b : Block) (i : Nat) (f : Seeder → Seeder) : (b.modSeeder i f).bat = b.bat := rfl
@[simp] theorem Block.modSeeder_otp (b : Block) (i : Nat) (f : Seeder → Seeder) : (b.modSeeder i f).otp = b.otp := rfl
@[simp] theorem Block.modSeeder_tam (b : Block) (i : Nat) (f : Seeder → Seeder) : (b.modSeeder i f).tam = b.tam := rfl
@[simp] theorem Block.modSeeder_flt (b : Block) (i : Nat) (f : Seeder → Seeder) : (b.modSeeder i f).flt = b.flt := rfl
@[simp] theorem Block.modSeeder_kst (b : Block) (i : Nat) (f : Seeder → Seeder) : (b.modSeeder i f).kst = b.kst := rfl
@[simp] theorem Block.modSeeder_slices (b : Block) (i : Nat) (f : Seeder → Seeder) : (b.modSeeder i f).slices = b.slices := rfl
@[simp] theorem Block.modSeeder_jobs (b : Block) (i : Nat) (f : Seeder → Seeder) : (b.modSeeder i f).jobs = b.jobs := rfl
@[simp] theorem Block.modSeeder_dsp (b : Block) (i : Nat) (f : Seeder → Seeder) : (b.modSeeder i f).dsp = b.dsp := rfl
@[simp] theorem Block.modSeeder_wales (b : Block) (i : Nat) (f : Seeder → Seeder) : (b.modSeeder i f).wales = b.wales := rfl
@[simp] theorem Block.modSeeder_quads (b : Block) (i : Nat) (f : Seeder → Seeder) : (b.modSeeder i f).quads = b.quads := rfl
@[simp] theorem Block.modSeeder_chans (b : Block) (i : Nat) (f : Seeder → Seeder) : (b.modSeeder i f).chans = b.chans := rfl
@[simp] theorem Block.modSeeder_ddr (b : Block) (i : Nat) (f : Seeder → Seeder) : (b.modSeeder i f).ddr = b.ddr := rfl
@[simp] theorem Block.modSeeder_host (b : Block) (i : Nat) (f : Seeder → Seeder) : (b.modSeeder i f).host = b.host := rfl
@[simp] theorem Block.modSeeder_admin (b : Block) (i : Nat) (f : Seeder → Seeder) : (b.modSeeder i f).admin = b.admin := rfl
@[simp] theorem Block.modSeeder_att (b : Block) (i : Nat) (f : Seeder → Seeder) : (b.modSeeder i f).att = b.att := rfl
@[simp] theorem Block.modSeeder_boot (b : Block) (i : Nat) (f : Seeder → Seeder) : (b.modSeeder i f).boot = b.boot := rfl
@[simp] theorem Block.modSeeder_flash (b : Block) (i : Nat) (f : Seeder → Seeder) : (b.modSeeder i f).flash = b.flash := rfl
@[simp] theorem Block.modSeeder_pwr (b : Block) (i : Nat) (f : Seeder → Seeder) : (b.modSeeder i f).pwr = b.pwr := rfl
@[simp] theorem Block.modSeeder_wty (b : Block) (i : Nat) (f : Seeder → Seeder) : (b.modSeeder i f).wty = b.wty := rfl
@[simp] theorem Block.modSeeder_link (b : Block) (i : Nat) (f : Seeder → Seeder) : (b.modSeeder i f).link = b.link := rfl
@[simp] theorem Block.modJob_now (b : Block) (i : Nat) (f : Job → Job) : (b.modJob i f).now = b.now := rfl
@[simp] theorem Block.modJob_nowHi (b : Block) (i : Nat) (f : Job → Job) : (b.modJob i f).nowHi = b.nowHi := rfl
@[simp] theorem Block.modJob_wrapped (b : Block) (i : Nat) (f : Job → Job) : (b.modJob i f).wrapped = b.wrapped := rfl
@[simp] theorem Block.modJob_timeFabric (b : Block) (i : Nat) (f : Job → Job) : (b.modJob i f).timeFabric = b.timeFabric := rfl
@[simp] theorem Block.modJob_timeLocked (b : Block) (i : Nat) (f : Job → Job) : (b.modJob i f).timeLocked = b.timeLocked := rfl
@[simp] theorem Block.modJob_holdover (b : Block) (i : Nat) (f : Job → Job) : (b.modJob i f).holdover = b.holdover := rfl
@[simp] theorem Block.modJob_bat (b : Block) (i : Nat) (f : Job → Job) : (b.modJob i f).bat = b.bat := rfl
@[simp] theorem Block.modJob_otp (b : Block) (i : Nat) (f : Job → Job) : (b.modJob i f).otp = b.otp := rfl
@[simp] theorem Block.modJob_tam (b : Block) (i : Nat) (f : Job → Job) : (b.modJob i f).tam = b.tam := rfl
@[simp] theorem Block.modJob_flt (b : Block) (i : Nat) (f : Job → Job) : (b.modJob i f).flt = b.flt := rfl
@[simp] theorem Block.modJob_rng (b : Block) (i : Nat) (f : Job → Job) : (b.modJob i f).rng = b.rng := rfl
@[simp] theorem Block.modJob_kst (b : Block) (i : Nat) (f : Job → Job) : (b.modJob i f).kst = b.kst := rfl
@[simp] theorem Block.modJob_slices (b : Block) (i : Nat) (f : Job → Job) : (b.modJob i f).slices = b.slices := rfl
@[simp] theorem Block.modJob_dsp (b : Block) (i : Nat) (f : Job → Job) : (b.modJob i f).dsp = b.dsp := rfl
@[simp] theorem Block.modJob_wales (b : Block) (i : Nat) (f : Job → Job) : (b.modJob i f).wales = b.wales := rfl
@[simp] theorem Block.modJob_quads (b : Block) (i : Nat) (f : Job → Job) : (b.modJob i f).quads = b.quads := rfl
@[simp] theorem Block.modJob_chans (b : Block) (i : Nat) (f : Job → Job) : (b.modJob i f).chans = b.chans := rfl
@[simp] theorem Block.modJob_ddr (b : Block) (i : Nat) (f : Job → Job) : (b.modJob i f).ddr = b.ddr := rfl
@[simp] theorem Block.modJob_host (b : Block) (i : Nat) (f : Job → Job) : (b.modJob i f).host = b.host := rfl
@[simp] theorem Block.modJob_admin (b : Block) (i : Nat) (f : Job → Job) : (b.modJob i f).admin = b.admin := rfl
@[simp] theorem Block.modJob_att (b : Block) (i : Nat) (f : Job → Job) : (b.modJob i f).att = b.att := rfl
@[simp] theorem Block.modJob_boot (b : Block) (i : Nat) (f : Job → Job) : (b.modJob i f).boot = b.boot := rfl
@[simp] theorem Block.modJob_flash (b : Block) (i : Nat) (f : Job → Job) : (b.modJob i f).flash = b.flash := rfl
@[simp] theorem Block.modJob_pwr (b : Block) (i : Nat) (f : Job → Job) : (b.modJob i f).pwr = b.pwr := rfl
@[simp] theorem Block.modJob_wty (b : Block) (i : Nat) (f : Job → Job) : (b.modJob i f).wty = b.wty := rfl
@[simp] theorem Block.modJob_link (b : Block) (i : Nat) (f : Job → Job) : (b.modJob i f).link = b.link := rfl
@[simp] theorem Block.putKey_now (b : Block) (h : W32) (k : Key) : (b.putKey h k).now = b.now := rfl
@[simp] theorem Block.putKey_nowHi (b : Block) (h : W32) (k : Key) : (b.putKey h k).nowHi = b.nowHi := rfl
@[simp] theorem Block.putKey_wrapped (b : Block) (h : W32) (k : Key) : (b.putKey h k).wrapped = b.wrapped := rfl
@[simp] theorem Block.putKey_timeFabric (b : Block) (h : W32) (k : Key) : (b.putKey h k).timeFabric = b.timeFabric := rfl
@[simp] theorem Block.putKey_timeLocked (b : Block) (h : W32) (k : Key) : (b.putKey h k).timeLocked = b.timeLocked := rfl
@[simp] theorem Block.putKey_holdover (b : Block) (h : W32) (k : Key) : (b.putKey h k).holdover = b.holdover := rfl
@[simp] theorem Block.putKey_bat (b : Block) (h : W32) (k : Key) : (b.putKey h k).bat = b.bat := rfl
@[simp] theorem Block.putKey_otp (b : Block) (h : W32) (k : Key) : (b.putKey h k).otp = b.otp := rfl
@[simp] theorem Block.putKey_tam (b : Block) (h : W32) (k : Key) : (b.putKey h k).tam = b.tam := rfl
@[simp] theorem Block.putKey_flt (b : Block) (h : W32) (k : Key) : (b.putKey h k).flt = b.flt := rfl
@[simp] theorem Block.putKey_rng (b : Block) (h : W32) (k : Key) : (b.putKey h k).rng = b.rng := rfl
@[simp] theorem Block.putKey_slices (b : Block) (h : W32) (k : Key) : (b.putKey h k).slices = b.slices := rfl
@[simp] theorem Block.putKey_jobs (b : Block) (h : W32) (k : Key) : (b.putKey h k).jobs = b.jobs := rfl
@[simp] theorem Block.putKey_dsp (b : Block) (h : W32) (k : Key) : (b.putKey h k).dsp = b.dsp := rfl
@[simp] theorem Block.putKey_wales (b : Block) (h : W32) (k : Key) : (b.putKey h k).wales = b.wales := rfl
@[simp] theorem Block.putKey_quads (b : Block) (h : W32) (k : Key) : (b.putKey h k).quads = b.quads := rfl
@[simp] theorem Block.putKey_chans (b : Block) (h : W32) (k : Key) : (b.putKey h k).chans = b.chans := rfl
@[simp] theorem Block.putKey_ddr (b : Block) (h : W32) (k : Key) : (b.putKey h k).ddr = b.ddr := rfl
@[simp] theorem Block.putKey_host (b : Block) (h : W32) (k : Key) : (b.putKey h k).host = b.host := rfl
@[simp] theorem Block.putKey_admin (b : Block) (h : W32) (k : Key) : (b.putKey h k).admin = b.admin := rfl
@[simp] theorem Block.putKey_att (b : Block) (h : W32) (k : Key) : (b.putKey h k).att = b.att := rfl
@[simp] theorem Block.putKey_boot (b : Block) (h : W32) (k : Key) : (b.putKey h k).boot = b.boot := rfl
@[simp] theorem Block.putKey_flash (b : Block) (h : W32) (k : Key) : (b.putKey h k).flash = b.flash := rfl
@[simp] theorem Block.putKey_pwr (b : Block) (h : W32) (k : Key) : (b.putKey h k).pwr = b.pwr := rfl
@[simp] theorem Block.putKey_wty (b : Block) (h : W32) (k : Key) : (b.putKey h k).wty = b.wty := rfl
@[simp] theorem Block.putKey_link (b : Block) (h : W32) (k : Key) : (b.putKey h k).link = b.link := rfl
@[simp] theorem Block.dropKey_now (b : Block) (h : W32) : (b.dropKey h).now = b.now := rfl
@[simp] theorem Block.dropKey_nowHi (b : Block) (h : W32) : (b.dropKey h).nowHi = b.nowHi := rfl
@[simp] theorem Block.dropKey_wrapped (b : Block) (h : W32) : (b.dropKey h).wrapped = b.wrapped := rfl
@[simp] theorem Block.dropKey_timeFabric (b : Block) (h : W32) : (b.dropKey h).timeFabric = b.timeFabric := rfl
@[simp] theorem Block.dropKey_timeLocked (b : Block) (h : W32) : (b.dropKey h).timeLocked = b.timeLocked := rfl
@[simp] theorem Block.dropKey_holdover (b : Block) (h : W32) : (b.dropKey h).holdover = b.holdover := rfl
@[simp] theorem Block.dropKey_bat (b : Block) (h : W32) : (b.dropKey h).bat = b.bat := rfl
@[simp] theorem Block.dropKey_otp (b : Block) (h : W32) : (b.dropKey h).otp = b.otp := rfl
@[simp] theorem Block.dropKey_tam (b : Block) (h : W32) : (b.dropKey h).tam = b.tam := rfl
@[simp] theorem Block.dropKey_flt (b : Block) (h : W32) : (b.dropKey h).flt = b.flt := rfl
@[simp] theorem Block.dropKey_rng (b : Block) (h : W32) : (b.dropKey h).rng = b.rng := rfl
@[simp] theorem Block.dropKey_slices (b : Block) (h : W32) : (b.dropKey h).slices = b.slices := rfl
@[simp] theorem Block.dropKey_jobs (b : Block) (h : W32) : (b.dropKey h).jobs = b.jobs := rfl
@[simp] theorem Block.dropKey_dsp (b : Block) (h : W32) : (b.dropKey h).dsp = b.dsp := rfl
@[simp] theorem Block.dropKey_wales (b : Block) (h : W32) : (b.dropKey h).wales = b.wales := rfl
@[simp] theorem Block.dropKey_quads (b : Block) (h : W32) : (b.dropKey h).quads = b.quads := rfl
@[simp] theorem Block.dropKey_chans (b : Block) (h : W32) : (b.dropKey h).chans = b.chans := rfl
@[simp] theorem Block.dropKey_ddr (b : Block) (h : W32) : (b.dropKey h).ddr = b.ddr := rfl
@[simp] theorem Block.dropKey_host (b : Block) (h : W32) : (b.dropKey h).host = b.host := rfl
@[simp] theorem Block.dropKey_admin (b : Block) (h : W32) : (b.dropKey h).admin = b.admin := rfl
@[simp] theorem Block.dropKey_att (b : Block) (h : W32) : (b.dropKey h).att = b.att := rfl
@[simp] theorem Block.dropKey_boot (b : Block) (h : W32) : (b.dropKey h).boot = b.boot := rfl
@[simp] theorem Block.dropKey_flash (b : Block) (h : W32) : (b.dropKey h).flash = b.flash := rfl
@[simp] theorem Block.dropKey_pwr (b : Block) (h : W32) : (b.dropKey h).pwr = b.pwr := rfl
@[simp] theorem Block.dropKey_wty (b : Block) (h : W32) : (b.dropKey h).wty = b.wty := rfl
@[simp] theorem Block.dropKey_link (b : Block) (h : W32) : (b.dropKey h).link = b.link := rfl
@[simp] theorem Block.setOwner_now (b : Block) (n : Nat) (o : CtrOwner) : (b.setOwner n o).now = b.now := rfl
@[simp] theorem Block.setOwner_nowHi (b : Block) (n : Nat) (o : CtrOwner) : (b.setOwner n o).nowHi = b.nowHi := rfl
@[simp] theorem Block.setOwner_wrapped (b : Block) (n : Nat) (o : CtrOwner) : (b.setOwner n o).wrapped = b.wrapped := rfl
@[simp] theorem Block.setOwner_timeFabric (b : Block) (n : Nat) (o : CtrOwner) : (b.setOwner n o).timeFabric = b.timeFabric := rfl
@[simp] theorem Block.setOwner_timeLocked (b : Block) (n : Nat) (o : CtrOwner) : (b.setOwner n o).timeLocked = b.timeLocked := rfl
@[simp] theorem Block.setOwner_holdover (b : Block) (n : Nat) (o : CtrOwner) : (b.setOwner n o).holdover = b.holdover := rfl
@[simp] theorem Block.setOwner_otp (b : Block) (n : Nat) (o : CtrOwner) : (b.setOwner n o).otp = b.otp := rfl
@[simp] theorem Block.setOwner_tam (b : Block) (n : Nat) (o : CtrOwner) : (b.setOwner n o).tam = b.tam := rfl
@[simp] theorem Block.setOwner_flt (b : Block) (n : Nat) (o : CtrOwner) : (b.setOwner n o).flt = b.flt := rfl
@[simp] theorem Block.setOwner_rng (b : Block) (n : Nat) (o : CtrOwner) : (b.setOwner n o).rng = b.rng := rfl
@[simp] theorem Block.setOwner_kst (b : Block) (n : Nat) (o : CtrOwner) : (b.setOwner n o).kst = b.kst := rfl
@[simp] theorem Block.setOwner_slices (b : Block) (n : Nat) (o : CtrOwner) : (b.setOwner n o).slices = b.slices := rfl
@[simp] theorem Block.setOwner_jobs (b : Block) (n : Nat) (o : CtrOwner) : (b.setOwner n o).jobs = b.jobs := rfl
@[simp] theorem Block.setOwner_dsp (b : Block) (n : Nat) (o : CtrOwner) : (b.setOwner n o).dsp = b.dsp := rfl
@[simp] theorem Block.setOwner_wales (b : Block) (n : Nat) (o : CtrOwner) : (b.setOwner n o).wales = b.wales := rfl
@[simp] theorem Block.setOwner_quads (b : Block) (n : Nat) (o : CtrOwner) : (b.setOwner n o).quads = b.quads := rfl
@[simp] theorem Block.setOwner_chans (b : Block) (n : Nat) (o : CtrOwner) : (b.setOwner n o).chans = b.chans := rfl
@[simp] theorem Block.setOwner_ddr (b : Block) (n : Nat) (o : CtrOwner) : (b.setOwner n o).ddr = b.ddr := rfl
@[simp] theorem Block.setOwner_host (b : Block) (n : Nat) (o : CtrOwner) : (b.setOwner n o).host = b.host := rfl
@[simp] theorem Block.setOwner_admin (b : Block) (n : Nat) (o : CtrOwner) : (b.setOwner n o).admin = b.admin := rfl
@[simp] theorem Block.setOwner_att (b : Block) (n : Nat) (o : CtrOwner) : (b.setOwner n o).att = b.att := rfl
@[simp] theorem Block.setOwner_boot (b : Block) (n : Nat) (o : CtrOwner) : (b.setOwner n o).boot = b.boot := rfl
@[simp] theorem Block.setOwner_flash (b : Block) (n : Nat) (o : CtrOwner) : (b.setOwner n o).flash = b.flash := rfl
@[simp] theorem Block.setOwner_pwr (b : Block) (n : Nat) (o : CtrOwner) : (b.setOwner n o).pwr = b.pwr := rfl
@[simp] theorem Block.setOwner_wty (b : Block) (n : Nat) (o : CtrOwner) : (b.setOwner n o).wty = b.wty := rfl
@[simp] theorem Block.setOwner_link (b : Block) (n : Nat) (o : CtrOwner) : (b.setOwner n o).link = b.link := rfl
@[simp] theorem Block.change_now (b : Block) (c : Change) : (b.change c).now = b.now := rfl
@[simp] theorem Block.change_nowHi (b : Block) (c : Change) : (b.change c).nowHi = b.nowHi := rfl
@[simp] theorem Block.change_wrapped (b : Block) (c : Change) : (b.change c).wrapped = b.wrapped := rfl
@[simp] theorem Block.change_timeFabric (b : Block) (c : Change) : (b.change c).timeFabric = b.timeFabric := rfl
@[simp] theorem Block.change_timeLocked (b : Block) (c : Change) : (b.change c).timeLocked = b.timeLocked := rfl
@[simp] theorem Block.change_holdover (b : Block) (c : Change) : (b.change c).holdover = b.holdover := rfl
@[simp] theorem Block.change_bat (b : Block) (c : Change) : (b.change c).bat = b.bat := rfl
@[simp] theorem Block.change_otp (b : Block) (c : Change) : (b.change c).otp = b.otp := rfl
@[simp] theorem Block.change_tam (b : Block) (c : Change) : (b.change c).tam = b.tam := rfl
@[simp] theorem Block.change_flt (b : Block) (c : Change) : (b.change c).flt = b.flt := rfl
@[simp] theorem Block.change_rng (b : Block) (c : Change) : (b.change c).rng = b.rng := rfl
@[simp] theorem Block.change_slices (b : Block) (c : Change) : (b.change c).slices = b.slices := rfl
@[simp] theorem Block.change_jobs (b : Block) (c : Change) : (b.change c).jobs = b.jobs := rfl
@[simp] theorem Block.change_dsp (b : Block) (c : Change) : (b.change c).dsp = b.dsp := rfl
@[simp] theorem Block.change_wales (b : Block) (c : Change) : (b.change c).wales = b.wales := rfl
@[simp] theorem Block.change_quads (b : Block) (c : Change) : (b.change c).quads = b.quads := rfl
@[simp] theorem Block.change_chans (b : Block) (c : Change) : (b.change c).chans = b.chans := rfl
@[simp] theorem Block.change_ddr (b : Block) (c : Change) : (b.change c).ddr = b.ddr := rfl
@[simp] theorem Block.change_host (b : Block) (c : Change) : (b.change c).host = b.host := rfl
@[simp] theorem Block.change_admin (b : Block) (c : Change) : (b.change c).admin = b.admin := rfl
@[simp] theorem Block.change_att (b : Block) (c : Change) : (b.change c).att = b.att := rfl
@[simp] theorem Block.change_boot (b : Block) (c : Change) : (b.change c).boot = b.boot := rfl
@[simp] theorem Block.change_flash (b : Block) (c : Change) : (b.change c).flash = b.flash := rfl
@[simp] theorem Block.change_pwr (b : Block) (c : Change) : (b.change c).pwr = b.pwr := rfl
@[simp] theorem Block.change_wty (b : Block) (c : Change) : (b.change c).wty = b.wty := rfl
@[simp] theorem Block.change_link (b : Block) (c : Change) : (b.change c).link = b.link := rfl
@[simp] theorem Block.emit_now (b : Block) (o : LinkOp) : (b.emit o).now = b.now := rfl
@[simp] theorem Block.emit_nowHi (b : Block) (o : LinkOp) : (b.emit o).nowHi = b.nowHi := rfl
@[simp] theorem Block.emit_wrapped (b : Block) (o : LinkOp) : (b.emit o).wrapped = b.wrapped := rfl
@[simp] theorem Block.emit_timeFabric (b : Block) (o : LinkOp) : (b.emit o).timeFabric = b.timeFabric := rfl
@[simp] theorem Block.emit_timeLocked (b : Block) (o : LinkOp) : (b.emit o).timeLocked = b.timeLocked := rfl
@[simp] theorem Block.emit_holdover (b : Block) (o : LinkOp) : (b.emit o).holdover = b.holdover := rfl
@[simp] theorem Block.emit_bat (b : Block) (o : LinkOp) : (b.emit o).bat = b.bat := rfl
@[simp] theorem Block.emit_otp (b : Block) (o : LinkOp) : (b.emit o).otp = b.otp := rfl
@[simp] theorem Block.emit_tam (b : Block) (o : LinkOp) : (b.emit o).tam = b.tam := rfl
@[simp] theorem Block.emit_flt (b : Block) (o : LinkOp) : (b.emit o).flt = b.flt := rfl
@[simp] theorem Block.emit_rng (b : Block) (o : LinkOp) : (b.emit o).rng = b.rng := rfl
@[simp] theorem Block.emit_kst (b : Block) (o : LinkOp) : (b.emit o).kst = b.kst := rfl
@[simp] theorem Block.emit_slices (b : Block) (o : LinkOp) : (b.emit o).slices = b.slices := rfl
@[simp] theorem Block.emit_jobs (b : Block) (o : LinkOp) : (b.emit o).jobs = b.jobs := rfl
@[simp] theorem Block.emit_dsp (b : Block) (o : LinkOp) : (b.emit o).dsp = b.dsp := rfl
@[simp] theorem Block.emit_wales (b : Block) (o : LinkOp) : (b.emit o).wales = b.wales := rfl
@[simp] theorem Block.emit_quads (b : Block) (o : LinkOp) : (b.emit o).quads = b.quads := rfl
@[simp] theorem Block.emit_chans (b : Block) (o : LinkOp) : (b.emit o).chans = b.chans := rfl
@[simp] theorem Block.emit_ddr (b : Block) (o : LinkOp) : (b.emit o).ddr = b.ddr := rfl
@[simp] theorem Block.emit_host (b : Block) (o : LinkOp) : (b.emit o).host = b.host := rfl
@[simp] theorem Block.emit_admin (b : Block) (o : LinkOp) : (b.emit o).admin = b.admin := rfl
@[simp] theorem Block.emit_att (b : Block) (o : LinkOp) : (b.emit o).att = b.att := rfl
@[simp] theorem Block.emit_boot (b : Block) (o : LinkOp) : (b.emit o).boot = b.boot := rfl
@[simp] theorem Block.emit_flash (b : Block) (o : LinkOp) : (b.emit o).flash = b.flash := rfl
@[simp] theorem Block.emit_pwr (b : Block) (o : LinkOp) : (b.emit o).pwr = b.pwr := rfl
@[simp] theorem Block.emit_wty (b : Block) (o : LinkOp) : (b.emit o).wty = b.wty := rfl
@[simp] theorem Block.drew_now (b : Block) (n : Nat) : (b.drew n).now = b.now := rfl
@[simp] theorem Block.drew_nowHi (b : Block) (n : Nat) : (b.drew n).nowHi = b.nowHi := rfl
@[simp] theorem Block.drew_wrapped (b : Block) (n : Nat) : (b.drew n).wrapped = b.wrapped := rfl
@[simp] theorem Block.drew_timeFabric (b : Block) (n : Nat) : (b.drew n).timeFabric = b.timeFabric := rfl
@[simp] theorem Block.drew_timeLocked (b : Block) (n : Nat) : (b.drew n).timeLocked = b.timeLocked := rfl
@[simp] theorem Block.drew_holdover (b : Block) (n : Nat) : (b.drew n).holdover = b.holdover := rfl
@[simp] theorem Block.drew_bat (b : Block) (n : Nat) : (b.drew n).bat = b.bat := rfl
@[simp] theorem Block.drew_otp (b : Block) (n : Nat) : (b.drew n).otp = b.otp := rfl
@[simp] theorem Block.drew_tam (b : Block) (n : Nat) : (b.drew n).tam = b.tam := rfl
@[simp] theorem Block.drew_flt (b : Block) (n : Nat) : (b.drew n).flt = b.flt := rfl
@[simp] theorem Block.drew_kst (b : Block) (n : Nat) : (b.drew n).kst = b.kst := rfl
@[simp] theorem Block.drew_slices (b : Block) (n : Nat) : (b.drew n).slices = b.slices := rfl
@[simp] theorem Block.drew_jobs (b : Block) (n : Nat) : (b.drew n).jobs = b.jobs := rfl
@[simp] theorem Block.drew_dsp (b : Block) (n : Nat) : (b.drew n).dsp = b.dsp := rfl
@[simp] theorem Block.drew_wales (b : Block) (n : Nat) : (b.drew n).wales = b.wales := rfl
@[simp] theorem Block.drew_quads (b : Block) (n : Nat) : (b.drew n).quads = b.quads := rfl
@[simp] theorem Block.drew_chans (b : Block) (n : Nat) : (b.drew n).chans = b.chans := rfl
@[simp] theorem Block.drew_ddr (b : Block) (n : Nat) : (b.drew n).ddr = b.ddr := rfl
@[simp] theorem Block.drew_host (b : Block) (n : Nat) : (b.drew n).host = b.host := rfl
@[simp] theorem Block.drew_admin (b : Block) (n : Nat) : (b.drew n).admin = b.admin := rfl
@[simp] theorem Block.drew_att (b : Block) (n : Nat) : (b.drew n).att = b.att := rfl
@[simp] theorem Block.drew_boot (b : Block) (n : Nat) : (b.drew n).boot = b.boot := rfl
@[simp] theorem Block.drew_flash (b : Block) (n : Nat) : (b.drew n).flash = b.flash := rfl
@[simp] theorem Block.drew_pwr (b : Block) (n : Nat) : (b.drew n).pwr = b.pwr := rfl
@[simp] theorem Block.drew_wty (b : Block) (n : Nat) : (b.drew n).wty = b.wty := rfl
@[simp] theorem Block.drew_link (b : Block) (n : Nat) : (b.drew n).link = b.link := rfl
@[simp] theorem Block.modBoot_now (b : Block) (f : Boot → Boot) : (b.modBoot f).now = b.now := rfl
@[simp] theorem Block.modBoot_nowHi (b : Block) (f : Boot → Boot) : (b.modBoot f).nowHi = b.nowHi := rfl
@[simp] theorem Block.modBoot_wrapped (b : Block) (f : Boot → Boot) : (b.modBoot f).wrapped = b.wrapped := rfl
@[simp] theorem Block.modBoot_timeFabric (b : Block) (f : Boot → Boot) : (b.modBoot f).timeFabric = b.timeFabric := rfl
@[simp] theorem Block.modBoot_timeLocked (b : Block) (f : Boot → Boot) : (b.modBoot f).timeLocked = b.timeLocked := rfl
@[simp] theorem Block.modBoot_holdover (b : Block) (f : Boot → Boot) : (b.modBoot f).holdover = b.holdover := rfl
@[simp] theorem Block.modBoot_bat (b : Block) (f : Boot → Boot) : (b.modBoot f).bat = b.bat := rfl
@[simp] theorem Block.modBoot_otp (b : Block) (f : Boot → Boot) : (b.modBoot f).otp = b.otp := rfl
@[simp] theorem Block.modBoot_tam (b : Block) (f : Boot → Boot) : (b.modBoot f).tam = b.tam := rfl
@[simp] theorem Block.modBoot_flt (b : Block) (f : Boot → Boot) : (b.modBoot f).flt = b.flt := rfl
@[simp] theorem Block.modBoot_rng (b : Block) (f : Boot → Boot) : (b.modBoot f).rng = b.rng := rfl
@[simp] theorem Block.modBoot_kst (b : Block) (f : Boot → Boot) : (b.modBoot f).kst = b.kst := rfl
@[simp] theorem Block.modBoot_slices (b : Block) (f : Boot → Boot) : (b.modBoot f).slices = b.slices := rfl
@[simp] theorem Block.modBoot_jobs (b : Block) (f : Boot → Boot) : (b.modBoot f).jobs = b.jobs := rfl
@[simp] theorem Block.modBoot_dsp (b : Block) (f : Boot → Boot) : (b.modBoot f).dsp = b.dsp := rfl
@[simp] theorem Block.modBoot_wales (b : Block) (f : Boot → Boot) : (b.modBoot f).wales = b.wales := rfl
@[simp] theorem Block.modBoot_quads (b : Block) (f : Boot → Boot) : (b.modBoot f).quads = b.quads := rfl
@[simp] theorem Block.modBoot_chans (b : Block) (f : Boot → Boot) : (b.modBoot f).chans = b.chans := rfl
@[simp] theorem Block.modBoot_ddr (b : Block) (f : Boot → Boot) : (b.modBoot f).ddr = b.ddr := rfl
@[simp] theorem Block.modBoot_host (b : Block) (f : Boot → Boot) : (b.modBoot f).host = b.host := rfl
@[simp] theorem Block.modBoot_admin (b : Block) (f : Boot → Boot) : (b.modBoot f).admin = b.admin := rfl
@[simp] theorem Block.modBoot_att (b : Block) (f : Boot → Boot) : (b.modBoot f).att = b.att := rfl
@[simp] theorem Block.modBoot_flash (b : Block) (f : Boot → Boot) : (b.modBoot f).flash = b.flash := rfl
@[simp] theorem Block.modBoot_pwr (b : Block) (f : Boot → Boot) : (b.modBoot f).pwr = b.pwr := rfl
@[simp] theorem Block.modBoot_wty (b : Block) (f : Boot → Boot) : (b.modBoot f).wty = b.wty := rfl
@[simp] theorem Block.modBoot_link (b : Block) (f : Boot → Boot) : (b.modBoot f).link = b.link := rfl

/-! ### The other updates of a block -/

@[simp] theorem Block.modPort_now (b : Block) (p : PortId) (f : Port → Port) : (b.modPort p f).now = b.now := rfl
@[simp] theorem Block.modPort_nowHi (b : Block) (p : PortId) (f : Port → Port) : (b.modPort p f).nowHi = b.nowHi := rfl
@[simp] theorem Block.modPort_wrapped (b : Block) (p : PortId) (f : Port → Port) : (b.modPort p f).wrapped = b.wrapped := rfl
@[simp] theorem Block.modPort_timeFabric (b : Block) (p : PortId) (f : Port → Port) : (b.modPort p f).timeFabric = b.timeFabric := rfl
@[simp] theorem Block.modPort_timeLocked (b : Block) (p : PortId) (f : Port → Port) : (b.modPort p f).timeLocked = b.timeLocked := rfl
@[simp] theorem Block.modPort_holdover (b : Block) (p : PortId) (f : Port → Port) : (b.modPort p f).holdover = b.holdover := rfl
@[simp] theorem Block.modPort_bat (b : Block) (p : PortId) (f : Port → Port) : (b.modPort p f).bat = b.bat := rfl
@[simp] theorem Block.modPort_otp (b : Block) (p : PortId) (f : Port → Port) : (b.modPort p f).otp = b.otp := rfl
@[simp] theorem Block.modPort_tam (b : Block) (p : PortId) (f : Port → Port) : (b.modPort p f).tam = b.tam := rfl
@[simp] theorem Block.modPort_flt (b : Block) (p : PortId) (f : Port → Port) : (b.modPort p f).flt = b.flt := rfl
@[simp] theorem Block.modPort_rng (b : Block) (p : PortId) (f : Port → Port) : (b.modPort p f).rng = b.rng := rfl
@[simp] theorem Block.modPort_kst (b : Block) (p : PortId) (f : Port → Port) : (b.modPort p f).kst = b.kst := rfl
@[simp] theorem Block.modPort_slices (b : Block) (p : PortId) (f : Port → Port) : (b.modPort p f).slices = b.slices := rfl
@[simp] theorem Block.modPort_jobs (b : Block) (p : PortId) (f : Port → Port) : (b.modPort p f).jobs = b.jobs := rfl
@[simp] theorem Block.modPort_dsp (b : Block) (p : PortId) (f : Port → Port) : (b.modPort p f).dsp = b.dsp := rfl
@[simp] theorem Block.modPort_wales (b : Block) (p : PortId) (f : Port → Port) : (b.modPort p f).wales = b.wales := rfl
@[simp] theorem Block.modPort_quads (b : Block) (p : PortId) (f : Port → Port) : (b.modPort p f).quads = b.quads := rfl
@[simp] theorem Block.modPort_chans (b : Block) (p : PortId) (f : Port → Port) : (b.modPort p f).chans = b.chans := rfl
@[simp] theorem Block.modPort_ddr (b : Block) (p : PortId) (f : Port → Port) : (b.modPort p f).ddr = b.ddr := rfl
@[simp] theorem Block.modPort_host (b : Block) (p : PortId) (f : Port → Port) : (b.modPort p f).host = b.host := rfl
@[simp] theorem Block.modPort_admin (b : Block) (p : PortId) (f : Port → Port) : (b.modPort p f).admin = b.admin := rfl
@[simp] theorem Block.modPort_att (b : Block) (p : PortId) (f : Port → Port) : (b.modPort p f).att = b.att := rfl
@[simp] theorem Block.modPort_boot (b : Block) (p : PortId) (f : Port → Port) : (b.modPort p f).boot = b.boot := rfl
@[simp] theorem Block.modPort_flash (b : Block) (p : PortId) (f : Port → Port) : (b.modPort p f).flash = b.flash := rfl
@[simp] theorem Block.modPort_pwr (b : Block) (p : PortId) (f : Port → Port) : (b.modPort p f).pwr = b.pwr := rfl
@[simp] theorem Block.modPort_link (b : Block) (p : PortId) (f : Port → Port) : (b.modPort p f).link = b.link := rfl
@[simp] theorem Block.modWty_now (b : Block) (f : Fabric → Fabric) : (b.modWty f).now = b.now := rfl
@[simp] theorem Block.modWty_nowHi (b : Block) (f : Fabric → Fabric) : (b.modWty f).nowHi = b.nowHi := rfl
@[simp] theorem Block.modWty_wrapped (b : Block) (f : Fabric → Fabric) : (b.modWty f).wrapped = b.wrapped := rfl
@[simp] theorem Block.modWty_timeFabric (b : Block) (f : Fabric → Fabric) : (b.modWty f).timeFabric = b.timeFabric := rfl
@[simp] theorem Block.modWty_timeLocked (b : Block) (f : Fabric → Fabric) : (b.modWty f).timeLocked = b.timeLocked := rfl
@[simp] theorem Block.modWty_holdover (b : Block) (f : Fabric → Fabric) : (b.modWty f).holdover = b.holdover := rfl
@[simp] theorem Block.modWty_bat (b : Block) (f : Fabric → Fabric) : (b.modWty f).bat = b.bat := rfl
@[simp] theorem Block.modWty_otp (b : Block) (f : Fabric → Fabric) : (b.modWty f).otp = b.otp := rfl
@[simp] theorem Block.modWty_tam (b : Block) (f : Fabric → Fabric) : (b.modWty f).tam = b.tam := rfl
@[simp] theorem Block.modWty_flt (b : Block) (f : Fabric → Fabric) : (b.modWty f).flt = b.flt := rfl
@[simp] theorem Block.modWty_rng (b : Block) (f : Fabric → Fabric) : (b.modWty f).rng = b.rng := rfl
@[simp] theorem Block.modWty_kst (b : Block) (f : Fabric → Fabric) : (b.modWty f).kst = b.kst := rfl
@[simp] theorem Block.modWty_slices (b : Block) (f : Fabric → Fabric) : (b.modWty f).slices = b.slices := rfl
@[simp] theorem Block.modWty_jobs (b : Block) (f : Fabric → Fabric) : (b.modWty f).jobs = b.jobs := rfl
@[simp] theorem Block.modWty_dsp (b : Block) (f : Fabric → Fabric) : (b.modWty f).dsp = b.dsp := rfl
@[simp] theorem Block.modWty_wales (b : Block) (f : Fabric → Fabric) : (b.modWty f).wales = b.wales := rfl
@[simp] theorem Block.modWty_quads (b : Block) (f : Fabric → Fabric) : (b.modWty f).quads = b.quads := rfl
@[simp] theorem Block.modWty_chans (b : Block) (f : Fabric → Fabric) : (b.modWty f).chans = b.chans := rfl
@[simp] theorem Block.modWty_ddr (b : Block) (f : Fabric → Fabric) : (b.modWty f).ddr = b.ddr := rfl
@[simp] theorem Block.modWty_host (b : Block) (f : Fabric → Fabric) : (b.modWty f).host = b.host := rfl
@[simp] theorem Block.modWty_admin (b : Block) (f : Fabric → Fabric) : (b.modWty f).admin = b.admin := rfl
@[simp] theorem Block.modWty_att (b : Block) (f : Fabric → Fabric) : (b.modWty f).att = b.att := rfl
@[simp] theorem Block.modWty_boot (b : Block) (f : Fabric → Fabric) : (b.modWty f).boot = b.boot := rfl
@[simp] theorem Block.modWty_flash (b : Block) (f : Fabric → Fabric) : (b.modWty f).flash = b.flash := rfl
@[simp] theorem Block.modWty_pwr (b : Block) (f : Fabric → Fabric) : (b.modWty f).pwr = b.pwr := rfl
@[simp] theorem Block.modWty_link (b : Block) (f : Fabric → Fabric) : (b.modWty f).link = b.link := rfl
@[simp] theorem Block.modPwr_now (b : Block) (f : Power → Power) : (b.modPwr f).now = b.now := rfl
@[simp] theorem Block.modPwr_nowHi (b : Block) (f : Power → Power) : (b.modPwr f).nowHi = b.nowHi := rfl
@[simp] theorem Block.modPwr_wrapped (b : Block) (f : Power → Power) : (b.modPwr f).wrapped = b.wrapped := rfl
@[simp] theorem Block.modPwr_timeFabric (b : Block) (f : Power → Power) : (b.modPwr f).timeFabric = b.timeFabric := rfl
@[simp] theorem Block.modPwr_timeLocked (b : Block) (f : Power → Power) : (b.modPwr f).timeLocked = b.timeLocked := rfl
@[simp] theorem Block.modPwr_holdover (b : Block) (f : Power → Power) : (b.modPwr f).holdover = b.holdover := rfl
@[simp] theorem Block.modPwr_bat (b : Block) (f : Power → Power) : (b.modPwr f).bat = b.bat := rfl
@[simp] theorem Block.modPwr_otp (b : Block) (f : Power → Power) : (b.modPwr f).otp = b.otp := rfl
@[simp] theorem Block.modPwr_tam (b : Block) (f : Power → Power) : (b.modPwr f).tam = b.tam := rfl
@[simp] theorem Block.modPwr_flt (b : Block) (f : Power → Power) : (b.modPwr f).flt = b.flt := rfl
@[simp] theorem Block.modPwr_rng (b : Block) (f : Power → Power) : (b.modPwr f).rng = b.rng := rfl
@[simp] theorem Block.modPwr_kst (b : Block) (f : Power → Power) : (b.modPwr f).kst = b.kst := rfl
@[simp] theorem Block.modPwr_slices (b : Block) (f : Power → Power) : (b.modPwr f).slices = b.slices := rfl
@[simp] theorem Block.modPwr_jobs (b : Block) (f : Power → Power) : (b.modPwr f).jobs = b.jobs := rfl
@[simp] theorem Block.modPwr_dsp (b : Block) (f : Power → Power) : (b.modPwr f).dsp = b.dsp := rfl
@[simp] theorem Block.modPwr_wales (b : Block) (f : Power → Power) : (b.modPwr f).wales = b.wales := rfl
@[simp] theorem Block.modPwr_quads (b : Block) (f : Power → Power) : (b.modPwr f).quads = b.quads := rfl
@[simp] theorem Block.modPwr_chans (b : Block) (f : Power → Power) : (b.modPwr f).chans = b.chans := rfl
@[simp] theorem Block.modPwr_ddr (b : Block) (f : Power → Power) : (b.modPwr f).ddr = b.ddr := rfl
@[simp] theorem Block.modPwr_host (b : Block) (f : Power → Power) : (b.modPwr f).host = b.host := rfl
@[simp] theorem Block.modPwr_admin (b : Block) (f : Power → Power) : (b.modPwr f).admin = b.admin := rfl
@[simp] theorem Block.modPwr_att (b : Block) (f : Power → Power) : (b.modPwr f).att = b.att := rfl
@[simp] theorem Block.modPwr_boot (b : Block) (f : Power → Power) : (b.modPwr f).boot = b.boot := rfl
@[simp] theorem Block.modPwr_flash (b : Block) (f : Power → Power) : (b.modPwr f).flash = b.flash := rfl
@[simp] theorem Block.modPwr_wty (b : Block) (f : Power → Power) : (b.modPwr f).wty = b.wty := rfl
@[simp] theorem Block.modPwr_link (b : Block) (f : Power → Power) : (b.modPwr f).link = b.link := rfl
@[simp] theorem Block.modAge_now (b : Block) (w : Nat) (f : Ageing → Ageing) : (b.modAge w f).now = b.now := rfl
@[simp] theorem Block.modAge_nowHi (b : Block) (w : Nat) (f : Ageing → Ageing) : (b.modAge w f).nowHi = b.nowHi := rfl
@[simp] theorem Block.modAge_wrapped (b : Block) (w : Nat) (f : Ageing → Ageing) : (b.modAge w f).wrapped = b.wrapped := rfl
@[simp] theorem Block.modAge_timeFabric (b : Block) (w : Nat) (f : Ageing → Ageing) : (b.modAge w f).timeFabric = b.timeFabric := rfl
@[simp] theorem Block.modAge_timeLocked (b : Block) (w : Nat) (f : Ageing → Ageing) : (b.modAge w f).timeLocked = b.timeLocked := rfl
@[simp] theorem Block.modAge_holdover (b : Block) (w : Nat) (f : Ageing → Ageing) : (b.modAge w f).holdover = b.holdover := rfl
@[simp] theorem Block.modAge_bat (b : Block) (w : Nat) (f : Ageing → Ageing) : (b.modAge w f).bat = b.bat := rfl
@[simp] theorem Block.modAge_otp (b : Block) (w : Nat) (f : Ageing → Ageing) : (b.modAge w f).otp = b.otp := rfl
@[simp] theorem Block.modAge_tam (b : Block) (w : Nat) (f : Ageing → Ageing) : (b.modAge w f).tam = b.tam := rfl
@[simp] theorem Block.modAge_flt (b : Block) (w : Nat) (f : Ageing → Ageing) : (b.modAge w f).flt = b.flt := rfl
@[simp] theorem Block.modAge_rng (b : Block) (w : Nat) (f : Ageing → Ageing) : (b.modAge w f).rng = b.rng := rfl
@[simp] theorem Block.modAge_kst (b : Block) (w : Nat) (f : Ageing → Ageing) : (b.modAge w f).kst = b.kst := rfl
@[simp] theorem Block.modAge_slices (b : Block) (w : Nat) (f : Ageing → Ageing) : (b.modAge w f).slices = b.slices := rfl
@[simp] theorem Block.modAge_jobs (b : Block) (w : Nat) (f : Ageing → Ageing) : (b.modAge w f).jobs = b.jobs := rfl
@[simp] theorem Block.modAge_dsp (b : Block) (w : Nat) (f : Ageing → Ageing) : (b.modAge w f).dsp = b.dsp := rfl
@[simp] theorem Block.modAge_quads (b : Block) (w : Nat) (f : Ageing → Ageing) : (b.modAge w f).quads = b.quads := rfl
@[simp] theorem Block.modAge_chans (b : Block) (w : Nat) (f : Ageing → Ageing) : (b.modAge w f).chans = b.chans := rfl
@[simp] theorem Block.modAge_ddr (b : Block) (w : Nat) (f : Ageing → Ageing) : (b.modAge w f).ddr = b.ddr := rfl
@[simp] theorem Block.modAge_host (b : Block) (w : Nat) (f : Ageing → Ageing) : (b.modAge w f).host = b.host := rfl
@[simp] theorem Block.modAge_admin (b : Block) (w : Nat) (f : Ageing → Ageing) : (b.modAge w f).admin = b.admin := rfl
@[simp] theorem Block.modAge_att (b : Block) (w : Nat) (f : Ageing → Ageing) : (b.modAge w f).att = b.att := rfl
@[simp] theorem Block.modAge_boot (b : Block) (w : Nat) (f : Ageing → Ageing) : (b.modAge w f).boot = b.boot := rfl
@[simp] theorem Block.modAge_flash (b : Block) (w : Nat) (f : Ageing → Ageing) : (b.modAge w f).flash = b.flash := rfl
@[simp] theorem Block.modAge_pwr (b : Block) (w : Nat) (f : Ageing → Ageing) : (b.modAge w f).pwr = b.pwr := rfl
@[simp] theorem Block.modAge_wty (b : Block) (w : Nat) (f : Ageing → Ageing) : (b.modAge w f).wty = b.wty := rfl
@[simp] theorem Block.modAge_link (b : Block) (w : Nat) (f : Ageing → Ageing) : (b.modAge w f).link = b.link := rfl
@[simp] theorem Block.setFences_now (b : Block) (m : FenceMap) : (b.setFences m).now = b.now := rfl
@[simp] theorem Block.setFences_nowHi (b : Block) (m : FenceMap) : (b.setFences m).nowHi = b.nowHi := rfl
@[simp] theorem Block.setFences_wrapped (b : Block) (m : FenceMap) : (b.setFences m).wrapped = b.wrapped := rfl
@[simp] theorem Block.setFences_timeFabric (b : Block) (m : FenceMap) : (b.setFences m).timeFabric = b.timeFabric := rfl
@[simp] theorem Block.setFences_timeLocked (b : Block) (m : FenceMap) : (b.setFences m).timeLocked = b.timeLocked := rfl
@[simp] theorem Block.setFences_holdover (b : Block) (m : FenceMap) : (b.setFences m).holdover = b.holdover := rfl
@[simp] theorem Block.setFences_bat (b : Block) (m : FenceMap) : (b.setFences m).bat = b.bat := rfl
@[simp] theorem Block.setFences_otp (b : Block) (m : FenceMap) : (b.setFences m).otp = b.otp := rfl
@[simp] theorem Block.setFences_tam (b : Block) (m : FenceMap) : (b.setFences m).tam = b.tam := rfl
@[simp] theorem Block.setFences_rng (b : Block) (m : FenceMap) : (b.setFences m).rng = b.rng := rfl
@[simp] theorem Block.setFences_kst (b : Block) (m : FenceMap) : (b.setFences m).kst = b.kst := rfl
@[simp] theorem Block.setFences_slices (b : Block) (m : FenceMap) : (b.setFences m).slices = b.slices := rfl
@[simp] theorem Block.setFences_jobs (b : Block) (m : FenceMap) : (b.setFences m).jobs = b.jobs := rfl
@[simp] theorem Block.setFences_dsp (b : Block) (m : FenceMap) : (b.setFences m).dsp = b.dsp := rfl
@[simp] theorem Block.setFences_wales (b : Block) (m : FenceMap) : (b.setFences m).wales = b.wales := rfl
@[simp] theorem Block.setFences_quads (b : Block) (m : FenceMap) : (b.setFences m).quads = b.quads := rfl
@[simp] theorem Block.setFences_chans (b : Block) (m : FenceMap) : (b.setFences m).chans = b.chans := rfl
@[simp] theorem Block.setFences_ddr (b : Block) (m : FenceMap) : (b.setFences m).ddr = b.ddr := rfl
@[simp] theorem Block.setFences_host (b : Block) (m : FenceMap) : (b.setFences m).host = b.host := rfl
@[simp] theorem Block.setFences_admin (b : Block) (m : FenceMap) : (b.setFences m).admin = b.admin := rfl
@[simp] theorem Block.setFences_att (b : Block) (m : FenceMap) : (b.setFences m).att = b.att := rfl
@[simp] theorem Block.setFences_boot (b : Block) (m : FenceMap) : (b.setFences m).boot = b.boot := rfl
@[simp] theorem Block.setFences_flash (b : Block) (m : FenceMap) : (b.setFences m).flash = b.flash := rfl
@[simp] theorem Block.setFences_pwr (b : Block) (m : FenceMap) : (b.setFences m).pwr = b.pwr := rfl
@[simp] theorem Block.setFences_wty (b : Block) (m : FenceMap) : (b.setFences m).wty = b.wty := rfl
@[simp] theorem Block.setFences_link (b : Block) (m : FenceMap) : (b.setFences m).link = b.link := rfl
@[simp] theorem Block.modSq_now (b : Block) (s : Nat) (n : Fin 8) (f : Sq → Sq) : (b.modSq s n f).now = b.now := rfl
@[simp] theorem Block.modSq_nowHi (b : Block) (s : Nat) (n : Fin 8) (f : Sq → Sq) : (b.modSq s n f).nowHi = b.nowHi := rfl
@[simp] theorem Block.modSq_wrapped (b : Block) (s : Nat) (n : Fin 8) (f : Sq → Sq) : (b.modSq s n f).wrapped = b.wrapped := rfl
@[simp] theorem Block.modSq_timeFabric (b : Block) (s : Nat) (n : Fin 8) (f : Sq → Sq) : (b.modSq s n f).timeFabric = b.timeFabric := rfl
@[simp] theorem Block.modSq_timeLocked (b : Block) (s : Nat) (n : Fin 8) (f : Sq → Sq) : (b.modSq s n f).timeLocked = b.timeLocked := rfl
@[simp] theorem Block.modSq_holdover (b : Block) (s : Nat) (n : Fin 8) (f : Sq → Sq) : (b.modSq s n f).holdover = b.holdover := rfl
@[simp] theorem Block.modSq_bat (b : Block) (s : Nat) (n : Fin 8) (f : Sq → Sq) : (b.modSq s n f).bat = b.bat := rfl
@[simp] theorem Block.modSq_otp (b : Block) (s : Nat) (n : Fin 8) (f : Sq → Sq) : (b.modSq s n f).otp = b.otp := rfl
@[simp] theorem Block.modSq_tam (b : Block) (s : Nat) (n : Fin 8) (f : Sq → Sq) : (b.modSq s n f).tam = b.tam := rfl
@[simp] theorem Block.modSq_flt (b : Block) (s : Nat) (n : Fin 8) (f : Sq → Sq) : (b.modSq s n f).flt = b.flt := rfl
@[simp] theorem Block.modSq_rng (b : Block) (s : Nat) (n : Fin 8) (f : Sq → Sq) : (b.modSq s n f).rng = b.rng := rfl
@[simp] theorem Block.modSq_kst (b : Block) (s : Nat) (n : Fin 8) (f : Sq → Sq) : (b.modSq s n f).kst = b.kst := rfl
@[simp] theorem Block.modSq_jobs (b : Block) (s : Nat) (n : Fin 8) (f : Sq → Sq) : (b.modSq s n f).jobs = b.jobs := rfl
@[simp] theorem Block.modSq_dsp (b : Block) (s : Nat) (n : Fin 8) (f : Sq → Sq) : (b.modSq s n f).dsp = b.dsp := rfl
@[simp] theorem Block.modSq_wales (b : Block) (s : Nat) (n : Fin 8) (f : Sq → Sq) : (b.modSq s n f).wales = b.wales := rfl
@[simp] theorem Block.modSq_quads (b : Block) (s : Nat) (n : Fin 8) (f : Sq → Sq) : (b.modSq s n f).quads = b.quads := rfl
@[simp] theorem Block.modSq_chans (b : Block) (s : Nat) (n : Fin 8) (f : Sq → Sq) : (b.modSq s n f).chans = b.chans := rfl
@[simp] theorem Block.modSq_ddr (b : Block) (s : Nat) (n : Fin 8) (f : Sq → Sq) : (b.modSq s n f).ddr = b.ddr := rfl
@[simp] theorem Block.modSq_host (b : Block) (s : Nat) (n : Fin 8) (f : Sq → Sq) : (b.modSq s n f).host = b.host := rfl
@[simp] theorem Block.modSq_admin (b : Block) (s : Nat) (n : Fin 8) (f : Sq → Sq) : (b.modSq s n f).admin = b.admin := rfl
@[simp] theorem Block.modSq_att (b : Block) (s : Nat) (n : Fin 8) (f : Sq → Sq) : (b.modSq s n f).att = b.att := rfl
@[simp] theorem Block.modSq_boot (b : Block) (s : Nat) (n : Fin 8) (f : Sq → Sq) : (b.modSq s n f).boot = b.boot := rfl
@[simp] theorem Block.modSq_flash (b : Block) (s : Nat) (n : Fin 8) (f : Sq → Sq) : (b.modSq s n f).flash = b.flash := rfl
@[simp] theorem Block.modSq_pwr (b : Block) (s : Nat) (n : Fin 8) (f : Sq → Sq) : (b.modSq s n f).pwr = b.pwr := rfl
@[simp] theorem Block.modSq_wty (b : Block) (s : Nat) (n : Fin 8) (f : Sq → Sq) : (b.modSq s n f).wty = b.wty := rfl
@[simp] theorem Block.modSq_link (b : Block) (s : Nat) (n : Fin 8) (f : Sq → Sq) : (b.modSq s n f).link = b.link := rfl
@[simp] theorem Block.modCq_now (b : Block) (s : Nat) (n : Fin 8) (f : Cq → Cq) : (b.modCq s n f).now = b.now := rfl
@[simp] theorem Block.modCq_nowHi (b : Block) (s : Nat) (n : Fin 8) (f : Cq → Cq) : (b.modCq s n f).nowHi = b.nowHi := rfl
@[simp] theorem Block.modCq_wrapped (b : Block) (s : Nat) (n : Fin 8) (f : Cq → Cq) : (b.modCq s n f).wrapped = b.wrapped := rfl
@[simp] theorem Block.modCq_timeFabric (b : Block) (s : Nat) (n : Fin 8) (f : Cq → Cq) : (b.modCq s n f).timeFabric = b.timeFabric := rfl
@[simp] theorem Block.modCq_timeLocked (b : Block) (s : Nat) (n : Fin 8) (f : Cq → Cq) : (b.modCq s n f).timeLocked = b.timeLocked := rfl
@[simp] theorem Block.modCq_holdover (b : Block) (s : Nat) (n : Fin 8) (f : Cq → Cq) : (b.modCq s n f).holdover = b.holdover := rfl
@[simp] theorem Block.modCq_bat (b : Block) (s : Nat) (n : Fin 8) (f : Cq → Cq) : (b.modCq s n f).bat = b.bat := rfl
@[simp] theorem Block.modCq_otp (b : Block) (s : Nat) (n : Fin 8) (f : Cq → Cq) : (b.modCq s n f).otp = b.otp := rfl
@[simp] theorem Block.modCq_tam (b : Block) (s : Nat) (n : Fin 8) (f : Cq → Cq) : (b.modCq s n f).tam = b.tam := rfl
@[simp] theorem Block.modCq_flt (b : Block) (s : Nat) (n : Fin 8) (f : Cq → Cq) : (b.modCq s n f).flt = b.flt := rfl
@[simp] theorem Block.modCq_rng (b : Block) (s : Nat) (n : Fin 8) (f : Cq → Cq) : (b.modCq s n f).rng = b.rng := rfl
@[simp] theorem Block.modCq_kst (b : Block) (s : Nat) (n : Fin 8) (f : Cq → Cq) : (b.modCq s n f).kst = b.kst := rfl
@[simp] theorem Block.modCq_jobs (b : Block) (s : Nat) (n : Fin 8) (f : Cq → Cq) : (b.modCq s n f).jobs = b.jobs := rfl
@[simp] theorem Block.modCq_dsp (b : Block) (s : Nat) (n : Fin 8) (f : Cq → Cq) : (b.modCq s n f).dsp = b.dsp := rfl
@[simp] theorem Block.modCq_wales (b : Block) (s : Nat) (n : Fin 8) (f : Cq → Cq) : (b.modCq s n f).wales = b.wales := rfl
@[simp] theorem Block.modCq_quads (b : Block) (s : Nat) (n : Fin 8) (f : Cq → Cq) : (b.modCq s n f).quads = b.quads := rfl
@[simp] theorem Block.modCq_chans (b : Block) (s : Nat) (n : Fin 8) (f : Cq → Cq) : (b.modCq s n f).chans = b.chans := rfl
@[simp] theorem Block.modCq_ddr (b : Block) (s : Nat) (n : Fin 8) (f : Cq → Cq) : (b.modCq s n f).ddr = b.ddr := rfl
@[simp] theorem Block.modCq_host (b : Block) (s : Nat) (n : Fin 8) (f : Cq → Cq) : (b.modCq s n f).host = b.host := rfl
@[simp] theorem Block.modCq_admin (b : Block) (s : Nat) (n : Fin 8) (f : Cq → Cq) : (b.modCq s n f).admin = b.admin := rfl
@[simp] theorem Block.modCq_att (b : Block) (s : Nat) (n : Fin 8) (f : Cq → Cq) : (b.modCq s n f).att = b.att := rfl
@[simp] theorem Block.modCq_boot (b : Block) (s : Nat) (n : Fin 8) (f : Cq → Cq) : (b.modCq s n f).boot = b.boot := rfl
@[simp] theorem Block.modCq_flash (b : Block) (s : Nat) (n : Fin 8) (f : Cq → Cq) : (b.modCq s n f).flash = b.flash := rfl
@[simp] theorem Block.modCq_pwr (b : Block) (s : Nat) (n : Fin 8) (f : Cq → Cq) : (b.modCq s n f).pwr = b.pwr := rfl
@[simp] theorem Block.modCq_wty (b : Block) (s : Nat) (n : Fin 8) (f : Cq → Cq) : (b.modCq s n f).wty = b.wty := rfl
@[simp] theorem Block.modCq_link (b : Block) (s : Nat) (n : Fin 8) (f : Cq → Cq) : (b.modCq s n f).link = b.link := rfl
@[simp] theorem Block.setXfer_now (b : Block) (c : Nat) (x : Xfer) : (b.setXfer c x).now = b.now := rfl
@[simp] theorem Block.setXfer_nowHi (b : Block) (c : Nat) (x : Xfer) : (b.setXfer c x).nowHi = b.nowHi := rfl
@[simp] theorem Block.setXfer_wrapped (b : Block) (c : Nat) (x : Xfer) : (b.setXfer c x).wrapped = b.wrapped := rfl
@[simp] theorem Block.setXfer_timeFabric (b : Block) (c : Nat) (x : Xfer) : (b.setXfer c x).timeFabric = b.timeFabric := rfl
@[simp] theorem Block.setXfer_timeLocked (b : Block) (c : Nat) (x : Xfer) : (b.setXfer c x).timeLocked = b.timeLocked := rfl
@[simp] theorem Block.setXfer_holdover (b : Block) (c : Nat) (x : Xfer) : (b.setXfer c x).holdover = b.holdover := rfl
@[simp] theorem Block.setXfer_bat (b : Block) (c : Nat) (x : Xfer) : (b.setXfer c x).bat = b.bat := rfl
@[simp] theorem Block.setXfer_otp (b : Block) (c : Nat) (x : Xfer) : (b.setXfer c x).otp = b.otp := rfl
@[simp] theorem Block.setXfer_tam (b : Block) (c : Nat) (x : Xfer) : (b.setXfer c x).tam = b.tam := rfl
@[simp] theorem Block.setXfer_flt (b : Block) (c : Nat) (x : Xfer) : (b.setXfer c x).flt = b.flt := rfl
@[simp] theorem Block.setXfer_rng (b : Block) (c : Nat) (x : Xfer) : (b.setXfer c x).rng = b.rng := rfl
@[simp] theorem Block.setXfer_kst (b : Block) (c : Nat) (x : Xfer) : (b.setXfer c x).kst = b.kst := rfl
@[simp] theorem Block.setXfer_slices (b : Block) (c : Nat) (x : Xfer) : (b.setXfer c x).slices = b.slices := rfl
@[simp] theorem Block.setXfer_jobs (b : Block) (c : Nat) (x : Xfer) : (b.setXfer c x).jobs = b.jobs := rfl
@[simp] theorem Block.setXfer_dsp (b : Block) (c : Nat) (x : Xfer) : (b.setXfer c x).dsp = b.dsp := rfl
@[simp] theorem Block.setXfer_wales (b : Block) (c : Nat) (x : Xfer) : (b.setXfer c x).wales = b.wales := rfl
@[simp] theorem Block.setXfer_quads (b : Block) (c : Nat) (x : Xfer) : (b.setXfer c x).quads = b.quads := rfl
@[simp] theorem Block.setXfer_ddr (b : Block) (c : Nat) (x : Xfer) : (b.setXfer c x).ddr = b.ddr := rfl
@[simp] theorem Block.setXfer_host (b : Block) (c : Nat) (x : Xfer) : (b.setXfer c x).host = b.host := rfl
@[simp] theorem Block.setXfer_admin (b : Block) (c : Nat) (x : Xfer) : (b.setXfer c x).admin = b.admin := rfl
@[simp] theorem Block.setXfer_att (b : Block) (c : Nat) (x : Xfer) : (b.setXfer c x).att = b.att := rfl
@[simp] theorem Block.setXfer_boot (b : Block) (c : Nat) (x : Xfer) : (b.setXfer c x).boot = b.boot := rfl
@[simp] theorem Block.setXfer_flash (b : Block) (c : Nat) (x : Xfer) : (b.setXfer c x).flash = b.flash := rfl
@[simp] theorem Block.setXfer_pwr (b : Block) (c : Nat) (x : Xfer) : (b.setXfer c x).pwr = b.pwr := rfl
@[simp] theorem Block.setXfer_wty (b : Block) (c : Nat) (x : Xfer) : (b.setXfer c x).wty = b.wty := rfl
@[simp] theorem Block.setXfer_link (b : Block) (c : Nat) (x : Xfer) : (b.setXfer c x).link = b.link := rfl
@[simp] theorem Block.touchQuiet_now (b : Block) (q : Nat) : (b.touchQuiet q).now = b.now := rfl
@[simp] theorem Block.touchQuiet_nowHi (b : Block) (q : Nat) : (b.touchQuiet q).nowHi = b.nowHi := rfl
@[simp] theorem Block.touchQuiet_wrapped (b : Block) (q : Nat) : (b.touchQuiet q).wrapped = b.wrapped := rfl
@[simp] theorem Block.touchQuiet_timeFabric (b : Block) (q : Nat) : (b.touchQuiet q).timeFabric = b.timeFabric := rfl
@[simp] theorem Block.touchQuiet_timeLocked (b : Block) (q : Nat) : (b.touchQuiet q).timeLocked = b.timeLocked := rfl
@[simp] theorem Block.touchQuiet_holdover (b : Block) (q : Nat) : (b.touchQuiet q).holdover = b.holdover := rfl
@[simp] theorem Block.touchQuiet_bat (b : Block) (q : Nat) : (b.touchQuiet q).bat = b.bat := rfl
@[simp] theorem Block.touchQuiet_otp (b : Block) (q : Nat) : (b.touchQuiet q).otp = b.otp := rfl
@[simp] theorem Block.touchQuiet_tam (b : Block) (q : Nat) : (b.touchQuiet q).tam = b.tam := rfl
@[simp] theorem Block.touchQuiet_flt (b : Block) (q : Nat) : (b.touchQuiet q).flt = b.flt := rfl
@[simp] theorem Block.touchQuiet_rng (b : Block) (q : Nat) : (b.touchQuiet q).rng = b.rng := rfl
@[simp] theorem Block.touchQuiet_kst (b : Block) (q : Nat) : (b.touchQuiet q).kst = b.kst := rfl
@[simp] theorem Block.touchQuiet_slices (b : Block) (q : Nat) : (b.touchQuiet q).slices = b.slices := rfl
@[simp] theorem Block.touchQuiet_jobs (b : Block) (q : Nat) : (b.touchQuiet q).jobs = b.jobs := rfl
@[simp] theorem Block.touchQuiet_dsp (b : Block) (q : Nat) : (b.touchQuiet q).dsp = b.dsp := rfl
@[simp] theorem Block.touchQuiet_wales (b : Block) (q : Nat) : (b.touchQuiet q).wales = b.wales := rfl
@[simp] theorem Block.touchQuiet_chans (b : Block) (q : Nat) : (b.touchQuiet q).chans = b.chans := rfl
@[simp] theorem Block.touchQuiet_ddr (b : Block) (q : Nat) : (b.touchQuiet q).ddr = b.ddr := rfl
@[simp] theorem Block.touchQuiet_host (b : Block) (q : Nat) : (b.touchQuiet q).host = b.host := rfl
@[simp] theorem Block.touchQuiet_admin (b : Block) (q : Nat) : (b.touchQuiet q).admin = b.admin := rfl
@[simp] theorem Block.touchQuiet_att (b : Block) (q : Nat) : (b.touchQuiet q).att = b.att := rfl
@[simp] theorem Block.touchQuiet_boot (b : Block) (q : Nat) : (b.touchQuiet q).boot = b.boot := rfl
@[simp] theorem Block.touchQuiet_flash (b : Block) (q : Nat) : (b.touchQuiet q).flash = b.flash := rfl
@[simp] theorem Block.touchQuiet_pwr (b : Block) (q : Nat) : (b.touchQuiet q).pwr = b.pwr := rfl
@[simp] theorem Block.touchQuiet_wty (b : Block) (q : Nat) : (b.touchQuiet q).wty = b.wty := rfl
@[simp] theorem Block.touchQuiet_link (b : Block) (q : Nat) : (b.touchQuiet q).link = b.link := rfl
@[simp] theorem Block.setDeficit_now (b : Block) (l s v : Nat) : (b.setDeficit l s v).now = b.now := rfl
@[simp] theorem Block.setDeficit_nowHi (b : Block) (l s v : Nat) : (b.setDeficit l s v).nowHi = b.nowHi := rfl
@[simp] theorem Block.setDeficit_wrapped (b : Block) (l s v : Nat) : (b.setDeficit l s v).wrapped = b.wrapped := rfl
@[simp] theorem Block.setDeficit_timeFabric (b : Block) (l s v : Nat) : (b.setDeficit l s v).timeFabric = b.timeFabric := rfl
@[simp] theorem Block.setDeficit_timeLocked (b : Block) (l s v : Nat) : (b.setDeficit l s v).timeLocked = b.timeLocked := rfl
@[simp] theorem Block.setDeficit_holdover (b : Block) (l s v : Nat) : (b.setDeficit l s v).holdover = b.holdover := rfl
@[simp] theorem Block.setDeficit_bat (b : Block) (l s v : Nat) : (b.setDeficit l s v).bat = b.bat := rfl
@[simp] theorem Block.setDeficit_otp (b : Block) (l s v : Nat) : (b.setDeficit l s v).otp = b.otp := rfl
@[simp] theorem Block.setDeficit_tam (b : Block) (l s v : Nat) : (b.setDeficit l s v).tam = b.tam := rfl
@[simp] theorem Block.setDeficit_flt (b : Block) (l s v : Nat) : (b.setDeficit l s v).flt = b.flt := rfl
@[simp] theorem Block.setDeficit_rng (b : Block) (l s v : Nat) : (b.setDeficit l s v).rng = b.rng := rfl
@[simp] theorem Block.setDeficit_kst (b : Block) (l s v : Nat) : (b.setDeficit l s v).kst = b.kst := rfl
@[simp] theorem Block.setDeficit_slices (b : Block) (l s v : Nat) : (b.setDeficit l s v).slices = b.slices := rfl
@[simp] theorem Block.setDeficit_jobs (b : Block) (l s v : Nat) : (b.setDeficit l s v).jobs = b.jobs := rfl
@[simp] theorem Block.setDeficit_wales (b : Block) (l s v : Nat) : (b.setDeficit l s v).wales = b.wales := rfl
@[simp] theorem Block.setDeficit_quads (b : Block) (l s v : Nat) : (b.setDeficit l s v).quads = b.quads := rfl
@[simp] theorem Block.setDeficit_chans (b : Block) (l s v : Nat) : (b.setDeficit l s v).chans = b.chans := rfl
@[simp] theorem Block.setDeficit_ddr (b : Block) (l s v : Nat) : (b.setDeficit l s v).ddr = b.ddr := rfl
@[simp] theorem Block.setDeficit_host (b : Block) (l s v : Nat) : (b.setDeficit l s v).host = b.host := rfl
@[simp] theorem Block.setDeficit_admin (b : Block) (l s v : Nat) : (b.setDeficit l s v).admin = b.admin := rfl
@[simp] theorem Block.setDeficit_att (b : Block) (l s v : Nat) : (b.setDeficit l s v).att = b.att := rfl
@[simp] theorem Block.setDeficit_boot (b : Block) (l s v : Nat) : (b.setDeficit l s v).boot = b.boot := rfl
@[simp] theorem Block.setDeficit_flash (b : Block) (l s v : Nat) : (b.setDeficit l s v).flash = b.flash := rfl
@[simp] theorem Block.setDeficit_pwr (b : Block) (l s v : Nat) : (b.setDeficit l s v).pwr = b.pwr := rfl
@[simp] theorem Block.setDeficit_wty (b : Block) (l s v : Nat) : (b.setDeficit l s v).wty = b.wty := rfl
@[simp] theorem Block.setDeficit_link (b : Block) (l s v : Nat) : (b.setDeficit l s v).link = b.link := rfl
@[simp] theorem Block.setPointer_now (b : Block) (l : Nat) (p : Pointer) : (b.setPointer l p).now = b.now := rfl
@[simp] theorem Block.setPointer_nowHi (b : Block) (l : Nat) (p : Pointer) : (b.setPointer l p).nowHi = b.nowHi := rfl
@[simp] theorem Block.setPointer_wrapped (b : Block) (l : Nat) (p : Pointer) : (b.setPointer l p).wrapped = b.wrapped := rfl
@[simp] theorem Block.setPointer_timeFabric (b : Block) (l : Nat) (p : Pointer) : (b.setPointer l p).timeFabric = b.timeFabric := rfl
@[simp] theorem Block.setPointer_timeLocked (b : Block) (l : Nat) (p : Pointer) : (b.setPointer l p).timeLocked = b.timeLocked := rfl
@[simp] theorem Block.setPointer_holdover (b : Block) (l : Nat) (p : Pointer) : (b.setPointer l p).holdover = b.holdover := rfl
@[simp] theorem Block.setPointer_bat (b : Block) (l : Nat) (p : Pointer) : (b.setPointer l p).bat = b.bat := rfl
@[simp] theorem Block.setPointer_otp (b : Block) (l : Nat) (p : Pointer) : (b.setPointer l p).otp = b.otp := rfl
@[simp] theorem Block.setPointer_tam (b : Block) (l : Nat) (p : Pointer) : (b.setPointer l p).tam = b.tam := rfl
@[simp] theorem Block.setPointer_flt (b : Block) (l : Nat) (p : Pointer) : (b.setPointer l p).flt = b.flt := rfl
@[simp] theorem Block.setPointer_rng (b : Block) (l : Nat) (p : Pointer) : (b.setPointer l p).rng = b.rng := rfl
@[simp] theorem Block.setPointer_kst (b : Block) (l : Nat) (p : Pointer) : (b.setPointer l p).kst = b.kst := rfl
@[simp] theorem Block.setPointer_slices (b : Block) (l : Nat) (p : Pointer) : (b.setPointer l p).slices = b.slices := rfl
@[simp] theorem Block.setPointer_jobs (b : Block) (l : Nat) (p : Pointer) : (b.setPointer l p).jobs = b.jobs := rfl
@[simp] theorem Block.setPointer_wales (b : Block) (l : Nat) (p : Pointer) : (b.setPointer l p).wales = b.wales := rfl
@[simp] theorem Block.setPointer_quads (b : Block) (l : Nat) (p : Pointer) : (b.setPointer l p).quads = b.quads := rfl
@[simp] theorem Block.setPointer_chans (b : Block) (l : Nat) (p : Pointer) : (b.setPointer l p).chans = b.chans := rfl
@[simp] theorem Block.setPointer_ddr (b : Block) (l : Nat) (p : Pointer) : (b.setPointer l p).ddr = b.ddr := rfl
@[simp] theorem Block.setPointer_host (b : Block) (l : Nat) (p : Pointer) : (b.setPointer l p).host = b.host := rfl
@[simp] theorem Block.setPointer_admin (b : Block) (l : Nat) (p : Pointer) : (b.setPointer l p).admin = b.admin := rfl
@[simp] theorem Block.setPointer_att (b : Block) (l : Nat) (p : Pointer) : (b.setPointer l p).att = b.att := rfl
@[simp] theorem Block.setPointer_boot (b : Block) (l : Nat) (p : Pointer) : (b.setPointer l p).boot = b.boot := rfl
@[simp] theorem Block.setPointer_flash (b : Block) (l : Nat) (p : Pointer) : (b.setPointer l p).flash = b.flash := rfl
@[simp] theorem Block.setPointer_pwr (b : Block) (l : Nat) (p : Pointer) : (b.setPointer l p).pwr = b.pwr := rfl
@[simp] theorem Block.setPointer_wty (b : Block) (l : Nat) (p : Pointer) : (b.setPointer l p).wty = b.wty := rfl
@[simp] theorem Block.setPointer_link (b : Block) (l : Nat) (p : Pointer) : (b.setPointer l p).link = b.link := rfl
@[simp] theorem Block.setTime_nowHi (b : Block) (e : W64) : (b.setTime e).nowHi = b.nowHi := rfl
@[simp] theorem Block.setTime_timeFabric (b : Block) (e : W64) : (b.setTime e).timeFabric = b.timeFabric := rfl
@[simp] theorem Block.setTime_timeLocked (b : Block) (e : W64) : (b.setTime e).timeLocked = b.timeLocked := rfl
@[simp] theorem Block.setTime_holdover (b : Block) (e : W64) : (b.setTime e).holdover = b.holdover := rfl
@[simp] theorem Block.setTime_otp (b : Block) (e : W64) : (b.setTime e).otp = b.otp := rfl
@[simp] theorem Block.setTime_tam (b : Block) (e : W64) : (b.setTime e).tam = b.tam := rfl
@[simp] theorem Block.setTime_flt (b : Block) (e : W64) : (b.setTime e).flt = b.flt := rfl
@[simp] theorem Block.setTime_rng (b : Block) (e : W64) : (b.setTime e).rng = b.rng := rfl
@[simp] theorem Block.setTime_kst (b : Block) (e : W64) : (b.setTime e).kst = b.kst := rfl
@[simp] theorem Block.setTime_slices (b : Block) (e : W64) : (b.setTime e).slices = b.slices := rfl
@[simp] theorem Block.setTime_jobs (b : Block) (e : W64) : (b.setTime e).jobs = b.jobs := rfl
@[simp] theorem Block.setTime_dsp (b : Block) (e : W64) : (b.setTime e).dsp = b.dsp := rfl
@[simp] theorem Block.setTime_quads (b : Block) (e : W64) : (b.setTime e).quads = b.quads := rfl
@[simp] theorem Block.setTime_chans (b : Block) (e : W64) : (b.setTime e).chans = b.chans := rfl
@[simp] theorem Block.setTime_ddr (b : Block) (e : W64) : (b.setTime e).ddr = b.ddr := rfl
@[simp] theorem Block.setTime_host (b : Block) (e : W64) : (b.setTime e).host = b.host := rfl
@[simp] theorem Block.setTime_admin (b : Block) (e : W64) : (b.setTime e).admin = b.admin := rfl
@[simp] theorem Block.setTime_att (b : Block) (e : W64) : (b.setTime e).att = b.att := rfl
@[simp] theorem Block.setTime_boot (b : Block) (e : W64) : (b.setTime e).boot = b.boot := rfl
@[simp] theorem Block.setTime_flash (b : Block) (e : W64) : (b.setTime e).flash = b.flash := rfl
@[simp] theorem Block.setTime_pwr (b : Block) (e : W64) : (b.setTime e).pwr = b.pwr := rfl
@[simp] theorem Block.setTime_wty (b : Block) (e : W64) : (b.setTime e).wty = b.wty := rfl
@[simp] theorem Block.setTime_link (b : Block) (e : W64) : (b.setTime e).link = b.link := rfl
@[simp] theorem Block.advanceTo_nowHi (b : Block) (t : W64) (d : Nat) : (b.advanceTo t d).nowHi = b.nowHi := by unfold Block.advanceTo; split <;> rfl
@[simp] theorem Block.advanceTo_timeFabric (b : Block) (t : W64) (d : Nat) : (b.advanceTo t d).timeFabric = b.timeFabric := by unfold Block.advanceTo; split <;> rfl
@[simp] theorem Block.advanceTo_timeLocked (b : Block) (t : W64) (d : Nat) : (b.advanceTo t d).timeLocked = b.timeLocked := by unfold Block.advanceTo; split <;> rfl
@[simp] theorem Block.advanceTo_holdover (b : Block) (t : W64) (d : Nat) : (b.advanceTo t d).holdover = b.holdover := by unfold Block.advanceTo; split <;> rfl
@[simp] theorem Block.advanceTo_otp (b : Block) (t : W64) (d : Nat) : (b.advanceTo t d).otp = b.otp := by unfold Block.advanceTo; split <;> rfl
@[simp] theorem Block.advanceTo_tam (b : Block) (t : W64) (d : Nat) : (b.advanceTo t d).tam = b.tam := by unfold Block.advanceTo; split <;> rfl
@[simp] theorem Block.advanceTo_flt (b : Block) (t : W64) (d : Nat) : (b.advanceTo t d).flt = b.flt := by unfold Block.advanceTo; split <;> rfl
@[simp] theorem Block.advanceTo_rng (b : Block) (t : W64) (d : Nat) : (b.advanceTo t d).rng = b.rng := by unfold Block.advanceTo; split <;> rfl
@[simp] theorem Block.advanceTo_kst (b : Block) (t : W64) (d : Nat) : (b.advanceTo t d).kst = b.kst := by unfold Block.advanceTo; split <;> rfl
@[simp] theorem Block.advanceTo_slices (b : Block) (t : W64) (d : Nat) : (b.advanceTo t d).slices = b.slices := by unfold Block.advanceTo; split <;> rfl
@[simp] theorem Block.advanceTo_jobs (b : Block) (t : W64) (d : Nat) : (b.advanceTo t d).jobs = b.jobs := by unfold Block.advanceTo; split <;> rfl
@[simp] theorem Block.advanceTo_dsp (b : Block) (t : W64) (d : Nat) : (b.advanceTo t d).dsp = b.dsp := by unfold Block.advanceTo; split <;> rfl
@[simp] theorem Block.advanceTo_quads (b : Block) (t : W64) (d : Nat) : (b.advanceTo t d).quads = b.quads := by unfold Block.advanceTo; split <;> rfl
@[simp] theorem Block.advanceTo_chans (b : Block) (t : W64) (d : Nat) : (b.advanceTo t d).chans = b.chans := by unfold Block.advanceTo; split <;> rfl
@[simp] theorem Block.advanceTo_ddr (b : Block) (t : W64) (d : Nat) : (b.advanceTo t d).ddr = b.ddr := by unfold Block.advanceTo; split <;> rfl
@[simp] theorem Block.advanceTo_host (b : Block) (t : W64) (d : Nat) : (b.advanceTo t d).host = b.host := by unfold Block.advanceTo; split <;> rfl
@[simp] theorem Block.advanceTo_admin (b : Block) (t : W64) (d : Nat) : (b.advanceTo t d).admin = b.admin := by unfold Block.advanceTo; split <;> rfl
@[simp] theorem Block.advanceTo_att (b : Block) (t : W64) (d : Nat) : (b.advanceTo t d).att = b.att := by unfold Block.advanceTo; split <;> rfl
@[simp] theorem Block.advanceTo_boot (b : Block) (t : W64) (d : Nat) : (b.advanceTo t d).boot = b.boot := by unfold Block.advanceTo; split <;> rfl
@[simp] theorem Block.advanceTo_flash (b : Block) (t : W64) (d : Nat) : (b.advanceTo t d).flash = b.flash := by unfold Block.advanceTo; split <;> rfl
@[simp] theorem Block.advanceTo_pwr (b : Block) (t : W64) (d : Nat) : (b.advanceTo t d).pwr = b.pwr := by unfold Block.advanceTo; split <;> rfl
@[simp] theorem Block.advanceTo_wty (b : Block) (t : W64) (d : Nat) : (b.advanceTo t d).wty = b.wty := by unfold Block.advanceTo; split <;> rfl
@[simp] theorem Block.advanceTo_link (b : Block) (t : W64) (d : Nat) : (b.advanceTo t d).link = b.link := by unfold Block.advanceTo; split <;> rfl
@[simp] theorem Block.setTime_now (b : Block) (e : W64) : (b.setTime e).now = e := rfl

/-! ### The updates of a wale -/

@[simp] theorem Wale.setReg_st (x : Wale) (r : Reg) (v : W64) (s : Bool) : (x.setReg r v s).st = x.st := rfl
@[simp] theorem Wale.setReg_waking (x : Wale) (r : Reg) (v : W64) (s : Bool) : (x.setReg r v s).waking = x.waking := rfl
@[simp] theorem Wale.setReg_paired (x : Wale) (r : Reg) (v : W64) (s : Bool) : (x.setReg r v s).paired = x.paired := rfl
@[simp] theorem Wale.setReg_lead (x : Wale) (r : Reg) (v : W64) (s : Bool) : (x.setReg r v s).lead = x.lead := rfl
@[simp] theorem Wale.setReg_partner (x : Wale) (r : Reg) (v : W64) (s : Bool) : (x.setReg r v s).partner = x.partner := rfl
@[simp] theorem Wale.setReg_levelOn (x : Wale) (r : Reg) (v : W64) (s : Bool) : (x.setReg r v s).levelOn = x.levelOn := rfl
@[simp] theorem Wale.setReg_order (x : Wale) (r : Reg) (v : W64) (s : Bool) : (x.setReg r v s).order = x.order := rfl
@[simp] theorem Wale.setReg_rclass (x : Wale) (r : Reg) (v : W64) (s : Bool) : (x.setReg r v s).rclass = x.rclass := rfl
@[simp] theorem Wale.setReg_timeRed (x : Wale) (r : Reg) (v : W64) (s : Bool) : (x.setReg r v s).timeRed = x.timeRed := rfl
@[simp] theorem Wale.setReg_slotLen (x : Wale) (r : Reg) (v : W64) (s : Bool) : (x.setReg r v s).slotLen = x.slotLen := rfl
@[simp] theorem Wale.setReg_slotPend (x : Wale) (r : Reg) (v : W64) (s : Bool) : (x.setReg r v s).slotPend = x.slotPend := rfl
@[simp] theorem Wale.setReg_csb (x : Wale) (r : Reg) (v : W64) (s : Bool) : (x.setReg r v s).csb = x.csb := rfl
@[simp] theorem Wale.setReg_csbShadow (x : Wale) (r : Reg) (v : W64) (s : Bool) : (x.setReg r v s).csbShadow = x.csbShadow := rfl
@[simp] theorem Wale.setReg_maker (x : Wale) (r : Reg) (v : W64) (s : Bool) : (x.setReg r v s).maker = x.maker := rfl
@[simp] theorem Wale.setReg_custOk (x : Wale) (r : Reg) (v : W64) (s : Bool) : (x.setReg r v s).custOk = x.custOk := rfl
@[simp] theorem Wale.setReg_ustore (x : Wale) (r : Reg) (v : W64) (s : Bool) : (x.setReg r v s).ustore = x.ustore := rfl
@[simp] theorem Wale.setReg_nstore (x : Wale) (r : Reg) (v : W64) (s : Bool) : (x.setReg r v s).nstore = x.nstore := rfl
@[simp] theorem Wale.setReg_job (x : Wale) (r : Reg) (v : W64) (s : Bool) : (x.setReg r v s).job = x.job := rfl
@[simp] theorem Wale.setReg_runSlice (x : Wale) (r : Reg) (v : W64) (s : Bool) : (x.setReg r v s).runSlice = x.runSlice := rfl
@[simp] theorem Wale.setReg_part (x : Wale) (r : Reg) (v : W64) (s : Bool) : (x.setReg r v s).part = x.part := rfl
@[simp] theorem Wale.setReg_touched (x : Wale) (r : Reg) (v : W64) (s : Bool) : (x.setReg r v s).touched = x.touched := rfl
@[simp] theorem Wale.setReg_second (x : Wale) (r : Reg) (v : W64) (s : Bool) : (x.setReg r v s).second = x.second := rfl
@[simp] theorem Wale.setReg_opmem (x : Wale) (r : Reg) (v : W64) (s : Bool) : (x.setReg r v s).opmem = x.opmem := rfl
@[simp] theorem Wale.setReg_sTags (x : Wale) (r : Reg) (v : W64) (s : Bool) : (x.setReg r v s).sTags = x.sTags := rfl
@[simp] theorem Wale.setReg_trapWanted (x : Wale) (r : Reg) (v : W64) (s : Bool) : (x.setReg r v s).trapWanted = x.trapWanted := rfl
@[simp] theorem Wale.setReg_trapAt (x : Wale) (r : Reg) (v : W64) (s : Bool) : (x.setReg r v s).trapAt = x.trapAt := rfl
@[simp] theorem Wale.setReg_grantedAt (x : Wale) (r : Reg) (v : W64) (s : Bool) : (x.setReg r v s).grantedAt = x.grantedAt := rfl
@[simp] theorem Wale.setReg_runFrom (x : Wale) (r : Reg) (v : W64) (s : Bool) : (x.setReg r v s).runFrom = x.runFrom := rfl
@[simp] theorem Wale.setReg_runAt (x : Wale) (r : Reg) (v : W64) (s : Bool) : (x.setReg r v s).runAt = x.runAt := rfl
@[simp] theorem Wale.setReg_idleSince (x : Wale) (r : Reg) (v : W64) (s : Bool) : (x.setReg r v s).idleSince = x.idleSince := rfl
@[simp] theorem Wale.setReg_drbgSeeded (x : Wale) (r : Reg) (v : W64) (s : Bool) : (x.setReg r v s).drbgSeeded = x.drbgSeeded := rfl
@[simp] theorem Wale.setReg_drbgLog (x : Wale) (r : Reg) (v : W64) (s : Bool) : (x.setReg r v s).drbgLog = x.drbgLog := rfl
@[simp] theorem Wale.setReg_drbgStretch (x : Wale) (r : Reg) (v : W64) (s : Bool) : (x.setReg r v s).drbgStretch = x.drbgStretch := rfl
@[simp] theorem Wale.setReg_drbgWant (x : Wale) (r : Reg) (v : W64) (s : Bool) : (x.setReg r v s).drbgWant = x.drbgWant := rfl
@[simp] theorem Wale.setReg_drbgUrgent (x : Wale) (r : Reg) (v : W64) (s : Bool) : (x.setReg r v s).drbgUrgent = x.drbgUrgent := rfl
@[simp] theorem Wale.setReg_drbgSent (x : Wale) (r : Reg) (v : W64) (s : Bool) : (x.setReg r v s).drbgSent = x.drbgSent := rfl
@[simp] theorem Wale.setReg_drbgOut (x : Wale) (r : Reg) (v : W64) (s : Bool) : (x.setReg r v s).drbgOut = x.drbgOut := rfl
@[simp] theorem Wale.setReg_age (x : Wale) (r : Reg) (v : W64) (s : Bool) : (x.setReg r v s).age = x.age := rfl
@[simp] theorem Wale.setReg_micro_pc (x : Wale) (r : Reg) (v : W64) (s : Bool) : (x.setReg r v s).micro.pc = x.micro.pc := rfl
@[simp] theorem Wale.setReg_micro_customer (x : Wale) (r : Reg) (v : W64) (s : Bool) : (x.setReg r v s).micro.customer = x.micro.customer := rfl
@[simp] theorem Wale.setReg_micro_issuing (x : Wale) (r : Reg) (v : W64) (s : Bool) : (x.setReg r v s).micro.issuing = x.micro.issuing := rfl
@[simp] theorem Wale.setReg_micro_stack (x : Wale) (r : Reg) (v : W64) (s : Bool) : (x.setReg r v s).micro.stack = x.micro.stack := rfl
@[simp] theorem Wale.setReg_micro_l (x : Wale) (r : Reg) (v : W64) (s : Bool) : (x.setReg r v s).micro.l = x.micro.l := rfl
@[simp] theorem Wale.setReg_micro_f (x : Wale) (r : Reg) (v : W64) (s : Bool) : (x.setReg r v s).micro.f = x.micro.f := rfl
@[simp] theorem Wale.setReg_micro_fTaint (x : Wale) (r : Reg) (v : W64) (s : Bool) : (x.setReg r v s).micro.fTaint = x.micro.fTaint := rfl
@[simp] theorem Wale.setReg_micro_o (x : Wale) (r : Reg) (v : W64) (s : Bool) : (x.setReg r v s).micro.o = x.micro.o := rfl
@[simp] theorem Wale.setReg_micro_hash (x : Wale) (r : Reg) (v : W64) (s : Bool) : (x.setReg r v s).micro.hash = x.micro.hash := rfl
@[simp] theorem Wale.setReg_micro_emitted (x : Wale) (r : Reg) (v : W64) (s : Bool) : (x.setReg r v s).micro.emitted = x.micro.emitted := rfl
@[simp] theorem Wale.setReg_micro_drawn (x : Wale) (r : Reg) (v : W64) (s : Bool) : (x.setReg r v s).micro.drawn = x.micro.drawn := rfl
@[simp] theorem Wale.setReg_micro_kstore (x : Wale) (r : Reg) (v : W64) (s : Bool) : (x.setReg r v s).micro.kstore = x.micro.kstore := rfl
@[simp] theorem Wale.setReg_micro_decisions (x : Wale) (r : Reg) (v : W64) (s : Bool) : (x.setReg r v s).micro.decisions = x.micro.decisions := rfl
@[simp] theorem Wale.setReg_micro_recorded (x : Wale) (r : Reg) (v : W64) (s : Bool) : (x.setReg r v s).micro.recorded = x.micro.recorded := rfl
@[simp] theorem Wale.setReg_micro_released (x : Wale) (r : Reg) (v : W64) (s : Bool) : (x.setReg r v s).micro.released = x.micro.released := rfl
@[simp] theorem Wale.setReg_micro_field (x : Wale) (r : Reg) (v : W64) (s : Bool) : (x.setReg r v s).micro.field = x.micro.field := rfl
@[simp] theorem Wale.setReg_micro_count (x : Wale) (r : Reg) (v : W64) (s : Bool) : (x.setReg r v s).micro.count = x.micro.count := rfl
@[simp] theorem Wale.setReg_micro_held (x : Wale) (r : Reg) (v : W64) (s : Bool) : (x.setReg r v s).micro.held = x.micro.held := rfl
@[simp] theorem Wale.setReg_micro_presented (x : Wale) (r : Reg) (v : W64) (s : Bool) : (x.setReg r v s).micro.presented = x.micro.presented := rfl
@[simp] theorem Wale.setReg_micro_cycles (x : Wale) (r : Reg) (v : W64) (s : Bool) : (x.setReg r v s).micro.cycles = x.micro.cycles := rfl
@[simp] theorem Wale.setReg_micro_replay (x : Wale) (r : Reg) (v : W64) (s : Bool) : (x.setReg r v s).micro.replay = x.micro.replay := rfl
@[simp] theorem Wale.setReg_micro_first (x : Wale) (r : Reg) (v : W64) (s : Bool) : (x.setReg r v s).micro.first = x.micro.first := rfl
@[simp] theorem Wale.setFlag_st (x : Wale) (f : Reg) (v s : Bool) : (x.setFlag f v s).st = x.st := by unfold Wale.setFlag; split <;> rfl
@[simp] theorem Wale.setFlag_waking (x : Wale) (f : Reg) (v s : Bool) : (x.setFlag f v s).waking = x.waking := by unfold Wale.setFlag; split <;> rfl
@[simp] theorem Wale.setFlag_paired (x : Wale) (f : Reg) (v s : Bool) : (x.setFlag f v s).paired = x.paired := by unfold Wale.setFlag; split <;> rfl
@[simp] theorem Wale.setFlag_lead (x : Wale) (f : Reg) (v s : Bool) : (x.setFlag f v s).lead = x.lead := by unfold Wale.setFlag; split <;> rfl
@[simp] theorem Wale.setFlag_partner (x : Wale) (f : Reg) (v s : Bool) : (x.setFlag f v s).partner = x.partner := by unfold Wale.setFlag; split <;> rfl
@[simp] theorem Wale.setFlag_levelOn (x : Wale) (f : Reg) (v s : Bool) : (x.setFlag f v s).levelOn = x.levelOn := by unfold Wale.setFlag; split <;> rfl
@[simp] theorem Wale.setFlag_order (x : Wale) (f : Reg) (v s : Bool) : (x.setFlag f v s).order = x.order := by unfold Wale.setFlag; split <;> rfl
@[simp] theorem Wale.setFlag_rclass (x : Wale) (f : Reg) (v s : Bool) : (x.setFlag f v s).rclass = x.rclass := by unfold Wale.setFlag; split <;> rfl
@[simp] theorem Wale.setFlag_timeRed (x : Wale) (f : Reg) (v s : Bool) : (x.setFlag f v s).timeRed = x.timeRed := by unfold Wale.setFlag; split <;> rfl
@[simp] theorem Wale.setFlag_slotLen (x : Wale) (f : Reg) (v s : Bool) : (x.setFlag f v s).slotLen = x.slotLen := by unfold Wale.setFlag; split <;> rfl
@[simp] theorem Wale.setFlag_slotPend (x : Wale) (f : Reg) (v s : Bool) : (x.setFlag f v s).slotPend = x.slotPend := by unfold Wale.setFlag; split <;> rfl
@[simp] theorem Wale.setFlag_csb (x : Wale) (f : Reg) (v s : Bool) : (x.setFlag f v s).csb = x.csb := by unfold Wale.setFlag; split <;> rfl
@[simp] theorem Wale.setFlag_csbShadow (x : Wale) (f : Reg) (v s : Bool) : (x.setFlag f v s).csbShadow = x.csbShadow := by unfold Wale.setFlag; split <;> rfl
@[simp] theorem Wale.setFlag_maker (x : Wale) (f : Reg) (v s : Bool) : (x.setFlag f v s).maker = x.maker := by unfold Wale.setFlag; split <;> rfl
@[simp] theorem Wale.setFlag_custOk (x : Wale) (f : Reg) (v s : Bool) : (x.setFlag f v s).custOk = x.custOk := by unfold Wale.setFlag; split <;> rfl
@[simp] theorem Wale.setFlag_ustore (x : Wale) (f : Reg) (v s : Bool) : (x.setFlag f v s).ustore = x.ustore := by unfold Wale.setFlag; split <;> rfl
@[simp] theorem Wale.setFlag_nstore (x : Wale) (f : Reg) (v s : Bool) : (x.setFlag f v s).nstore = x.nstore := by unfold Wale.setFlag; split <;> rfl
@[simp] theorem Wale.setFlag_job (x : Wale) (f : Reg) (v s : Bool) : (x.setFlag f v s).job = x.job := by unfold Wale.setFlag; split <;> rfl
@[simp] theorem Wale.setFlag_runSlice (x : Wale) (f : Reg) (v s : Bool) : (x.setFlag f v s).runSlice = x.runSlice := by unfold Wale.setFlag; split <;> rfl
@[simp] theorem Wale.setFlag_part (x : Wale) (f : Reg) (v s : Bool) : (x.setFlag f v s).part = x.part := by unfold Wale.setFlag; split <;> rfl
@[simp] theorem Wale.setFlag_touched (x : Wale) (f : Reg) (v s : Bool) : (x.setFlag f v s).touched = x.touched := by unfold Wale.setFlag; split <;> rfl
@[simp] theorem Wale.setFlag_second (x : Wale) (f : Reg) (v s : Bool) : (x.setFlag f v s).second = x.second := by unfold Wale.setFlag; split <;> rfl
@[simp] theorem Wale.setFlag_opmem (x : Wale) (f : Reg) (v s : Bool) : (x.setFlag f v s).opmem = x.opmem := by unfold Wale.setFlag; split <;> rfl
@[simp] theorem Wale.setFlag_sTags (x : Wale) (f : Reg) (v s : Bool) : (x.setFlag f v s).sTags = x.sTags := by unfold Wale.setFlag; split <;> rfl
@[simp] theorem Wale.setFlag_trapWanted (x : Wale) (f : Reg) (v s : Bool) : (x.setFlag f v s).trapWanted = x.trapWanted := by unfold Wale.setFlag; split <;> rfl
@[simp] theorem Wale.setFlag_trapAt (x : Wale) (f : Reg) (v s : Bool) : (x.setFlag f v s).trapAt = x.trapAt := by unfold Wale.setFlag; split <;> rfl
@[simp] theorem Wale.setFlag_grantedAt (x : Wale) (f : Reg) (v s : Bool) : (x.setFlag f v s).grantedAt = x.grantedAt := by unfold Wale.setFlag; split <;> rfl
@[simp] theorem Wale.setFlag_runFrom (x : Wale) (f : Reg) (v s : Bool) : (x.setFlag f v s).runFrom = x.runFrom := by unfold Wale.setFlag; split <;> rfl
@[simp] theorem Wale.setFlag_runAt (x : Wale) (f : Reg) (v s : Bool) : (x.setFlag f v s).runAt = x.runAt := by unfold Wale.setFlag; split <;> rfl
@[simp] theorem Wale.setFlag_idleSince (x : Wale) (f : Reg) (v s : Bool) : (x.setFlag f v s).idleSince = x.idleSince := by unfold Wale.setFlag; split <;> rfl
@[simp] theorem Wale.setFlag_drbgSeeded (x : Wale) (f : Reg) (v s : Bool) : (x.setFlag f v s).drbgSeeded = x.drbgSeeded := by unfold Wale.setFlag; split <;> rfl
@[simp] theorem Wale.setFlag_drbgLog (x : Wale) (f : Reg) (v s : Bool) : (x.setFlag f v s).drbgLog = x.drbgLog := by unfold Wale.setFlag; split <;> rfl
@[simp] theorem Wale.setFlag_drbgStretch (x : Wale) (f : Reg) (v s : Bool) : (x.setFlag f v s).drbgStretch = x.drbgStretch := by unfold Wale.setFlag; split <;> rfl
@[simp] theorem Wale.setFlag_drbgWant (x : Wale) (f : Reg) (v s : Bool) : (x.setFlag f v s).drbgWant = x.drbgWant := by unfold Wale.setFlag; split <;> rfl
@[simp] theorem Wale.setFlag_drbgUrgent (x : Wale) (f : Reg) (v s : Bool) : (x.setFlag f v s).drbgUrgent = x.drbgUrgent := by unfold Wale.setFlag; split <;> rfl
@[simp] theorem Wale.setFlag_drbgSent (x : Wale) (f : Reg) (v s : Bool) : (x.setFlag f v s).drbgSent = x.drbgSent := by unfold Wale.setFlag; split <;> rfl
@[simp] theorem Wale.setFlag_drbgOut (x : Wale) (f : Reg) (v s : Bool) : (x.setFlag f v s).drbgOut = x.drbgOut := by unfold Wale.setFlag; split <;> rfl
@[simp] theorem Wale.setFlag_age (x : Wale) (f : Reg) (v s : Bool) : (x.setFlag f v s).age = x.age := by unfold Wale.setFlag; split <;> rfl
@[simp] theorem Wale.setFlag_micro_pc (x : Wale) (f : Reg) (v s : Bool) : (x.setFlag f v s).micro.pc = x.micro.pc := by unfold Wale.setFlag; split <;> rfl
@[simp] theorem Wale.setFlag_micro_customer (x : Wale) (f : Reg) (v s : Bool) : (x.setFlag f v s).micro.customer = x.micro.customer := by unfold Wale.setFlag; split <;> rfl
@[simp] theorem Wale.setFlag_micro_issuing (x : Wale) (f : Reg) (v s : Bool) : (x.setFlag f v s).micro.issuing = x.micro.issuing := by unfold Wale.setFlag; split <;> rfl
@[simp] theorem Wale.setFlag_micro_stack (x : Wale) (f : Reg) (v s : Bool) : (x.setFlag f v s).micro.stack = x.micro.stack := by unfold Wale.setFlag; split <;> rfl
@[simp] theorem Wale.setFlag_micro_l (x : Wale) (f : Reg) (v s : Bool) : (x.setFlag f v s).micro.l = x.micro.l := by unfold Wale.setFlag; split <;> rfl
@[simp] theorem Wale.setFlag_micro_g (x : Wale) (f : Reg) (v s : Bool) : (x.setFlag f v s).micro.g = x.micro.g := by unfold Wale.setFlag; split <;> rfl
@[simp] theorem Wale.setFlag_micro_gTaint (x : Wale) (f : Reg) (v s : Bool) : (x.setFlag f v s).micro.gTaint = x.micro.gTaint := by unfold Wale.setFlag; split <;> rfl
@[simp] theorem Wale.setFlag_micro_o (x : Wale) (f : Reg) (v s : Bool) : (x.setFlag f v s).micro.o = x.micro.o := by unfold Wale.setFlag; split <;> rfl
@[simp] theorem Wale.setFlag_micro_hash (x : Wale) (f : Reg) (v s : Bool) : (x.setFlag f v s).micro.hash = x.micro.hash := by unfold Wale.setFlag; split <;> rfl
@[simp] theorem Wale.setFlag_micro_emitted (x : Wale) (f : Reg) (v s : Bool) : (x.setFlag f v s).micro.emitted = x.micro.emitted := by unfold Wale.setFlag; split <;> rfl
@[simp] theorem Wale.setFlag_micro_drawn (x : Wale) (f : Reg) (v s : Bool) : (x.setFlag f v s).micro.drawn = x.micro.drawn := by unfold Wale.setFlag; split <;> rfl
@[simp] theorem Wale.setFlag_micro_kstore (x : Wale) (f : Reg) (v s : Bool) : (x.setFlag f v s).micro.kstore = x.micro.kstore := by unfold Wale.setFlag; split <;> rfl
@[simp] theorem Wale.setFlag_micro_decisions (x : Wale) (f : Reg) (v s : Bool) : (x.setFlag f v s).micro.decisions = x.micro.decisions := by unfold Wale.setFlag; split <;> rfl
@[simp] theorem Wale.setFlag_micro_recorded (x : Wale) (f : Reg) (v s : Bool) : (x.setFlag f v s).micro.recorded = x.micro.recorded := by unfold Wale.setFlag; split <;> rfl
@[simp] theorem Wale.setFlag_micro_released (x : Wale) (f : Reg) (v s : Bool) : (x.setFlag f v s).micro.released = x.micro.released := by unfold Wale.setFlag; split <;> rfl
@[simp] theorem Wale.setFlag_micro_field (x : Wale) (f : Reg) (v s : Bool) : (x.setFlag f v s).micro.field = x.micro.field := by unfold Wale.setFlag; split <;> rfl
@[simp] theorem Wale.setFlag_micro_count (x : Wale) (f : Reg) (v s : Bool) : (x.setFlag f v s).micro.count = x.micro.count := by unfold Wale.setFlag; split <;> rfl
@[simp] theorem Wale.setFlag_micro_held (x : Wale) (f : Reg) (v s : Bool) : (x.setFlag f v s).micro.held = x.micro.held := by unfold Wale.setFlag; split <;> rfl
@[simp] theorem Wale.setFlag_micro_presented (x : Wale) (f : Reg) (v s : Bool) : (x.setFlag f v s).micro.presented = x.micro.presented := by unfold Wale.setFlag; split <;> rfl
@[simp] theorem Wale.setFlag_micro_cycles (x : Wale) (f : Reg) (v s : Bool) : (x.setFlag f v s).micro.cycles = x.micro.cycles := by unfold Wale.setFlag; split <;> rfl
@[simp] theorem Wale.setFlag_micro_replay (x : Wale) (f : Reg) (v s : Bool) : (x.setFlag f v s).micro.replay = x.micro.replay := by unfold Wale.setFlag; split <;> rfl
@[simp] theorem Wale.setFlag_micro_first (x : Wale) (f : Reg) (v s : Bool) : (x.setFlag f v s).micro.first = x.micro.first := by unfold Wale.setFlag; split <;> rfl
@[simp] theorem Wale.setLoop_st (x : Wale) (l : Fin 4) (v : BitVec 16) : (x.setLoop l v).st = x.st := rfl
@[simp] theorem Wale.setLoop_waking (x : Wale) (l : Fin 4) (v : BitVec 16) : (x.setLoop l v).waking = x.waking := rfl
@[simp] theorem Wale.setLoop_paired (x : Wale) (l : Fin 4) (v : BitVec 16) : (x.setLoop l v).paired = x.paired := rfl
@[simp] theorem Wale.setLoop_lead (x : Wale) (l : Fin 4) (v : BitVec 16) : (x.setLoop l v).lead = x.lead := rfl
@[simp] theorem Wale.setLoop_partner (x : Wale) (l : Fin 4) (v : BitVec 16) : (x.setLoop l v).partner = x.partner := rfl
@[simp] theorem Wale.setLoop_levelOn (x : Wale) (l : Fin 4) (v : BitVec 16) : (x.setLoop l v).levelOn = x.levelOn := rfl
@[simp] theorem Wale.setLoop_order (x : Wale) (l : Fin 4) (v : BitVec 16) : (x.setLoop l v).order = x.order := rfl
@[simp] theorem Wale.setLoop_rclass (x : Wale) (l : Fin 4) (v : BitVec 16) : (x.setLoop l v).rclass = x.rclass := rfl
@[simp] theorem Wale.setLoop_timeRed (x : Wale) (l : Fin 4) (v : BitVec 16) : (x.setLoop l v).timeRed = x.timeRed := rfl
@[simp] theorem Wale.setLoop_slotLen (x : Wale) (l : Fin 4) (v : BitVec 16) : (x.setLoop l v).slotLen = x.slotLen := rfl
@[simp] theorem Wale.setLoop_slotPend (x : Wale) (l : Fin 4) (v : BitVec 16) : (x.setLoop l v).slotPend = x.slotPend := rfl
@[simp] theorem Wale.setLoop_csb (x : Wale) (l : Fin 4) (v : BitVec 16) : (x.setLoop l v).csb = x.csb := rfl
@[simp] theorem Wale.setLoop_csbShadow (x : Wale) (l : Fin 4) (v : BitVec 16) : (x.setLoop l v).csbShadow = x.csbShadow := rfl
@[simp] theorem Wale.setLoop_maker (x : Wale) (l : Fin 4) (v : BitVec 16) : (x.setLoop l v).maker = x.maker := rfl
@[simp] theorem Wale.setLoop_custOk (x : Wale) (l : Fin 4) (v : BitVec 16) : (x.setLoop l v).custOk = x.custOk := rfl
@[simp] theorem Wale.setLoop_ustore (x : Wale) (l : Fin 4) (v : BitVec 16) : (x.setLoop l v).ustore = x.ustore := rfl
@[simp] theorem Wale.setLoop_nstore (x : Wale) (l : Fin 4) (v : BitVec 16) : (x.setLoop l v).nstore = x.nstore := rfl
@[simp] theorem Wale.setLoop_job (x : Wale) (l : Fin 4) (v : BitVec 16) : (x.setLoop l v).job = x.job := rfl
@[simp] theorem Wale.setLoop_runSlice (x : Wale) (l : Fin 4) (v : BitVec 16) : (x.setLoop l v).runSlice = x.runSlice := rfl
@[simp] theorem Wale.setLoop_part (x : Wale) (l : Fin 4) (v : BitVec 16) : (x.setLoop l v).part = x.part := rfl
@[simp] theorem Wale.setLoop_touched (x : Wale) (l : Fin 4) (v : BitVec 16) : (x.setLoop l v).touched = x.touched := rfl
@[simp] theorem Wale.setLoop_second (x : Wale) (l : Fin 4) (v : BitVec 16) : (x.setLoop l v).second = x.second := rfl
@[simp] theorem Wale.setLoop_opmem (x : Wale) (l : Fin 4) (v : BitVec 16) : (x.setLoop l v).opmem = x.opmem := rfl
@[simp] theorem Wale.setLoop_sTags (x : Wale) (l : Fin 4) (v : BitVec 16) : (x.setLoop l v).sTags = x.sTags := rfl
@[simp] theorem Wale.setLoop_trapWanted (x : Wale) (l : Fin 4) (v : BitVec 16) : (x.setLoop l v).trapWanted = x.trapWanted := rfl
@[simp] theorem Wale.setLoop_trapAt (x : Wale) (l : Fin 4) (v : BitVec 16) : (x.setLoop l v).trapAt = x.trapAt := rfl
@[simp] theorem Wale.setLoop_grantedAt (x : Wale) (l : Fin 4) (v : BitVec 16) : (x.setLoop l v).grantedAt = x.grantedAt := rfl
@[simp] theorem Wale.setLoop_runFrom (x : Wale) (l : Fin 4) (v : BitVec 16) : (x.setLoop l v).runFrom = x.runFrom := rfl
@[simp] theorem Wale.setLoop_runAt (x : Wale) (l : Fin 4) (v : BitVec 16) : (x.setLoop l v).runAt = x.runAt := rfl
@[simp] theorem Wale.setLoop_idleSince (x : Wale) (l : Fin 4) (v : BitVec 16) : (x.setLoop l v).idleSince = x.idleSince := rfl
@[simp] theorem Wale.setLoop_drbgSeeded (x : Wale) (l : Fin 4) (v : BitVec 16) : (x.setLoop l v).drbgSeeded = x.drbgSeeded := rfl
@[simp] theorem Wale.setLoop_drbgLog (x : Wale) (l : Fin 4) (v : BitVec 16) : (x.setLoop l v).drbgLog = x.drbgLog := rfl
@[simp] theorem Wale.setLoop_drbgStretch (x : Wale) (l : Fin 4) (v : BitVec 16) : (x.setLoop l v).drbgStretch = x.drbgStretch := rfl
@[simp] theorem Wale.setLoop_drbgWant (x : Wale) (l : Fin 4) (v : BitVec 16) : (x.setLoop l v).drbgWant = x.drbgWant := rfl
@[simp] theorem Wale.setLoop_drbgUrgent (x : Wale) (l : Fin 4) (v : BitVec 16) : (x.setLoop l v).drbgUrgent = x.drbgUrgent := rfl
@[simp] theorem Wale.setLoop_drbgSent (x : Wale) (l : Fin 4) (v : BitVec 16) : (x.setLoop l v).drbgSent = x.drbgSent := rfl
@[simp] theorem Wale.setLoop_drbgOut (x : Wale) (l : Fin 4) (v : BitVec 16) : (x.setLoop l v).drbgOut = x.drbgOut := rfl
@[simp] theorem Wale.setLoop_age (x : Wale) (l : Fin 4) (v : BitVec 16) : (x.setLoop l v).age = x.age := rfl
@[simp] theorem Wale.setLoop_micro_pc (x : Wale) (l : Fin 4) (v : BitVec 16) : (x.setLoop l v).micro.pc = x.micro.pc := rfl
@[simp] theorem Wale.setLoop_micro_customer (x : Wale) (l : Fin 4) (v : BitVec 16) : (x.setLoop l v).micro.customer = x.micro.customer := rfl
@[simp] theorem Wale.setLoop_micro_issuing (x : Wale) (l : Fin 4) (v : BitVec 16) : (x.setLoop l v).micro.issuing = x.micro.issuing := rfl
@[simp] theorem Wale.setLoop_micro_stack (x : Wale) (l : Fin 4) (v : BitVec 16) : (x.setLoop l v).micro.stack = x.micro.stack := rfl
@[simp] theorem Wale.setLoop_micro_g (x : Wale) (l : Fin 4) (v : BitVec 16) : (x.setLoop l v).micro.g = x.micro.g := rfl
@[simp] theorem Wale.setLoop_micro_gTaint (x : Wale) (l : Fin 4) (v : BitVec 16) : (x.setLoop l v).micro.gTaint = x.micro.gTaint := rfl
@[simp] theorem Wale.setLoop_micro_f (x : Wale) (l : Fin 4) (v : BitVec 16) : (x.setLoop l v).micro.f = x.micro.f := rfl
@[simp] theorem Wale.setLoop_micro_fTaint (x : Wale) (l : Fin 4) (v : BitVec 16) : (x.setLoop l v).micro.fTaint = x.micro.fTaint := rfl
@[simp] theorem Wale.setLoop_micro_o (x : Wale) (l : Fin 4) (v : BitVec 16) : (x.setLoop l v).micro.o = x.micro.o := rfl
@[simp] theorem Wale.setLoop_micro_hash (x : Wale) (l : Fin 4) (v : BitVec 16) : (x.setLoop l v).micro.hash = x.micro.hash := rfl
@[simp] theorem Wale.setLoop_micro_emitted (x : Wale) (l : Fin 4) (v : BitVec 16) : (x.setLoop l v).micro.emitted = x.micro.emitted := rfl
@[simp] theorem Wale.setLoop_micro_drawn (x : Wale) (l : Fin 4) (v : BitVec 16) : (x.setLoop l v).micro.drawn = x.micro.drawn := rfl
@[simp] theorem Wale.setLoop_micro_kstore (x : Wale) (l : Fin 4) (v : BitVec 16) : (x.setLoop l v).micro.kstore = x.micro.kstore := rfl
@[simp] theorem Wale.setLoop_micro_decisions (x : Wale) (l : Fin 4) (v : BitVec 16) : (x.setLoop l v).micro.decisions = x.micro.decisions := rfl
@[simp] theorem Wale.setLoop_micro_recorded (x : Wale) (l : Fin 4) (v : BitVec 16) : (x.setLoop l v).micro.recorded = x.micro.recorded := rfl
@[simp] theorem Wale.setLoop_micro_released (x : Wale) (l : Fin 4) (v : BitVec 16) : (x.setLoop l v).micro.released = x.micro.released := rfl
@[simp] theorem Wale.setLoop_micro_field (x : Wale) (l : Fin 4) (v : BitVec 16) : (x.setLoop l v).micro.field = x.micro.field := rfl
@[simp] theorem Wale.setLoop_micro_count (x : Wale) (l : Fin 4) (v : BitVec 16) : (x.setLoop l v).micro.count = x.micro.count := rfl
@[simp] theorem Wale.setLoop_micro_held (x : Wale) (l : Fin 4) (v : BitVec 16) : (x.setLoop l v).micro.held = x.micro.held := rfl
@[simp] theorem Wale.setLoop_micro_presented (x : Wale) (l : Fin 4) (v : BitVec 16) : (x.setLoop l v).micro.presented = x.micro.presented := rfl
@[simp] theorem Wale.setLoop_micro_cycles (x : Wale) (l : Fin 4) (v : BitVec 16) : (x.setLoop l v).micro.cycles = x.micro.cycles := rfl
@[simp] theorem Wale.setLoop_micro_replay (x : Wale) (l : Fin 4) (v : BitVec 16) : (x.setLoop l v).micro.replay = x.micro.replay := rfl
@[simp] theorem Wale.setLoop_micro_first (x : Wale) (l : Fin 4) (v : BitVec 16) : (x.setLoop l v).micro.first = x.micro.first := rfl
@[simp] theorem Wale.setPc_st (x : Wale) (t : BitVec 14) : (x.setPc t).st = x.st := rfl
@[simp] theorem Wale.setPc_waking (x : Wale) (t : BitVec 14) : (x.setPc t).waking = x.waking := rfl
@[simp] theorem Wale.setPc_paired (x : Wale) (t : BitVec 14) : (x.setPc t).paired = x.paired := rfl
@[simp] theorem Wale.setPc_lead (x : Wale) (t : BitVec 14) : (x.setPc t).lead = x.lead := rfl
@[simp] theorem Wale.setPc_partner (x : Wale) (t : BitVec 14) : (x.setPc t).partner = x.partner := rfl
@[simp] theorem Wale.setPc_levelOn (x : Wale) (t : BitVec 14) : (x.setPc t).levelOn = x.levelOn := rfl
@[simp] theorem Wale.setPc_order (x : Wale) (t : BitVec 14) : (x.setPc t).order = x.order := rfl
@[simp] theorem Wale.setPc_rclass (x : Wale) (t : BitVec 14) : (x.setPc t).rclass = x.rclass := rfl
@[simp] theorem Wale.setPc_timeRed (x : Wale) (t : BitVec 14) : (x.setPc t).timeRed = x.timeRed := rfl
@[simp] theorem Wale.setPc_slotLen (x : Wale) (t : BitVec 14) : (x.setPc t).slotLen = x.slotLen := rfl
@[simp] theorem Wale.setPc_slotPend (x : Wale) (t : BitVec 14) : (x.setPc t).slotPend = x.slotPend := rfl
@[simp] theorem Wale.setPc_csb (x : Wale) (t : BitVec 14) : (x.setPc t).csb = x.csb := rfl
@[simp] theorem Wale.setPc_csbShadow (x : Wale) (t : BitVec 14) : (x.setPc t).csbShadow = x.csbShadow := rfl
@[simp] theorem Wale.setPc_maker (x : Wale) (t : BitVec 14) : (x.setPc t).maker = x.maker := rfl
@[simp] theorem Wale.setPc_custOk (x : Wale) (t : BitVec 14) : (x.setPc t).custOk = x.custOk := rfl
@[simp] theorem Wale.setPc_ustore (x : Wale) (t : BitVec 14) : (x.setPc t).ustore = x.ustore := rfl
@[simp] theorem Wale.setPc_nstore (x : Wale) (t : BitVec 14) : (x.setPc t).nstore = x.nstore := rfl
@[simp] theorem Wale.setPc_job (x : Wale) (t : BitVec 14) : (x.setPc t).job = x.job := rfl
@[simp] theorem Wale.setPc_runSlice (x : Wale) (t : BitVec 14) : (x.setPc t).runSlice = x.runSlice := rfl
@[simp] theorem Wale.setPc_part (x : Wale) (t : BitVec 14) : (x.setPc t).part = x.part := rfl
@[simp] theorem Wale.setPc_touched (x : Wale) (t : BitVec 14) : (x.setPc t).touched = x.touched := rfl
@[simp] theorem Wale.setPc_second (x : Wale) (t : BitVec 14) : (x.setPc t).second = x.second := rfl
@[simp] theorem Wale.setPc_opmem (x : Wale) (t : BitVec 14) : (x.setPc t).opmem = x.opmem := rfl
@[simp] theorem Wale.setPc_sTags (x : Wale) (t : BitVec 14) : (x.setPc t).sTags = x.sTags := rfl
@[simp] theorem Wale.setPc_trapWanted (x : Wale) (t : BitVec 14) : (x.setPc t).trapWanted = x.trapWanted := rfl
@[simp] theorem Wale.setPc_trapAt (x : Wale) (t : BitVec 14) : (x.setPc t).trapAt = x.trapAt := rfl
@[simp] theorem Wale.setPc_grantedAt (x : Wale) (t : BitVec 14) : (x.setPc t).grantedAt = x.grantedAt := rfl
@[simp] theorem Wale.setPc_runFrom (x : Wale) (t : BitVec 14) : (x.setPc t).runFrom = x.runFrom := rfl
@[simp] theorem Wale.setPc_runAt (x : Wale) (t : BitVec 14) : (x.setPc t).runAt = x.runAt := rfl
@[simp] theorem Wale.setPc_idleSince (x : Wale) (t : BitVec 14) : (x.setPc t).idleSince = x.idleSince := rfl
@[simp] theorem Wale.setPc_drbgSeeded (x : Wale) (t : BitVec 14) : (x.setPc t).drbgSeeded = x.drbgSeeded := rfl
@[simp] theorem Wale.setPc_drbgLog (x : Wale) (t : BitVec 14) : (x.setPc t).drbgLog = x.drbgLog := rfl
@[simp] theorem Wale.setPc_drbgStretch (x : Wale) (t : BitVec 14) : (x.setPc t).drbgStretch = x.drbgStretch := rfl
@[simp] theorem Wale.setPc_drbgWant (x : Wale) (t : BitVec 14) : (x.setPc t).drbgWant = x.drbgWant := rfl
@[simp] theorem Wale.setPc_drbgUrgent (x : Wale) (t : BitVec 14) : (x.setPc t).drbgUrgent = x.drbgUrgent := rfl
@[simp] theorem Wale.setPc_drbgSent (x : Wale) (t : BitVec 14) : (x.setPc t).drbgSent = x.drbgSent := rfl
@[simp] theorem Wale.setPc_drbgOut (x : Wale) (t : BitVec 14) : (x.setPc t).drbgOut = x.drbgOut := rfl
@[simp] theorem Wale.setPc_age (x : Wale) (t : BitVec 14) : (x.setPc t).age = x.age := rfl
@[simp] theorem Wale.setPc_micro_customer (x : Wale) (t : BitVec 14) : (x.setPc t).micro.customer = x.micro.customer := rfl
@[simp] theorem Wale.setPc_micro_issuing (x : Wale) (t : BitVec 14) : (x.setPc t).micro.issuing = x.micro.issuing := rfl
@[simp] theorem Wale.setPc_micro_stack (x : Wale) (t : BitVec 14) : (x.setPc t).micro.stack = x.micro.stack := rfl
@[simp] theorem Wale.setPc_micro_l (x : Wale) (t : BitVec 14) : (x.setPc t).micro.l = x.micro.l := rfl
@[simp] theorem Wale.setPc_micro_g (x : Wale) (t : BitVec 14) : (x.setPc t).micro.g = x.micro.g := rfl
@[simp] theorem Wale.setPc_micro_gTaint (x : Wale) (t : BitVec 14) : (x.setPc t).micro.gTaint = x.micro.gTaint := rfl
@[simp] theorem Wale.setPc_micro_f (x : Wale) (t : BitVec 14) : (x.setPc t).micro.f = x.micro.f := rfl
@[simp] theorem Wale.setPc_micro_fTaint (x : Wale) (t : BitVec 14) : (x.setPc t).micro.fTaint = x.micro.fTaint := rfl
@[simp] theorem Wale.setPc_micro_o (x : Wale) (t : BitVec 14) : (x.setPc t).micro.o = x.micro.o := rfl
@[simp] theorem Wale.setPc_micro_hash (x : Wale) (t : BitVec 14) : (x.setPc t).micro.hash = x.micro.hash := rfl
@[simp] theorem Wale.setPc_micro_emitted (x : Wale) (t : BitVec 14) : (x.setPc t).micro.emitted = x.micro.emitted := rfl
@[simp] theorem Wale.setPc_micro_drawn (x : Wale) (t : BitVec 14) : (x.setPc t).micro.drawn = x.micro.drawn := rfl
@[simp] theorem Wale.setPc_micro_kstore (x : Wale) (t : BitVec 14) : (x.setPc t).micro.kstore = x.micro.kstore := rfl
@[simp] theorem Wale.setPc_micro_decisions (x : Wale) (t : BitVec 14) : (x.setPc t).micro.decisions = x.micro.decisions := rfl
@[simp] theorem Wale.setPc_micro_recorded (x : Wale) (t : BitVec 14) : (x.setPc t).micro.recorded = x.micro.recorded := rfl
@[simp] theorem Wale.setPc_micro_released (x : Wale) (t : BitVec 14) : (x.setPc t).micro.released = x.micro.released := rfl
@[simp] theorem Wale.setPc_micro_field (x : Wale) (t : BitVec 14) : (x.setPc t).micro.field = x.micro.field := rfl
@[simp] theorem Wale.setPc_micro_count (x : Wale) (t : BitVec 14) : (x.setPc t).micro.count = x.micro.count := rfl
@[simp] theorem Wale.setPc_micro_held (x : Wale) (t : BitVec 14) : (x.setPc t).micro.held = x.micro.held := rfl
@[simp] theorem Wale.setPc_micro_presented (x : Wale) (t : BitVec 14) : (x.setPc t).micro.presented = x.micro.presented := rfl
@[simp] theorem Wale.setPc_micro_cycles (x : Wale) (t : BitVec 14) : (x.setPc t).micro.cycles = x.micro.cycles := rfl
@[simp] theorem Wale.setPc_micro_replay (x : Wale) (t : BitVec 14) : (x.setPc t).micro.replay = x.micro.replay := rfl
@[simp] theorem Wale.setPc_micro_first (x : Wale) (t : BitVec 14) : (x.setPc t).micro.first = x.micro.first := rfl
@[simp] theorem Wale.during_st (x : Wale) : (x.during).st = x.st := rfl
@[simp] theorem Wale.during_waking (x : Wale) : (x.during).waking = x.waking := rfl
@[simp] theorem Wale.during_paired (x : Wale) : (x.during).paired = x.paired := rfl
@[simp] theorem Wale.during_lead (x : Wale) : (x.during).lead = x.lead := rfl
@[simp] theorem Wale.during_partner (x : Wale) : (x.during).partner = x.partner := rfl
@[simp] theorem Wale.during_levelOn (x : Wale) : (x.during).levelOn = x.levelOn := rfl
@[simp] theorem Wale.during_order (x : Wale) : (x.during).order = x.order := rfl
@[simp] theorem Wale.during_rclass (x : Wale) : (x.during).rclass = x.rclass := rfl
@[simp] theorem Wale.during_timeRed (x : Wale) : (x.during).timeRed = x.timeRed := rfl
@[simp] theorem Wale.during_slotLen (x : Wale) : (x.during).slotLen = x.slotLen := rfl
@[simp] theorem Wale.during_slotPend (x : Wale) : (x.during).slotPend = x.slotPend := rfl
@[simp] theorem Wale.during_csb (x : Wale) : (x.during).csb = x.csb := rfl
@[simp] theorem Wale.during_csbShadow (x : Wale) : (x.during).csbShadow = x.csbShadow := rfl
@[simp] theorem Wale.during_maker (x : Wale) : (x.during).maker = x.maker := rfl
@[simp] theorem Wale.during_custOk (x : Wale) : (x.during).custOk = x.custOk := rfl
@[simp] theorem Wale.during_ustore (x : Wale) : (x.during).ustore = x.ustore := rfl
@[simp] theorem Wale.during_nstore (x : Wale) : (x.during).nstore = x.nstore := rfl
@[simp] theorem Wale.during_job (x : Wale) : (x.during).job = x.job := rfl
@[simp] theorem Wale.during_runSlice (x : Wale) : (x.during).runSlice = x.runSlice := rfl
@[simp] theorem Wale.during_part (x : Wale) : (x.during).part = x.part := rfl
@[simp] theorem Wale.during_touched (x : Wale) : (x.during).touched = x.touched := rfl
@[simp] theorem Wale.during_second (x : Wale) : (x.during).second = x.second := rfl
@[simp] theorem Wale.during_opmem (x : Wale) : (x.during).opmem = x.opmem := rfl
@[simp] theorem Wale.during_sTags (x : Wale) : (x.during).sTags = x.sTags := rfl
@[simp] theorem Wale.during_trapWanted (x : Wale) : (x.during).trapWanted = x.trapWanted := rfl
@[simp] theorem Wale.during_trapAt (x : Wale) : (x.during).trapAt = x.trapAt := rfl
@[simp] theorem Wale.during_grantedAt (x : Wale) : (x.during).grantedAt = x.grantedAt := rfl
@[simp] theorem Wale.during_runFrom (x : Wale) : (x.during).runFrom = x.runFrom := rfl
@[simp] theorem Wale.during_runAt (x : Wale) : (x.during).runAt = x.runAt := rfl
@[simp] theorem Wale.during_idleSince (x : Wale) : (x.during).idleSince = x.idleSince := rfl
@[simp] theorem Wale.during_drbgSeeded (x : Wale) : (x.during).drbgSeeded = x.drbgSeeded := rfl
@[simp] theorem Wale.during_drbgLog (x : Wale) : (x.during).drbgLog = x.drbgLog := rfl
@[simp] theorem Wale.during_drbgStretch (x : Wale) : (x.during).drbgStretch = x.drbgStretch := rfl
@[simp] theorem Wale.during_drbgWant (x : Wale) : (x.during).drbgWant = x.drbgWant := rfl
@[simp] theorem Wale.during_drbgUrgent (x : Wale) : (x.during).drbgUrgent = x.drbgUrgent := rfl
@[simp] theorem Wale.during_drbgSent (x : Wale) : (x.during).drbgSent = x.drbgSent := rfl
@[simp] theorem Wale.during_drbgOut (x : Wale) : (x.during).drbgOut = x.drbgOut := rfl
@[simp] theorem Wale.during_age (x : Wale) : (x.during).age = x.age := rfl
@[simp] theorem Wale.during_micro_pc (x : Wale) : (x.during).micro.pc = x.micro.pc := rfl
@[simp] theorem Wale.during_micro_customer (x : Wale) : (x.during).micro.customer = x.micro.customer := rfl
@[simp] theorem Wale.during_micro_issuing (x : Wale) : (x.during).micro.issuing = x.micro.issuing := rfl
@[simp] theorem Wale.during_micro_stack (x : Wale) : (x.during).micro.stack = x.micro.stack := rfl
@[simp] theorem Wale.during_micro_l (x : Wale) : (x.during).micro.l = x.micro.l := rfl
@[simp] theorem Wale.during_micro_g (x : Wale) : (x.during).micro.g = x.micro.g := rfl
@[simp] theorem Wale.during_micro_gTaint (x : Wale) : (x.during).micro.gTaint = x.micro.gTaint := rfl
@[simp] theorem Wale.during_micro_f (x : Wale) : (x.during).micro.f = x.micro.f := rfl
@[simp] theorem Wale.during_micro_fTaint (x : Wale) : (x.during).micro.fTaint = x.micro.fTaint := rfl
@[simp] theorem Wale.during_micro_o (x : Wale) : (x.during).micro.o = x.micro.o := rfl
@[simp] theorem Wale.during_micro_hash (x : Wale) : (x.during).micro.hash = x.micro.hash := rfl
@[simp] theorem Wale.during_micro_emitted (x : Wale) : (x.during).micro.emitted = x.micro.emitted := rfl
@[simp] theorem Wale.during_micro_drawn (x : Wale) : (x.during).micro.drawn = x.micro.drawn := rfl
@[simp] theorem Wale.during_micro_kstore (x : Wale) : (x.during).micro.kstore = x.micro.kstore := rfl
@[simp] theorem Wale.during_micro_decisions (x : Wale) : (x.during).micro.decisions = x.micro.decisions := rfl
@[simp] theorem Wale.during_micro_recorded (x : Wale) : (x.during).micro.recorded = x.micro.recorded := rfl
@[simp] theorem Wale.during_micro_released (x : Wale) : (x.during).micro.released = x.micro.released := rfl
@[simp] theorem Wale.during_micro_field (x : Wale) : (x.during).micro.field = x.micro.field := rfl
@[simp] theorem Wale.during_micro_count (x : Wale) : (x.during).micro.count = x.micro.count := rfl
@[simp] theorem Wale.during_micro_presented (x : Wale) : (x.during).micro.presented = x.micro.presented := rfl
@[simp] theorem Wale.during_micro_cycles (x : Wale) : (x.during).micro.cycles = x.micro.cycles := rfl
@[simp] theorem Wale.during_micro_replay (x : Wale) : (x.during).micro.replay = x.micro.replay := rfl
@[simp] theorem Wale.during_micro_first (x : Wale) : (x.during).micro.first = x.micro.first := rfl
@[simp] theorem Wale.issued_st (x : Wale) (e : Bool) : (x.issued e).st = x.st := rfl
@[simp] theorem Wale.issued_waking (x : Wale) (e : Bool) : (x.issued e).waking = x.waking := rfl
@[simp] theorem Wale.issued_paired (x : Wale) (e : Bool) : (x.issued e).paired = x.paired := rfl
@[simp] theorem Wale.issued_lead (x : Wale) (e : Bool) : (x.issued e).lead = x.lead := rfl
@[simp] theorem Wale.issued_partner (x : Wale) (e : Bool) : (x.issued e).partner = x.partner := rfl
@[simp] theorem Wale.issued_levelOn (x : Wale) (e : Bool) : (x.issued e).levelOn = x.levelOn := rfl
@[simp] theorem Wale.issued_order (x : Wale) (e : Bool) : (x.issued e).order = x.order := rfl
@[simp] theorem Wale.issued_rclass (x : Wale) (e : Bool) : (x.issued e).rclass = x.rclass := rfl
@[simp] theorem Wale.issued_timeRed (x : Wale) (e : Bool) : (x.issued e).timeRed = x.timeRed := rfl
@[simp] theorem Wale.issued_slotLen (x : Wale) (e : Bool) : (x.issued e).slotLen = x.slotLen := rfl
@[simp] theorem Wale.issued_slotPend (x : Wale) (e : Bool) : (x.issued e).slotPend = x.slotPend := rfl
@[simp] theorem Wale.issued_csb (x : Wale) (e : Bool) : (x.issued e).csb = x.csb := rfl
@[simp] theorem Wale.issued_csbShadow (x : Wale) (e : Bool) : (x.issued e).csbShadow = x.csbShadow := rfl
@[simp] theorem Wale.issued_maker (x : Wale) (e : Bool) : (x.issued e).maker = x.maker := rfl
@[simp] theorem Wale.issued_custOk (x : Wale) (e : Bool) : (x.issued e).custOk = x.custOk := rfl
@[simp] theorem Wale.issued_ustore (x : Wale) (e : Bool) : (x.issued e).ustore = x.ustore := rfl
@[simp] theorem Wale.issued_nstore (x : Wale) (e : Bool) : (x.issued e).nstore = x.nstore := rfl
@[simp] theorem Wale.issued_job (x : Wale) (e : Bool) : (x.issued e).job = x.job := rfl
@[simp] theorem Wale.issued_runSlice (x : Wale) (e : Bool) : (x.issued e).runSlice = x.runSlice := rfl
@[simp] theorem Wale.issued_part (x : Wale) (e : Bool) : (x.issued e).part = x.part := rfl
@[simp] theorem Wale.issued_touched (x : Wale) (e : Bool) : (x.issued e).touched = x.touched := rfl
@[simp] theorem Wale.issued_second (x : Wale) (e : Bool) : (x.issued e).second = x.second := rfl
@[simp] theorem Wale.issued_opmem (x : Wale) (e : Bool) : (x.issued e).opmem = x.opmem := rfl
@[simp] theorem Wale.issued_sTags (x : Wale) (e : Bool) : (x.issued e).sTags = x.sTags := rfl
@[simp] theorem Wale.issued_trapWanted (x : Wale) (e : Bool) : (x.issued e).trapWanted = x.trapWanted := rfl
@[simp] theorem Wale.issued_trapAt (x : Wale) (e : Bool) : (x.issued e).trapAt = x.trapAt := rfl
@[simp] theorem Wale.issued_grantedAt (x : Wale) (e : Bool) : (x.issued e).grantedAt = x.grantedAt := rfl
@[simp] theorem Wale.issued_runFrom (x : Wale) (e : Bool) : (x.issued e).runFrom = x.runFrom := rfl
@[simp] theorem Wale.issued_runAt (x : Wale) (e : Bool) : (x.issued e).runAt = x.runAt := rfl
@[simp] theorem Wale.issued_idleSince (x : Wale) (e : Bool) : (x.issued e).idleSince = x.idleSince := rfl
@[simp] theorem Wale.issued_drbgSeeded (x : Wale) (e : Bool) : (x.issued e).drbgSeeded = x.drbgSeeded := rfl
@[simp] theorem Wale.issued_drbgLog (x : Wale) (e : Bool) : (x.issued e).drbgLog = x.drbgLog := rfl
@[simp] theorem Wale.issued_drbgStretch (x : Wale) (e : Bool) : (x.issued e).drbgStretch = x.drbgStretch := rfl
@[simp] theorem Wale.issued_drbgWant (x : Wale) (e : Bool) : (x.issued e).drbgWant = x.drbgWant := rfl
@[simp] theorem Wale.issued_drbgUrgent (x : Wale) (e : Bool) : (x.issued e).drbgUrgent = x.drbgUrgent := rfl
@[simp] theorem Wale.issued_drbgSent (x : Wale) (e : Bool) : (x.issued e).drbgSent = x.drbgSent := rfl
@[simp] theorem Wale.issued_drbgOut (x : Wale) (e : Bool) : (x.issued e).drbgOut = x.drbgOut := rfl
@[simp] theorem Wale.issued_age (x : Wale) (e : Bool) : (x.issued e).age = x.age := rfl
@[simp] theorem Wale.issued_micro_pc (x : Wale) (e : Bool) : (x.issued e).micro.pc = x.micro.pc := rfl
@[simp] theorem Wale.issued_micro_customer (x : Wale) (e : Bool) : (x.issued e).micro.customer = x.micro.customer := rfl
@[simp] theorem Wale.issued_micro_issuing (x : Wale) (e : Bool) : (x.issued e).micro.issuing = x.micro.issuing := rfl
@[simp] theorem Wale.issued_micro_stack (x : Wale) (e : Bool) : (x.issued e).micro.stack = x.micro.stack := rfl
@[simp] theorem Wale.issued_micro_l (x : Wale) (e : Bool) : (x.issued e).micro.l = x.micro.l := rfl
@[simp] theorem Wale.issued_micro_g (x : Wale) (e : Bool) : (x.issued e).micro.g = x.micro.g := rfl
@[simp] theorem Wale.issued_micro_gTaint (x : Wale) (e : Bool) : (x.issued e).micro.gTaint = x.micro.gTaint := rfl
@[simp] theorem Wale.issued_micro_f (x : Wale) (e : Bool) : (x.issued e).micro.f = x.micro.f := rfl
@[simp] theorem Wale.issued_micro_fTaint (x : Wale) (e : Bool) : (x.issued e).micro.fTaint = x.micro.fTaint := rfl
@[simp] theorem Wale.issued_micro_o (x : Wale) (e : Bool) : (x.issued e).micro.o = x.micro.o := rfl
@[simp] theorem Wale.issued_micro_hash (x : Wale) (e : Bool) : (x.issued e).micro.hash = x.micro.hash := rfl
@[simp] theorem Wale.issued_micro_emitted (x : Wale) (e : Bool) : (x.issued e).micro.emitted = x.micro.emitted := rfl
@[simp] theorem Wale.issued_micro_drawn (x : Wale) (e : Bool) : (x.issued e).micro.drawn = x.micro.drawn := rfl
@[simp] theorem Wale.issued_micro_kstore (x : Wale) (e : Bool) : (x.issued e).micro.kstore = x.micro.kstore := rfl
@[simp] theorem Wale.issued_micro_decisions (x : Wale) (e : Bool) : (x.issued e).micro.decisions = x.micro.decisions := rfl
@[simp] theorem Wale.issued_micro_recorded (x : Wale) (e : Bool) : (x.issued e).micro.recorded = x.micro.recorded := rfl
@[simp] theorem Wale.issued_micro_released (x : Wale) (e : Bool) : (x.issued e).micro.released = x.micro.released := rfl
@[simp] theorem Wale.issued_micro_presented (x : Wale) (e : Bool) : (x.issued e).micro.presented = x.micro.presented := rfl
@[simp] theorem Wale.issued_micro_cycles (x : Wale) (e : Bool) : (x.issued e).micro.cycles = x.micro.cycles := rfl
@[simp] theorem Wale.issued_micro_replay (x : Wale) (e : Bool) : (x.issued e).micro.replay = x.micro.replay := rfl
@[simp] theorem Wale.issued_micro_first (x : Wale) (e : Bool) : (x.issued e).micro.first = x.micro.first := rfl

/-! ### The outcome of a command -/

/-- A command's outcome is a next state with the block it leaves and the queue as it was. -/
theorem done_eq (b : Block) (s : State) : done b s = .next { s with toBlock := b } := rfl

end Sys2Proof.Machine
end

