-- ==== Sys2Proof/Laws/Micro.lean ====
section
/-! SUPPORT. What a microword can do: nothing on a wale that does not issue, a machine check, or the change its operation makes. And the operand
accesses of the engines, each under the condition the statements name it with. -/
namespace Sys2Proof.Machine

/-- A wale that does not issue executes nothing. -/
theorem micro_idle (s : State) (w : WaleId) (c : Instr) (f : Wale → Except W32 Wale) (h : s.toBlock.issues w = false) :
    done (s.toBlock.micro w c f) s = .next s := by
  simp only [Block.micro, h]; rfl
/-- A word that fails its check is a machine check, whatever the operation. -/
theorem micro_bad (s : State) (w : WaleId) (c : Instr) (f : Wale → Except W32 Wale) (d : W32) (h : s.toBlock.issues w = true)
    (k : (s.toBlock.wale w).fetchFault = some d) : done (s.toBlock.micro w c f) s = .next (s.to (s.toBlock.machineCheck w d)) := by
  simp [Block.micro, h, k, done, State.to]
/-- An operation that the stored word does not spell next is not executed. -/
theorem micro_other (s : State) (w : WaleId) (c : Instr) (f : Wale → Except W32 Wale) (h : s.toBlock.issues w = true)
    (k : (s.toBlock.wale w).fetchFault = none) (m : (s.toBlock.wale w).spells w c = false) : done (s.toBlock.micro w c f) s = .next s := by
  simp [Block.micro, h, k, m, done]
/-- An operation that succeeds replaces its wale and nothing else. -/
theorem micro_ok {s : State} {w : WaleId} {c : Instr} {f : Wale → Except W32 Wale} {x : Wale} (h : Issues s w c) (k : f (s.current w) = .ok x) :
    done (s.toBlock.micro w c f) s = .next (s.issued w x) := by
  unfold State.current at k
  simp [Block.micro, h.1, h.2.1, h.2.2, k, done, State.issued, State.toWale, State.to, Block.modWale]
/-- An operation that fails is a machine check with its Detail. -/
theorem micro_check {s : State} {w : WaleId} {c : Instr} {f : Wale → Except W32 Wale} {d : W32} (h : Issues s w c)
    (k : f (s.current w) = .error d) : done (s.toBlock.micro w c f) s = .next (s.to (s.toBlock.machineCheck w d)) := by
  unfold State.current at k
  simp [Block.micro, h.1, h.2.1, h.2.2, k, done, State.to]

/-- The program goes on. -/
theorem after_ok {x : Wale} {nx : Nx} (h : x.roomFor nx) : x.after nx = .ok (x.past nx) := by
  cases nx with
  | stay => rfl
  | inc => simp only [Wale.roomFor] at h; simp [Wale.after, Wale.past, Wale.next, h]
/-- A valid object is named. -/
theorem named_ok {x : Wale} {o : Reg} (h : (x.micro.o[o]).valid = true) : x.named o = .ok (x.micro.o[o]) := by
  simp only [Wale.named]; exact if_pos h
/-- One that is not is a machine check (Table 5.9). -/
theorem named_bad {x : Wale} {o : Reg} (h : (x.micro.o[o]).valid = false) : x.named o = .error 0x10D := by
  simp only [Wale.named]; exact if_neg (by simp_all)
/-- An access inside its object passes. -/
theorem span_ok {x : Wale} {o : Reg} {a n : Nat} (h : x.inObj o a n) : x.inSpan (x.micro.o[o]) a n = .ok () := by
  obtain ⟨_, h2, h3⟩ := h
  simp only [Wale.inSpan, check]
  rw [if_neg]
  simp only [Bool.or_eq_true, decide_eq_true_eq, not_or, Nat.not_lt]
  exact ⟨h2, h3⟩
/-- A readable lattice operand is read with its tag. -/
theorem latRead_ok {x : Wale} {r : LatSrc} (h : x.readable r) : x.latRead r = .ok (x.operand r, x.secretAt r) := by
  obtain ⟨⟨h1, h2⟩, h3⟩ := h
  have k := span_ok h2
  unfold Wale.latRead Wale.operand
  unfold Wale.secretAt at *
  unfold Wale.at at *
  simp only [named_ok h2.1, h1, check, bind, Except.bind, k, Bool.false_eq_true, if_false]
  rw [if_neg]
  simp only [Bool.and_eq_true, beq_iff_eq, not_and, Bool.not_eq_true]
  exact h3
/-- A writable lattice operand takes its bytes and its tag. -/
theorem latWrite_ok {x : Wale} {r : LatSrc} (d : Bytes) (t : Bool) (h : x.writable r) : x.latWrite r d t = .ok (x.result r d t) := by
  obtain ⟨h1, h2⟩ := h
  have k := span_ok h2
  unfold Wale.latWrite Wale.result
  unfold Wale.at at *
  simp only [named_ok h2.1, h1, check, bind, Except.bind, k, Bool.false_eq_true, if_false]
/-- A legal LAT field passes. -/
theorem latLegal_ok {l : LatF} (h : Legal l) : latLegal l = .ok () := by
  unfold latLegal check
  rw [if_neg]
  simp only [Bool.or_eq_true, beq_iff_eq, not_or]
  exact h
/-- A P parameter in range is read. -/
theorem latParam_ok {x : Wale} {l : LatF} {p : Nat → Prop} {q : Nat → Bool} (h : x.param l p) (e : ∀ n, p n → q n = true) :
    x.latParam l q = .ok (x.reg l.ib).toNat := by
  simp only [Wale.latParam, check, h.1, e _ h.2, bind, Except.bind]; rfl
/-- One out of range is a machine check (R116). -/
theorem latParam_bad {x : Wale} {l : LatF} {q : Nat → Bool} (h : x.regS l.ib = false) (e : q (x.reg l.ib).toNat = false) :
    x.latParam l q = .error 0x10E := by
  simp only [Wale.latParam, check, h, e, bind, Except.bind]; rfl
/-- A stored result leaves the program where it is. -/
theorem room_result {x : Wale} {r : LatSrc} {d : Bytes} {t : Bool} {nx : Nx} (h : x.roomFor nx) : (x.result r d t).roomFor nx := by
  cases nx <;> exact h
/-- A one-source lattice operation. -/
theorem latUnary_ok {x : Wale} {l : LatF} {nx : Nx} {f : Bytes → Bytes} (hl : Legal l) (ha : x.readable (latPoly l l.a l.ia))
    (hd : x.writable (latPoly l l.d l.id)) (k : x.roomFor nx) : latUnary l nx f x =
      .ok ((x.result (latPoly l l.d l.id) (f (x.operand (latPoly l l.a l.ia))) (x.secretAt (latPoly l l.a l.ia))).past nx) := by
  unfold latUnary
  simp only [latLegal_ok hl, latRead_ok ha, latWrite_ok _ _ hd, bind, Except.bind]
  exact after_ok (room_result k)
/-- A two-source lattice operation. -/
theorem latBinary_ok {x : Wale} {l : LatF} {nx : Nx} {f : Bytes → Bytes → Bytes} (hl : Legal l) (ha : x.readable (latPoly l l.a l.ia))
    (hb : x.readable (latPoly l l.b l.ib)) (hd : x.writable (latPoly l l.d l.id)) (k : x.roomFor nx) : latBinary l nx f x =
      .ok ((x.result (latPoly l l.d l.id) (f (x.operand (latPoly l l.a l.ia)) (x.operand (latPoly l l.b l.ib)))
        (x.secretAt (latPoly l l.a l.ia) || x.secretAt (latPoly l l.b l.ib))).past nx) := by
  unfold latBinary
  simp only [latLegal_ok hl, latRead_ok ha, latRead_ok hb, latWrite_ok _ _ hd, bind, Except.bind]
  exact after_ok (room_result k)
/-- The length of a hash operation. -/
theorem hashLen_ok {x : Wale} {o : Obj} {r : Reg} (h : x.regS r = false) (k : (x.reg r).toNat ≤ o.len) : x.hashLen o r = .ok (x.reg r).toNat := by
  simp only [Wale.hashLen, check, h, bind, Except.bind, Bool.false_eq_true, if_false]
  rw [if_neg]
  simpa using k
/-- A length beyond the object is a machine check. -/
theorem hashLen_bad {x : Wale} {o : Obj} {r : Reg} (h : x.regS r = false) (k : o.len < (x.reg r).toNat) : x.hashLen o r = .error 0x10E := by
  simp only [Wale.hashLen, check, h, bind, Except.bind, Bool.false_eq_true, if_false]
  rw [if_pos]
  simpa using k
/-- An operand of a primitive operation. -/
theorem bnOperand_ok {x : Wale} {r : Reg} {n : Nat} (h : x.bnHolds r n) : x.bnOperand r n = .ok (x.bnBytes r n) := by
  unfold Wale.bnOperand Wale.bnBytes
  by_cases k : n = 0
  · simp [k]
  · obtain h | ⟨h1, h2, h3⟩ := h
    · exact absurd h k
    · simp only [k, if_false, named_ok h1.1, h2, span_ok h1, check, bind, Except.bind, Bool.false_eq_true]
      rw [if_neg]
      simpa using h3

end Sys2Proof.Machine
end

