-- ==== Sys2Proof/Laws/Words.lean ====
section
/-! SUPPORT. What no shared operation changes: the OTP words that only ever move one way (the stepping, the firmware floor, the
zeroisation count, the fused tamper sources). One lemma for each operation; the few that do change a word have no lemma here. -/
namespace Sys2Proof.Machine

/-- The OTP words that move one way: stepping, firmware floor, zeroisation count, fused sources. -/
def Otp.words (o : Otp) : Byte × Nat × Nat × BitVec 16 := (o.stepping, o.fwFloor, o.zeroCount, o.fused)
/-- The same of a block. -/
def Block.words (b : Block) : Byte × Nat × Nat × BitVec 16 := b.otp.words

@[simp] theorem Block.words_mk now nowHi wrapped timeFabric timeLocked holdover bat otp tam flt rng kst slices jobs dsp wales quads chans ddr host admin att boot flash pwr wty link : (Block.mk now nowHi wrapped timeFabric timeLocked holdover bat otp tam flt rng kst slices jobs dsp wales quads chans ddr host admin att boot flash pwr wty link).words = otp.words := rfl
@[simp] theorem Otp.words_mk stepping lifecycle lifeShadow zeroCount ownerKeyId uds fused fwFloor tries stepDue : (Otp.mk stepping lifecycle lifeShadow zeroCount ownerKeyId uds fused fwFloor tries stepDue).words = (stepping, fwFloor, zeroCount, fused) := rfl
@[simp] theorem Otp.words_eta (o : Otp) : (o.stepping, o.fwFloor, o.zeroCount, o.fused) = o.words := rfl
@[simp] theorem Block.words_otp (b : Block) : b.otp.words = b.words := rfl
@[simp] theorem Block.words_ite (c : Prop) [Decidable c] (x y : Block) : (if c then x else y).words = if c then x.words else y.words := by
  split <;> rfl
theorem foldl_words {α : Type} (f : Block → α → Block) (h : ∀ b x, (f b x).words = b.words) (l : List α) (b : Block) :
    (l.foldl f b).words = b.words := by
  induction l generalizing b with
  | nil => rfl
  | cons x r ih => rw [List.foldl_cons, ih, h]

@[simp] theorem Block.modWale_words (b : Block) (i : Nat) (f : Wale → Wale) : (Block.modWale b i f).words = b.words := by
  unfold Block.modWale; (try dsimp only); (repeat' split) <;> simp
@[simp] theorem Block.modQuad_words (b : Block) (i : Nat) (f : Quad → Quad) : (Block.modQuad b i f).words = b.words := by
  unfold Block.modQuad; (try dsimp only); (repeat' split) <;> simp
@[simp] theorem Block.modChan_words (b : Block) (i : Nat) (f : Chan → Chan) : (Block.modChan b i f).words = b.words := by
  unfold Block.modChan; (try dsimp only); (repeat' split) <;> simp
@[simp] theorem Block.modSlice_words (b : Block) (i : Nat) (f : Slice → Slice) : (Block.modSlice b i f).words = b.words := by
  unfold Block.modSlice; (try dsimp only); (repeat' split) <;> simp
@[simp] theorem Block.modSource_words (b : Block) (i : Nat) (f : Source1 → Source1) : (Block.modSource b i f).words = b.words := by
  unfold Block.modSource; (try dsimp only); (repeat' split) <;> simp
@[simp] theorem Block.modSeeder_words (b : Block) (i : Nat) (f : Seeder → Seeder) : (Block.modSeeder b i f).words = b.words := by
  unfold Block.modSeeder; (try dsimp only); (repeat' split) <;> simp
@[simp] theorem Block.modJob_words (b : Block) (id : Nat) (f : Job → Job) : (Block.modJob b id f).words = b.words := by
  unfold Block.modJob; (try dsimp only); (repeat' split) <;> simp
@[simp] theorem Block.putKey_words (b : Block) (h : W32) (k : Key) : (Block.putKey b h k).words = b.words := by
  unfold Block.putKey; (try dsimp only); (repeat' split) <;> simp
@[simp] theorem Block.modKey_words (b : Block) (h : W32) (f : Key → Key) : (Block.modKey b h f).words = b.words := by
  unfold Block.modKey; (try dsimp only); (repeat' split) <;> simp
@[simp] theorem Block.dropKey_words (b : Block) (h : W32) : (Block.dropKey b h).words = b.words := by
  unfold Block.dropKey; (try dsimp only); (repeat' split) <;> simp
@[simp] theorem Block.raiseCounter_words (b : Block) (n v : Nat) : (Block.raiseCounter b n v).words = b.words := by
  unfold Block.raiseCounter; (try dsimp only); (repeat' split) <;> simp
@[simp] theorem Block.setOwner_words (b : Block) (n : Nat) (o : CtrOwner) : (Block.setOwner b n o).words = b.words := by
  unfold Block.setOwner; (try dsimp only); (repeat' split) <;> simp
@[simp] theorem Block.change_words (b : Block) (c : Change) : (Block.change b c).words = b.words := by
  unfold Block.change; (try dsimp only); (repeat' split) <;> simp
@[simp] theorem Block.setTime_words (b : Block) (e : W64) : (Block.setTime b e).words = b.words := by
  unfold Block.setTime; (try dsimp only); (repeat' split) <;> simp
@[simp] theorem Block.advanceTo_words (b : Block) (t : W64) (d : Nat) : (Block.advanceTo b t d).words = b.words := by
  unfold Block.advanceTo; (try dsimp only); (repeat' split) <;> simp
@[simp] theorem Block.emit_words (b : Block) (o : LinkOp) : (Block.emit b o).words = b.words := by
  unfold Block.emit; (try dsimp only); (repeat' split) <;> simp
@[simp] theorem Block.sendFrame_words (b : Block) (p : PortId) (what : String) (body : Bytes) : (Block.sendFrame b p what body).words = b.words := by
  unfold Block.sendFrame; (try dsimp only); (repeat' split) <;> simp
@[simp] theorem Block.msix_words (b : Block) (v : Nat) : (Block.msix b v).words = b.words := by
  unfold Block.msix; (try dsimp only); (repeat' split) <;> simp
@[simp] theorem Block.sliceIrq_words (b : Block) (s : Nat) (i : Nat) : (Block.sliceIrq b s i).words = b.words := by
  unfold Block.sliceIrq; (try dsimp only); (repeat' split) <;> simp
@[simp] theorem Block.event_words (b : Block) (i : Nat) : (Block.event b i).words = b.words := by
  unfold Block.event; (try dsimp only); (repeat' split) <;> simp
@[simp] theorem Block.sliceTo_words (b : Block) (s : Nat) (st : SliceSt) : (Block.sliceTo b s st).words = b.words := by
  unfold Block.sliceTo; (try dsimp only); (repeat' split) <;> simp
@[simp] theorem Block.charge_words (b : Block) (s n : Nat) : (Block.charge b s n).words = b.words := by
  unfold Block.charge; (try dsimp only); (repeat' split) <;> simp
@[simp] theorem Block.hostWrite_words (b : Block) (s : Nat) (a : W64) (d : Bytes) : (Block.hostWrite b s a d).words = b.words := by
  unfold Block.hostWrite; (try dsimp only); (repeat' split) <;> simp
@[simp] theorem Block.outputWrites_words (b : Block) (s n : Nat) (a : W64) (d : Bytes) : (b.outputWrites s n a d).words = b.words := by
  induction n generalizing b a d with
  | zero => rfl
  | succ n ih => unfold Block.outputWrites; split <;> simp [ih]
@[simp] theorem Block.latchRing_words (b : Block) (s : Nat) (code : Byte) (isCq : Bool) (n : Fin 8) (index : W16) (addr : W64) : (Block.latchRing b s code isCq n index addr).words = b.words := by
  unfold Block.latchRing; (try dsimp only); (repeat' split) <;> simp
@[simp] theorem Block.modSq_words (b : Block) (s : Nat) (n : Fin 8) (f : Sq → Sq) : (Block.modSq b s n f).words = b.words := by
  unfold Block.modSq; (try dsimp only); (repeat' split) <;> simp
@[simp] theorem Block.modCq_words (b : Block) (s : Nat) (n : Fin 8) (f : Cq → Cq) : (Block.modCq b s n f).words = b.words := by
  unfold Block.modCq; (try dsimp only); (repeat' split) <;> simp
@[simp] theorem Block.haltSq_words (b : Block) (s : Nat) (n : Fin 8) (code : Byte) (index : W16) (addr : W64) : (Block.haltSq b s n code index addr).words = b.words := by
  unfold Block.haltSq; (try dsimp only); (repeat' split) <;> simp
@[simp] theorem Block.haltCq_words (b : Block) (s : Nat) (n : Fin 8) (code : Byte) (index : W16) (addr : W64) : (Block.haltCq b s n code index addr).words = b.words := by
  unfold Block.haltCq; (try dsimp only); (repeat' split) <;> simp
@[simp] theorem Block.announce_words (b : Block) (s : Nat) (n : Fin 8) : (Block.announce b s n).words = b.words := by
  unfold Block.announce; (try dsimp only); (repeat' split) <;> simp
@[simp] theorem Block.moderate_words (b : Block) (s : Nat) (n : Fin 8) : (Block.moderate b s n).words = b.words := by
  unfold Block.moderate; (try dsimp only); (repeat' split) <;> simp
@[simp] theorem Block.checkRest_words (b : Block) (s : Nat) : (Block.checkRest b s).words = b.words := by
  unfold Block.checkRest; (try dsimp only); (repeat' split) <;> simp
@[simp] theorem Block.modBox_words (b : Block) (x : Option SliceId) (f : Mbx → Mbx) : (Block.modBox b x f).words = b.words := by
  unfold Block.modBox; (try dsimp only); (repeat' split) <;> simp
@[simp] theorem Block.unexpected_words (b : Block) : (Block.unexpected b).words = b.words := by
  unfold Block.unexpected; (try dsimp only); (repeat' split) <;> simp
@[simp] theorem Block.boxWrites_words (x : Option SliceId) (n : Nat) (a : W64) (d : Bytes) (b : Block) : (Block.boxWrites x n a d b).1.words = b.words := by
  induction n generalizing b a d with
  | zero => rfl
  | succ n ih => unfold Block.boxWrites; (try dsimp only); (repeat' split) <;> simp [ih]
@[simp] theorem Block.boxReads_words (x : Option SliceId) (n : Nat) (a : W64) (l : Nat) (b : Block) : (Block.boxReads x n a l b).1.words = b.words := by
  induction n generalizing b a l with
  | zero => rfl
  | succ n ih => unfold Block.boxReads; (try dsimp only); (repeat' split) <;> simp [ih]
@[simp] theorem Block.signalDone_words (b : Block) (x : Option SliceId) : (Block.signalDone b x).words = b.words := by
  unfold Block.signalDone; (try dsimp only); (repeat' split) <;> simp
@[simp] theorem Block.sendReply_words (b : Block) (x : Option SliceId) (a : W64) (d frame : Bytes) : (Block.sendReply b x a d frame).words = b.words := by
  unfold Block.sendReply
  have k := Block.boxWrites_words x (d.length + 1) a d b
  generalize Block.boxWrites x (d.length + 1) a d b = r at k ⊢
  obtain ⟨b', a', d'⟩ := r
  (try dsimp only at k ⊢); (repeat' split) <;> simp [k]
@[simp] theorem Block.reply_words (b : Block) (r : Req) (code : W16) (y : Reply) : (Block.reply b r code y).words = b.words := by
  unfold Block.reply; (try dsimp only); (repeat' split) <;> simp
@[simp] theorem Block.complete_words (b : Block) (x : Option SliceId) (y : Reply) : (Block.complete b x y).words = b.words := by
  unfold Block.complete; (try dsimp only); (repeat' split) <;> simp
@[simp] theorem Block.setFences_words (b : Block) (m : FenceMap) : (Block.setFences b m).words = b.words := by
  unfold Block.setFences; (try dsimp only); (repeat' split) <;> simp
@[simp] theorem Block.countAvail_words (old b : Block) : (Block.countAvail old b).words = b.words := by
  unfold Block.countAvail; (try dsimp only)
  split <;> simp
@[simp] theorem Block.keepReserved_words (b : Block) : (Block.keepReserved b).words = b.words := by
  unfold Block.keepReserved; (try dsimp only); (repeat' split) <;> simp
@[simp] theorem Block.setDeficit_words (b : Block) (lvl s v : Nat) : (Block.setDeficit b lvl s v).words = b.words := by
  unfold Block.setDeficit; (try dsimp only); (repeat' split) <;> simp
@[simp] theorem Block.setPointer_words (b : Block) (lvl : Nat) (p : Pointer) : (Block.setPointer b lvl p).words = b.words := by
  unfold Block.setPointer; (try dsimp only); (repeat' split) <;> simp
@[simp] theorem Block.dryDeficit_words (b : Block) (lvl s : Nat) : (Block.dryDeficit b lvl s).words = b.words := by
  unfold Block.dryDeficit; (try dsimp only); (repeat' split) <;> simp
@[simp] theorem Block.wake_words (b : Block) (i : Nat) : (Block.wake b i).words = b.words := by
  unfold Block.wake; (try dsimp only); (repeat' split) <;> simp
@[simp] theorem Block.wakeSome_words (p : Wale → Bool) (q n : Nat) (b : Block) : (Block.wakeSome p q n b).words = b.words := by
  induction n generalizing b with
  | zero => rfl
  | succ n ih => unfold Block.wakeSome; (try dsimp only); split <;> simp [ih]
@[simp] theorem Block.refill_words (b : Block) : (Block.refill b).words = b.words := by
  unfold Block.refill; split
  · rfl
  · refine foldl_words _ ?_ _ _; intro b c; (try dsimp only); split
    · simp
    · rfl
@[simp] theorem Block.releaseCtr_words (b : Block) (j : Job) : (Block.releaseCtr b j).words = b.words := by
  unfold Block.releaseCtr; (try dsimp only); (repeat' split) <;> simp
@[simp] theorem Block.leaveSkein_words (b : Block) (j : Job) : (Block.leaveSkein b j).words = b.words := by
  unfold Block.leaveSkein; (try dsimp only); (repeat' split) <;> simp
@[simp] theorem Block.writeRecord_words (b : Block) (j : Job) : (Block.writeRecord b j).words = b.words := by
  unfold Block.writeRecord; (try dsimp only); (repeat' split) <;> simp
@[simp] theorem Block.releaseFrom_words (l : List Nat) (b : Block) : (Block.releaseFrom l b).words = b.words := by
  induction l generalizing b with
  | nil => rfl
  | cons x r ih => unfold Block.releaseFrom; (repeat' split) <;> simp [ih]
@[simp] theorem Block.finish_words (b : Block) (id : Nat) : (Block.finish b id).words = b.words := by
  unfold Block.finish; (try dsimp only); (repeat' split) <;> first | rfl | simp [Block.checkRest_words] | skip
@[simp] theorem Block.settleSlots_words (b : Block) (q : Nat) : (Block.settleSlots b q).words = b.words := by
  unfold Block.settleSlots; (try dsimp only); (repeat' split) <;> simp
@[simp] theorem Block.wipeAll_words (ws : List WaleId) (b : Block) : (Block.wipeAll ws b).words = b.words := by
  unfold Block.wipeAll; (try dsimp only); (repeat' split) <;> simp [foldl_words]
@[simp] theorem Block.returnUse_words (b : Block) (j : Job) : (Block.returnUse b j).words = b.words := by
  unfold Block.returnUse; (try dsimp only); (repeat' split) <;> simp [foldl_words]
@[simp] theorem Block.countWait_words (b : Block) (j : Job) : (Block.countWait b j).words = b.words := by
  unfold Block.countWait; (try dsimp only); (repeat' split) <;> simp
@[simp] theorem Block.failReady_words (b : Block) (j : Job) (st : W16) (d : W32) : (Block.failReady b j st d).words = b.words := by
  unfold Block.failReady; (try dsimp only); (repeat' split) <;> simp
@[simp] theorem Block.pushRecord_words (b : Block) (c : Nat) (r : DmaRec) : (Block.pushRecord b c r).words = b.words := by
  unfold Block.pushRecord; (try dsimp only); (repeat' split) <;> simp
@[simp] theorem Block.endInvals_words (b : Block) (c : Nat) : (Block.endInvals b c).words = b.words := by
  unfold Block.endInvals; (try dsimp only); (repeat' split) <;> simp [foldl_words]
@[simp] theorem Block.touchQuiet_words (b : Block) (q : Nat) : (Block.touchQuiet b q).words = b.words := by
  unfold Block.touchQuiet; (try dsimp only); (repeat' split) <;> simp
@[simp] theorem Block.closeXfer_words (b : Block) (c : Nat) (x : Xfer) : (Block.closeXfer b c x).words = b.words := by
  unfold Block.closeXfer; (try dsimp only); (repeat' split) <;> simp
@[simp] theorem Block.stopXfers_words (b : Block) (id : Nat) : (Block.stopXfers b id).words = b.words := by
  unfold Block.stopXfers; (try dsimp only); refine foldl_words _ ?_ _ _; intro b c; (try dsimp only); (repeat' split) <;> simp
@[simp] theorem Block.endGranted_words (b : Block) (j : Job) (st : W16) (d : W32) : (Block.endGranted b j st d).words = b.words := by
  unfold Block.endGranted; (try dsimp only); (repeat' split) <;> simp
@[simp] theorem Block.failJob_words (b : Block) (id : Nat) (st : W16) (d : W32) : (Block.failJob b id st d).words = b.words := by
  unfold Block.failJob; (try dsimp only); (repeat' split) <;> simp
@[simp] theorem Block.failNow_words (b : Block) (id : Nat) (st : W16) (d : W32) : (Block.failNow b id st d).words = b.words := by
  unfold Block.failNow; (try dsimp only); (repeat' split) <;> simp
@[simp] theorem Block.failNoted_words (b : Block) (id : Nat) (n : W64 × W16) (st : W16) (d : W32) : (Block.failNoted b id n st d).words = b.words := by
  unfold Block.failNoted; (try dsimp only); (repeat' split) <;> simp
@[simp] theorem Block.releaseNoted_words (b : Block) : (Block.releaseNoted b).words = b.words := by
  unfold Block.releaseNoted; refine foldl_words _ ?_ _ _; intro b i; (try dsimp only); (repeat' split) <;> simp
@[simp] theorem Block.failJobs_words (ids : List Nat) (st : W16) (d : W32) (b : Block) : (Block.failJobs ids st d b).words = b.words := by
  unfold Block.failJobs; (try dsimp only); (repeat' split) <;> simp [foldl_words]
@[simp] theorem Block.flushFenced_words (b : Block) : (Block.flushFenced b).words = b.words := by
  unfold Block.flushFenced; (try dsimp only)
  rw [Block.failJobs_words, Block.failJobs_words]
  refine foldl_words _ ?_ _ _; intro b c; (try dsimp only); split <;> simp
@[simp] theorem Block.flushDdr_words (b : Block) : (Block.flushDdr b).words = b.words := by
  unfold Block.flushDdr; (try dsimp only); (repeat' split) <;> simp
@[simp] theorem Block.moveRail_words (b : Block) : (Block.moveRail b).words = b.words := by
  unfold Block.moveRail; (try dsimp only); (repeat' split) <;> simp
@[simp] theorem Block.planWale_words (b : Block) (w : Nat) : (Block.planWale b w).words = b.words := by
  unfold Block.planWale; (try dsimp only); (repeat' split) <;> simp
@[simp] theorem Block.planQuad_words (b : Block) (q : Nat) : (Block.planQuad b q).words = b.words := by
  unfold Block.planQuad; (try dsimp only); (repeat' split) <;> simp [foldl_words]
@[simp] theorem Block.startRuns_words (b : Block) : (Block.startRuns b).words = b.words := by
  unfold Block.startRuns
  split
  · rfl
  · (try dsimp only)
    refine (foldl_words _ ?_ _ _).trans rfl
    intro b q; (try dsimp only); (repeat' split) <;> simp
@[simp] theorem Block.discardHeld_words (b : Block) (i : Nat) : (Block.discardHeld b i).words = b.words := by
  unfold Block.discardHeld; (try dsimp only); (repeat' split) <;> simp
@[simp] theorem Block.restSource_words (b : Block) (i : Nat) : (Block.restSource b i).words = b.words := by
  unfold Block.restSource; (try dsimp only); (repeat' split) <;> simp
@[simp] theorem Block.takeBlocks_words (b : Block) (q n : Nat) : (Block.takeBlocks b q n).words = b.words := by
  unfold Block.takeBlocks; (try dsimp only); (repeat' split) <;> simp
@[simp] theorem Block.reseeded_words (b : Block) (q : Nat) : (Block.reseeded b q).words = b.words := by
  unfold Block.reseeded; (try dsimp only); (repeat' split) <;> simp
@[simp] theorem Block.relaySeed_words (b : Block) (q : Nat) (d : Fin 4) : (Block.relaySeed b q d).words = b.words := by
  unfold Block.relaySeed; (try dsimp only); (repeat' split) <;> simp
@[simp] theorem Block.reseedSeeder_words (b : Block) (q : Nat) : (Block.reseedSeeder b q).words = b.words := by
  unfold Block.reseedSeeder; (try dsimp only); (repeat' split) <;> simp
@[simp] theorem Block.settleSeeder_words (b : Block) (q : Nat) : (Block.settleSeeder b q).words = b.words := by
  unfold Block.settleSeeder; (try dsimp only); (repeat' split) <;> simp
@[simp] theorem Block.flushEntropy_words (b : Block) : (Block.flushEntropy b).words = b.words := by
  unfold Block.flushEntropy; (try dsimp only); (repeat' split) <;> simp
@[simp] theorem Block.settleEntropy_words (b : Block) : (Block.settleEntropy b).words = b.words := by
  unfold Block.settleEntropy; (try dsimp only); (repeat' split) <;> simp
@[simp] theorem Block.takeNote_words (b : Block) (n : Note) : (Block.takeNote b n).words = b.words := by
  unfold Block.takeNote; (try dsimp only); (repeat' split) <;> simp
@[simp] theorem Block.setLock_words (b : Block) (locked holdover : Bool) : (Block.setLock b locked holdover).words = b.words := by
  unfold Block.setLock; (try dsimp only); (repeat' split) <;> simp
@[simp] theorem Block.modPort_words (b : Block) (p : PortId) (f : Port → Port) : (Block.modPort b p f).words = b.words := by
  unfold Block.modPort; (try dsimp only); (repeat' split) <;> simp
@[simp] theorem Block.modWty_words (b : Block) (f : Fabric → Fabric) : (Block.modWty b f).words = b.words := by
  unfold Block.modWty; (try dsimp only); (repeat' split) <;> simp
@[simp] theorem Block.fabricF0_words (b : Block) (port fn : Nat) (kind : Byte) (detail : W32) : (Block.fabricF0 b port fn kind detail).words = b.words := by
  unfold Block.fabricF0; (try dsimp only); (repeat' split) <;> simp
@[simp] theorem Block.enterHoldover_words (b : Block) : (Block.enterHoldover b).words = b.words := by
  unfold Block.enterHoldover; (try dsimp only); (repeat' split) <;> simp
@[simp] theorem Block.promote_words (b : Block) (old : PortId) : (Block.promote b old).words = b.words := by
  unfold Block.promote; (try dsimp only); (repeat' split) <;> simp
@[simp] theorem Block.dropForwards_words (b : Block) (p : PortId) : (Block.dropForwards b p).words = b.words := by
  unfold Block.dropForwards; (try dsimp only); (repeat' split) <;> simp
@[simp] theorem Block.linkLost_words (b : Block) (p : PortId) : (Block.linkLost b p).words = b.words := by
  unfold Block.linkLost; (try dsimp only); (repeat' split) <;> simp
@[simp] theorem Block.settleFence_words (b : Block) (i : Nat) : (Block.settleFence b i).words = b.words := by
  unfold Block.settleFence; (try dsimp only); (repeat' split) <;> simp
@[simp] theorem Block.fenceUnit_words (b : Block) (u : FUnit) (n : Note) : (Block.fenceUnit b u n).words = b.words := by
  unfold Block.fenceUnit; (try dsimp only); (repeat' split) <;> simp [foldl_words]
@[simp] theorem Block.linkGone_words (b : Block) (p : PortId) : (Block.linkGone b p).words = b.words := by
  unfold Block.linkGone; (try dsimp only); (repeat' split) <;> simp
@[simp] theorem Block.linkDown_words (b : Block) (p : PortId) : (Block.linkDown b p).words = b.words := by
  unfold Block.linkDown; (try dsimp only); (repeat' split) <;> simp
@[simp] theorem Block.dropLinks_words (b : Block) : (Block.dropLinks b).words = b.words := by
  unfold Block.dropLinks; (try dsimp only); (repeat' split) <;> simp [foldl_words]
@[simp] theorem Block.abortWaits_words (b : Block) (d : W32) : (Block.abortWaits b d).words = b.words := by
  unfold Block.abortWaits; (try dsimp only); (repeat' split) <;> simp [foldl_words]
@[simp] theorem Block.halt_words (b : Block) (d : W32) : (Block.halt b d).words = b.words := by
  unfold Block.halt; (try dsimp only); (repeat' split) <;> simp [foldl_words]
@[simp] theorem Block.sendNotice_words (b : Block) (not : Option PortId) (sender : BitVec 12) (term : Nat) : (Block.sendNotice b not sender term).words = b.words := by
  unfold Block.sendNotice; (try dsimp only); (repeat' split) <;> simp [foldl_words]
@[simp] theorem Block.dropCustomer_words (b : Block) : (Block.dropCustomer b).words = b.words := by
  unfold Block.dropCustomer; (try dsimp only); (repeat' split) <;> simp
@[simp] theorem Block.advanceCat_words (b : Block) : (Block.advanceCat b).words = b.words := by
  unfold Block.advanceCat; (try dsimp only); (repeat' split) <;> simp
@[simp] theorem Block.dropCarried_words (b : Block) : (Block.dropCarried b).words = b.words := by
  unfold Block.dropCarried; (try dsimp only); (repeat' split) <;> simp
@[simp] theorem Block.zeroiseLine_words (b : Block) : (Block.zeroiseLine b).words = b.words := by
  unfold Block.zeroiseLine; (try dsimp only); (repeat' split) <;> simp
@[simp] theorem Block.seal_words (b : Block) : (Block.seal b).words = b.words := by
  unfold Block.seal; (try dsimp only); (repeat' split) <;> simp
@[simp] theorem Block.react_words (b : Block) (n : Note) : (Block.react b n).words = b.words := by
  unfold Block.react; (try dsimp only); (repeat' split) <;> simp
@[simp] theorem Block.holdParity_words (b : Block) (u : W16) : (Block.holdParity b u).words = b.words := by
  unfold Block.holdParity; (try dsimp only); (repeat' split) <;> simp
@[simp] theorem Block.raise_words (b : Block) (r : Raise) : (Block.raise b r).words = b.words := by
  unfold Block.raise; (try dsimp only); (repeat' split) <;> simp
@[simp] theorem Block.note_words (b : Block) (source : W16) (kind : Byte) (cls : Fin 5) (detail : W32) : (Block.note b source kind cls detail).words = b.words := by
  unfold Block.note; (try dsimp only); (repeat' split) <;> simp
@[simp] theorem Block.logEvent_words (b : Block) (source : W16) (conf eff : Resp) (detail : W32) (flags : Byte) : (Block.logEvent b source conf eff detail flags).words = b.words := by
  unfold Block.logEvent; (try dsimp only); (repeat' split) <;> simp
@[simp] theorem Block.respond_words (b : Block) (r : Resp) : (Block.respond b r).words = b.words := by
  unfold Block.respond; (try dsimp only); (repeat' split) <;> simp
@[simp] theorem Block.tamperAlarm_words (b : Block) (t : TamperId) (detail : W32) : (Block.tamperAlarm b t detail).words = b.words := by
  unfold Block.tamperAlarm; (try dsimp only); (repeat' split) <;> simp
@[simp] theorem Block.takeFences_words (b : Block) : (Block.takeFences b).words = b.words := by
  unfold Block.takeFences; (try dsimp only); refine foldl_words _ ?_ _ _; intro b c; (try dsimp only); (repeat' split) <;> simp
@[simp] theorem Block.sendPeriodic_words (b : Block) (p : PortId) : (Block.sendPeriodic b p).words = b.words := by
  unfold Block.sendPeriodic; (try dsimp only); (repeat' split) <;> simp
@[simp] theorem Block.tick_words (b : Block) : (Block.tick b).words = b.words := by
  unfold Block.tick; (try dsimp only); (repeat' split) <;> simp [foldl_words]
@[simp] theorem Block.drew_words (b : Block) (n : Nat) : (Block.drew b n).words = b.words := by
  unfold Block.drew; (try dsimp only); (repeat' split) <;> simp
@[simp] theorem Block.seedRequest_words (b : Block) (q n : Nat) : (Block.seedRequest b q n).words = b.words := by
  unfold Block.seedRequest; (try dsimp only); (repeat' split) <;> simp
@[simp] theorem Block.seedDraw_words (b : Block) (q n : Nat) : (Block.seedDraw b q n).words = b.words := by
  unfold Block.seedDraw; refine foldl_words _ ?_ _ _; intro b k; simp
@[simp] theorem Block.serveSeeds_words (q n : Nat) (b : Block) : (Block.serveSeeds q n b).words = b.words := by
  induction n generalizing b with
  | zero => rfl
  | succ n ih => unfold Block.serveSeeds; (try dsimp only); (repeat' split) <;> simp [ih]
@[simp] theorem Block.serveRanks_words (b : Block) (q : Nat) : (Block.serveRanks b q).words = b.words := by
  unfold Block.serveRanks; simp
theorem Block.drawDevice_words {b c : Block} {n : Nat} {x : Bytes} (h : b.drawDevice n = some (x, c)) : c.words = b.words := by
  unfold Block.drawDevice at h; split at h
  · cases h; simp
  · cases h
@[simp] theorem Block.assign_words (b : Block) (scope : Nat) : (Block.assign b scope).1.words = b.words := by
  rfl
@[simp] theorem Block.setKey_words (b : Block) (h : W32) (k : Key) : (Block.setKey b h k).words = b.words := by
  unfold Block.setKey; (try dsimp only); (repeat' split) <;> simp
@[simp] theorem Block.enterKey_words (b : Block) (scope : Nat) (h : W32) (k : Key) : (Block.enterKey b scope h k).words = b.words := by
  unfold Block.enterKey; (try dsimp only); (repeat' split) <;> simp
@[simp] theorem Block.createKey_words (b : Block) (scope : Nat) (k : Key) : (Block.createKey b scope k).1.words = b.words := by
  unfold Block.createKey; simp
@[simp] theorem Block.eraseKey_words (b : Block) (h : W32) : (Block.eraseKey b h).words = b.words := by
  unfold Block.eraseKey; (try dsimp only); (repeat' split) <;> simp
@[simp] theorem Block.attach_words (b : Block) (o : DdrObject) : (Block.attach b o).words = b.words := by
  unfold Block.attach; (try dsimp only); (repeat' split) <;> simp
@[simp] theorem Block.attachWrite_words (b : Block) (id : Nat) : (Block.attachWrite b id).words = b.words := by
  unfold Block.attachWrite; (try dsimp only); (repeat' split) <;> simp
@[simp] theorem Block.applyEffect_words (b : Block) (j : Job) (d : W32) (e : Effect) : (b.applyEffect j d e).1.words = b.words := by
  cases e <;> simp [Block.applyEffect] <;> (repeat' split) <;> simp
@[simp] theorem Block.applyEffects_words (b : Block) (j : Job) (l : List Effect) (d : W32) : (b.applyEffects j l d).1.words = b.words := by
  induction l generalizing b d with
  | nil => rfl
  | cons x r ih => simp [Block.applyEffects, ih]
@[simp] theorem Block.checkNote_words (b : Block) (w : WaleId) (detail : W32) : (Block.checkNote b w detail).words = b.words := by
  unfold Block.checkNote; (try dsimp only); (repeat' split) <;> simp
@[simp] theorem Block.machineCheck_words (b : Block) (w : WaleId) (detail : W32) : (Block.machineCheck b w detail).words = b.words := by
  unfold Block.machineCheck; (try dsimp only); (repeat' split) <;> simp
@[simp] theorem Block.micro_words (b : Block) (w : WaleId) (c : Instr) (f : Wale → Except W32 Wale) : (Block.micro b w c f).words = b.words := by
  unfold Block.micro; (try dsimp only); (repeat' split) <;> simp
@[simp] theorem Block.reload_words (b : Block) (w : Nat) : (Block.reload b w).words = b.words := by
  unfold Block.reload; (try dsimp only); (repeat' split) <;> simp
@[simp] theorem Block.loadLate_words (b : Block) (w : Nat) : (Block.loadLate b w).words = b.words := by
  unfold Block.loadLate; (try dsimp only); (repeat' split) <;> simp
@[simp] theorem Block.liftWale_words (b : Block) (w : Nat) : (Block.liftWale b w).words = b.words := by
  unfold Block.liftWale; (try dsimp only); (repeat' split) <;> simp
@[simp] theorem Block.unfence_words (b : Block) (u : FUnit) : (Block.unfence b u).words = b.words := by
  unfold Block.unfence; (try dsimp only); (repeat' split) <;> simp [foldl_words]
@[simp] theorem Block.relock_words (b : Block) (q : Nat) : (Block.relock b q).words = b.words := by
  unfold Block.relock; (try dsimp only); (repeat' split) <;> simp
@[simp] theorem Block.setXfer_words (b : Block) (c : Nat) (x : Xfer) : (Block.setXfer b c x).words = b.words := by
  unfold Block.setXfer; (try dsimp only); (repeat' split) <;> simp
@[simp] theorem Block.issue_words (c n : Nat) (b : Block) : (Block.issue c n b).words = b.words := by
  induction n generalizing b with
  | zero => rfl
  | succ n ih => unfold Block.issue; (try dsimp only); (repeat' split) <;> simp [ih]
@[simp] theorem Block.deliver_words (b : Block) (x : Xfer) : (Block.deliver b x).words = b.words := by
  unfold Block.deliver; (try dsimp only); (repeat' split) <;> simp
@[simp] theorem Block.xferNote_words (b : Block) (c : Nat) (x : Xfer) : (Block.xferNote b c x).words = b.words := by
  unfold Block.xferNote; (try dsimp only); (repeat' split) <;> simp
@[simp] theorem Block.settleXfer_words (b : Block) (c : Nat) : (Block.settleXfer b c).words = b.words := by
  unfold Block.settleXfer; (try dsimp only); (repeat' split) <;> simp
@[simp] theorem Block.failXfer_words (b : Block) (c : Nat) (cause : Byte) (answered : Bool) : (Block.failXfer b c cause answered).words = b.words := by
  unfold Block.failXfer; (try dsimp only); (repeat' split) <;> simp
@[simp] theorem Block.resumeXfer_words (b : Block) (c : Nat) : (Block.resumeXfer b c).words = b.words := by
  unfold Block.resumeXfer; split
  · rw [Block.settleXfer_words]; exact Block.issue_words _ _ _
  · rfl
@[simp] theorem Block.startXfer_words (b : Block) (c : Nat) (x : Xfer) : (Block.startXfer b c x).words = b.words := by
  unfold Block.startXfer; (try dsimp only); (repeat' split) <;> simp
@[simp] theorem Block.startRead_words (b : Block) (id : Nat) : (Block.startRead b id).words = b.words := by
  unfold Block.startRead; (try dsimp only); (repeat' split) <;> simp
@[simp] theorem Block.placeOperands_words (b : Block) (j : Job) : (Block.placeOperands b j).words = b.words := by
  unfold Block.placeOperands; (try dsimp only); (repeat' split) <;> simp
@[simp] theorem Block.beginRun_words (b : Block) (j : Job) : (Block.beginRun b j).words = b.words := by
  unfold Block.beginRun; (try dsimp only); (repeat' split) <;> simp [foldl_words]
@[simp] theorem Block.conclude_words (b : Block) (j : Job) : (Block.conclude b j).words = b.words := by
  unfold Block.conclude
  have k := Block.applyEffects_words b j j.result.effects j.result.detail
  generalize b.applyEffects j j.result.effects j.result.detail = r at k ⊢
  obtain ⟨b', d⟩ := r
  (try dsimp only at k ⊢); (repeat' split) <;> simp [k]
@[simp] theorem Block.sendForward_words (b : Block) (j : Job) : (Block.sendForward b j).words = b.words := by
  unfold Block.sendForward; (try dsimp only); (repeat' split) <;> simp
@[simp] theorem Block.startWrite_words (b : Block) (j : Job) : (Block.startWrite b j).words = b.words := by
  unfold Block.startWrite; (try dsimp only); (repeat' split) <;> simp
@[simp] theorem Block.pump_words (b : Block) (id : Nat) : (Block.pump b id).words = b.words := by
  unfold Block.pump; (try dsimp only); (repeat' split) <;> simp
@[simp] theorem Block.pumpQuad_words (b : Block) (q : Nat) : (Block.pumpQuad b q).words = b.words := by
  unfold Block.pumpQuad; (try dsimp only); (repeat' split) <;> simp [foldl_words]
@[simp] theorem Block.passed_words (b : Block) (id : Nat) : (Block.passed b id).words = b.words := by
  unfold Block.passed; (try dsimp only); (repeat' split) <;> simp
@[simp] theorem Block.present_words (b : Block) (id : Nat) (r : JobResult) : (Block.present b id r).words = b.words := by
  unfold Block.present; (try dsimp only); (repeat' split) <;> simp
@[simp] theorem Block.presentEarly_words (b : Block) : (Block.presentEarly b).words = b.words := by
  unfold Block.presentEarly; refine foldl_words _ ?_ _ _; intro b j; (try dsimp only); (repeat' split) <;> simp
@[simp] theorem Block.streamIn_words (b : Block) (x : Xfer) (d : Bytes) : (Block.streamIn b x d).words = b.words := by
  unfold Block.streamIn; (try dsimp only); (repeat' split) <;> simp [foldl_words]
@[simp] theorem Block.retirePage_words (b : Block) (c : Fin 2) (page : Nat) : (Block.retirePage b c page).words = b.words := by
  unfold Block.retirePage; (try dsimp only); split
  · rfl
  · refine (foldl_words _ ?_ _ _).trans rfl; intro b h; split <;> simp
@[simp] theorem Block.ddrError_words (b : Block) (c : Nat) (x : Xfer) : (Block.ddrError b c x).words = b.words := by
  unfold Block.ddrError; (try dsimp only); (repeat' split) <;> simp
@[simp] theorem Block.chanTimeout_words (b : Block) (c : ChanId) : (Block.chanTimeout b c).words = b.words := by
  unfold Block.chanTimeout; (try dsimp only); (repeat' split) <;> simp
@[simp] theorem Block.drainKept_words (b : Block) (q : Nat) : (Block.drainKept b q).words = b.words := by
  unfold Block.drainKept; (try dsimp only); refine foldl_words _ ?_ _ _; intro b c; (try dsimp only); (repeat' split) <;> simp
@[simp] theorem Block.consumeRecord_words (b : Block) (q : QuadId) : (Block.consumeRecord b q).words = b.words := by
  unfold Block.consumeRecord; (try dsimp only); (repeat' split) <;> simp
@[simp] theorem Block.arrive_words (b : Block) (lvl s : Nat) : (Block.arrive b lvl s).words = b.words := by
  unfold Block.arrive; (try dsimp only); (repeat' split) <;> simp
@[simp] theorem Block.take_words (b : Block) (lvl : Nat) (j : Job) : (Block.take b lvl j).1.words = b.words := by
  unfold Block.take; (try dsimp only); (repeat' split) <;> simp
@[simp] theorem Block.serve_words (fit : Job → Bool) (lvl : Nat) (l : List Nat) (b : Block) : (Block.serve fit lvl l b).1.words = b.words := by
  induction l generalizing b with
  | nil => simp [Block.serve]
  | cons s r ih => unfold Block.serve; (try dsimp only); (repeat' split) <;> simp [ih]
@[simp] theorem Block.serveFrom_words (fit : Job → Bool) (lo n : Nat) (b : Block) : (Block.serveFrom fit lo n b).1.words = b.words := by
  induction n generalizing b with
  | zero => rfl
  | succ n ih =>
    unfold Block.serveFrom
    split
    · rfl
    · split
      · rfl
      · split
        · exact ih b
        · have h := Block.serve_words fit n (b.visits n) b
          split <;> simp_all
@[simp] theorem Block.seat_words (b : Block) (j : Job) (resume tr : Bool) (x : Seat) : (Block.seat b j resume tr x).words = b.words := by
  unfold Block.seat; (try dsimp only); (repeat' split) <;> simp
@[simp] theorem Block.takeSeal_words (b : Block) (j : Job) : (Block.takeSeal b j).words = b.words := by
  unfold Block.takeSeal; (try dsimp only); (repeat' split) <;> simp
@[simp] theorem Block.consumeUses_words (b : Block) (j : Job) : (Block.consumeUses b j).words = b.words := by
  unfold Block.consumeUses; (try dsimp only)
  rw [Block.takeSeal_words, Block.modJob_words]
  refine (foldl_words _ ?_ _ _).trans ?_
  · intro b h; (try dsimp only); (repeat' split) <;> simp
  · (repeat' split) <;> simp
@[simp] theorem Block.startJob_words (b : Block) (j : Job) (p : Plan) : (Block.startJob b j p).words = b.words := by
  unfold Block.startJob; (try dsimp only); (repeat' split) <;> simp [foldl_words]
@[simp] theorem Block.startEmpty_words (b : Block) (j : Job) : (Block.startEmpty b j).words = b.words := by
  unfold Block.startEmpty; (try dsimp only); (repeat' split) <;> simp
@[simp] theorem Block.dropWithdrawn_words (b : Block) : (Block.dropWithdrawn b).words = b.words := by
  unfold Block.dropWithdrawn; (try dsimp only); refine foldl_words _ ?_ _ _; intro b c; (try dsimp only); (repeat' split) <;> simp
@[simp] theorem Block.passedBy_words (b : Block) (l : List Job) (fit rest : Job → Bool) : (Block.passedBy b l fit rest).words = b.words := by
  unfold Block.passedBy; (try dsimp only); (repeat' split) <;> simp
@[simp] theorem Block.give_words (b : Block) (w : Nat) (id : Nat) : (Block.give b w id).words = b.words := by
  unfold Block.give; (try dsimp only); (repeat' split) <;> simp
@[simp] theorem Block.grantWale_words (b : Block) (w : WaleId) : (Block.grantWale b w).words = b.words := by
  unfold Block.grantWale; (try dsimp only)
  split
  · rfl
  · split
    · simp
    · have k := Block.serveFrom_words (fun j => (b.dropWithdrawn.plan j w).isSome)
        (((b.dropWithdrawn.reservedJob (w.val / 16)).map (fun r => r.level.val + 1)).getD 0) 8 b.dropWithdrawn
      generalize Block.serveFrom (fun j => (b.dropWithdrawn.plan j w).isSome) _ 8 b.dropWithdrawn = r at k ⊢
      obtain ⟨b', id⟩ := r
      (try dsimp only at k ⊢); split <;> simp [k]
@[simp] theorem Block.grantEmpty_words (b : Block) : (Block.grantEmpty b).words = b.words := by
  unfold Block.grantEmpty; (try dsimp only)
  split
  · rfl
  · have k := Block.serveFrom_words b.dropWithdrawn.startsEmpty 0 8 b.dropWithdrawn
    generalize Block.serveFrom b.dropWithdrawn.startsEmpty 0 8 b.dropWithdrawn = r at k ⊢
    obtain ⟨b', id⟩ := r
    (try dsimp only at k ⊢); split <;> simp [k]
@[simp] theorem Block.storeSpill_words (b : Block) (w : WaleId) (pages : List Nat) : (Block.storeSpill b w pages).words = b.words := by
  unfold Block.storeSpill; (try dsimp only); (repeat' split) <;> simp
@[simp] theorem Block.idleWale_words (b : Block) (w : Nat) : (Block.idleWale b w).words = b.words := by
  unfold Block.idleWale; (try dsimp only); (repeat' split) <;> simp
@[simp] theorem Block.wipeEnd_words (b : Block) (w : WaleId) (readsZero : Bool) : (Block.wipeEnd b w readsZero).words = b.words := by
  unfold Block.wipeEnd; (try dsimp only); (repeat' split) <;> simp
@[simp] theorem Block.wokenJob_words (b : Block) (w : WaleId) : (Block.wokenJob b w).words = b.words := by
  unfold Block.wokenJob; (try dsimp only); (repeat' split) <;> simp
@[simp] theorem Block.failQuad_words (b : Block) (q : Nat) (st : W16) (d : W32) : (Block.failQuad b q st d).words = b.words := by
  unfold Block.failQuad; (try dsimp only); (repeat' split) <;> simp
@[simp] theorem Block.redundancy_words (b : Block) (j : Job) (ws : List WaleId) (d : W32) : (Block.redundancy b j ws d).words = b.words := by
  unfold Block.redundancy; (try dsimp only); (repeat' split) <;> simp [foldl_words]
@[simp] theorem Block.lockFault_words (b : Block) (q : QuadId) (r : Fin 26) (d : W32) : (Block.lockFault b q r d).words = b.words := by
  unfold Block.lockFault; (try dsimp only); (repeat' split) <;> simp
@[simp] theorem Block.askLock_words (b : Block) (q : QuadId) (r : Fin 26) (t : Fin 52) (beats : Nat) : (Block.askLock b q r t beats).words = b.words := by
  unfold Block.askLock; (try dsimp only); (repeat' split) <;> simp
@[simp] theorem Block.decideRound_words (b : Block) (q : QuadId) (t : Fin 52) (l : List ArbReq) : (Block.decideRound b q t l).words = b.words := by
  unfold Block.decideRound; (try dsimp only); (repeat' split) <;> simp
@[simp] theorem Block.askEntry_words (b : Block) (id : Nat) : (Block.askEntry b id).words = b.words := by
  unfold Block.askEntry; (try dsimp only); (repeat' split) <;> simp
@[simp] theorem Block.admitJob_words (b : Block) (s : SliceId) (n : Fin 8) (index : Nat) (d : Desc) : (Block.admitJob b s n index d).words = b.words := by
  unfold Block.admitJob
  extract_lets sl entry e op fixed fail id key sk cnt k k2 ok uses ctr walks lvl j b1 b2 b3 b4 dsp b5 b6 b7
  have h1 : b1.words = b.words := by simp [b1]
  have h2 : b2.words = b.words := by simp [b2, h1]
  have h3 : b3.words = b.words := by simp [b3, h2]
  have h4 : b4.words = b.words := by simp [b4, h3]
  have h5 : b5.words = b.words := h4
  have h6 : b6.words = b.words := by
    simp only [b6]; refine (foldl_words _ ?_ _ _).trans h5; intro b h; simp
  have h7 : b7.words = b.words := by
    simp only [b7]; cases ctr <;> simp [h6]
  (repeat' split) <;> simp [h7]
@[simp] theorem Block.presentResult_words (b : Block) (j : Job) (r : RunResult) : (Block.presentResult b j r).words = b.words := by
  unfold Block.presentResult; (try dsimp only); (repeat' split) <;> simp
theorem Block.workWith_words (b : Block) (id : Nat) (op : Nat → Bool) (pre : Block → Job → Option (W16 × W32)) (draws : Job → Nat) (run : Block → Job → Bytes → Block × RunResult) (hr : ∀ b j d, (run b j d).1.words = b.words) : (Block.workWith b id op pre draws run).words = b.words := by
  unfold Block.workWith; (try dsimp only); split
  · rfl
  · split
    · rfl
    · split
      · simp
      · split
        · rfl
        · rw [Block.presentResult_words, hr]; split <;> simp
@[simp] theorem Block.work_words (b : Block) (id : Nat) (op : Nat → Bool) (pre : Block → Job → Option (W16 × W32)) (draws : Job → Nat) (run : Block → Job → Bytes → RunResult) : (Block.work b id op pre draws run).words = b.words := by
  unfold Block.work; exact Block.workWith_words _ _ _ _ _ _ (fun _ _ _ => rfl)
@[simp] theorem Block.kemKeygen_words (b : Block) (id k : Nat) : (Block.kemKeygen b id k).words = b.words := by
  unfold Block.kemKeygen; (try dsimp only); (repeat' split) <;> simp
@[simp] theorem Block.dsaKeygen_words (b : Block) (id k : Nat) : (Block.dsaKeygen b id k).words = b.words := by
  unfold Block.dsaKeygen; (try dsimp only); (repeat' split) <;> simp
@[simp] theorem Block.dsaSign_words (b : Block) (id k : Nat) : (Block.dsaSign b id k).words = b.words := by
  unfold Block.dsaSign; refine Block.workWith_words _ _ _ _ _ _ ?_; intro b j d; (try dsimp only)
  by_cases h : Config.ask Ask.samplerDone (sigSet j.op) ([j.keyObj.secret, if j.desc.deterministic then zeros 32 else d] ++ j.signed j.input) = true
  · rw [if_pos h]
  · rw [if_neg h]; exact Block.raise_words _ _
@[simp] theorem Block.dsaVerify_words (b : Block) (id k : Nat) : (Block.dsaVerify b id k).words = b.words := by
  unfold Block.dsaVerify; (try dsimp only); (repeat' split) <;> simp
@[simp] theorem Block.fnSign_words (b : Block) (id k : Nat) : (Block.fnSign b id k).words = b.words := by
  unfold Block.fnSign; (try dsimp only); (repeat' split) <;> simp
@[simp] theorem Block.fnVerify_words (b : Block) (id k : Nat) : (Block.fnVerify b id k).words = b.words := by
  unfold Block.fnVerify; (try dsimp only); (repeat' split) <;> simp
@[simp] theorem Block.slhKeygen_words (b : Block) (id k : Nat) : (Block.slhKeygen b id k).words = b.words := by
  unfold Block.slhKeygen; (try dsimp only); (repeat' split) <;> simp
@[simp] theorem Block.slhSign_words (b : Block) (id k : Nat) : (Block.slhSign b id k).words = b.words := by
  unfold Block.slhSign; (try dsimp only); (repeat' split) <;> simp
@[simp] theorem Block.slhVerify_words (b : Block) (id k : Nat) : (Block.slhVerify b id k).words = b.words := by
  unfold Block.slhVerify; (try dsimp only); (repeat' split) <;> simp
@[simp] theorem Block.statefulKeygen_words (b : Block) (id op t : Nat) (a : Alg) (shape : Bytes → Option Shape) : (Block.statefulKeygen b id op t a shape).words = b.words := by
  unfold Block.statefulKeygen; (try dsimp only); (repeat' split) <;> simp
@[simp] theorem Block.statefulSign_words (b : Block) (id op : Nat) (a : Alg) : (Block.statefulSign b id op a).words = b.words := by
  unfold Block.statefulSign; (try dsimp only); (repeat' split) <;> simp
@[simp] theorem Block.statefulVerify_words (b : Block) (id op : Nat) : (Block.statefulVerify b id op).words = b.words := by
  unfold Block.statefulVerify; (try dsimp only); (repeat' split) <;> simp
@[simp] theorem Block.stateOf_words (b : Block) (id op : Nat) : (Block.stateOf b id op).words = b.words := by
  unfold Block.stateOf; (try dsimp only); (repeat' split) <;> simp
@[simp] theorem Block.pumpKey_words (b : Block) (h : W32) : (Block.pumpKey b h).words = b.words := by
  unfold Block.pumpKey; (try dsimp only); (repeat' split) <;> simp [foldl_words]
@[simp] theorem Block.absentObject_words (b : Block) (s : SliceId) (n : Nat) : (Block.absentObject b s n).words = b.words := by
  unfold Block.absentObject
  refine (foldl_words _ ?_ _ _).trans rfl; intro b h; (try dsimp only); split <;> simp
@[simp] theorem Block.overRetained_words (b : Block) (j : Job) (r : RunResult) : (Block.overRetained b j r).1.words = b.words := by
  unfold Block.overRetained; (try dsimp only); (repeat' split) <;> simp
@[simp] theorem Block.edSign_words (b : Block) (id k : Nat) : (Block.edSign b id k).words = b.words := by
  unfold Block.edSign; (try dsimp only); (repeat' split) <;> simp
@[simp] theorem Block.edVerify_words (b : Block) (id k : Nat) : (Block.edVerify b id k).words = b.words := by
  unfold Block.edVerify; (try dsimp only); (repeat' split) <;> simp
@[simp] theorem Block.kdf_words (b : Block) (id op : Nat) (a : Alg) : (Block.kdf b id op a).words = b.words := by
  unfold Block.kdf; (try dsimp only); (repeat' split) <;> simp
@[simp] theorem Block.wrap_words (b : Block) (id op : Nat) : (Block.wrap b id op).words = b.words := by
  unfold Block.wrap; (try dsimp only); (repeat' split) <;> simp
@[simp] theorem Block.unwrap_words (b : Block) (id op : Nat) : (Block.unwrap b id op).words = b.words := by
  unfold Block.unwrap; (try dsimp only); (repeat' split) <;> simp
@[simp] theorem Block.aeadSeal_words (b : Block) (id op : Nat) (ct tag : Alg) : (Block.aeadSeal b id op ct tag).words = b.words := by
  unfold Block.aeadSeal; (try dsimp only); (repeat' split) <;> simp
@[simp] theorem Block.aeadOpen_words (b : Block) (id op : Nat) (pt : Alg) : (Block.aeadOpen b id op pt).words = b.words := by
  unfold Block.aeadOpen; (try dsimp only); (repeat' split) <;> simp
@[simp] theorem Block.prim_words (b : Block) (id op : Nat) (p : Prim) : (Block.prim b id op p).words = b.words := by
  unfold Block.prim; (try dsimp only); (repeat' split) <;> simp
@[simp] theorem Block.writeChange_words (b : Block) (c : Change) : (Block.writeChange b c).words = b.words := by
  unfold Block.writeChange; (try dsimp only); (repeat' split) <;> simp
@[simp] theorem Block.commitOne_words (b : Block) : (Block.commitOne b).words = b.words := by
  unfold Block.commitOne; (try dsimp only); (repeat' split) <;> simp
@[simp] theorem Block.releaseWaits_words (b : Block) : (Block.releaseWaits b).words = b.words := by
  unfold Block.releaseWaits; (try dsimp only); (repeat' split) <;> simp [foldl_words]
@[simp] theorem Block.rebuilt_words (b : Block) (h : Nat) (k : Key) : (Block.rebuilt b h k).words = b.words := by
  unfold Block.rebuilt; (try dsimp only); (repeat' split) <;> simp
@[simp] theorem Block.newRoot_words (b : Block) : (Block.newRoot b).words = b.words := by
  unfold Block.newRoot; split
  · rfl
  · split
    · rename_i h; have h' := Block.drawDevice_words h; exact h'
    · rfl
@[simp] theorem Block.rootIfDue_words (b : Block) : (Block.rootIfDue b).words = b.words := by
  unfold Block.rootIfDue; (try dsimp only); (repeat' split) <;> simp
@[simp] theorem Block.restoreStore_words (b : Block) : (Block.restoreStore b).words = b.words := by
  unfold Block.restoreStore; (try dsimp only); (repeat' split) <;> simp [foldl_words]
@[simp] theorem Block.sweepEnd_words (b : Block) : (Block.sweepEnd b).words = b.words := by
  unfold Block.sweepEnd; (try dsimp only); (repeat' split) <;> simp
@[simp] theorem Block.fetch_words (b : Block) (s : SliceId) (n : RingId) : (Block.fetch b s n).words = b.words := by
  unfold Block.fetch; (try dsimp only); (repeat' split) <;> simp
@[simp] theorem Block.resumeRings_words (b : Block) (s : SliceId) : (Block.resumeRings b s).words = b.words := by
  unfold Block.resumeRings; (try dsimp only); (repeat' split) <;> simp [foldl_words]
@[simp] theorem Block.tailDoorbell_words (b : Block) (s : SliceId) (n : RingId) (v : W32) : (Block.tailDoorbell b s n v).words = b.words := by
  unfold Block.tailDoorbell; (try dsimp only); (repeat' split) <;> simp
@[simp] theorem Block.headDoorbell_words (b : Block) (s : SliceId) (n : RingId) (v : W32) : (Block.headDoorbell b s n v).words = b.words := by
  unfold Block.headDoorbell; (try dsimp only); (repeat' split) <;> simp
@[simp] theorem Block.badConfig_words (b : Block) (s : SliceId) (isCq : Bool) (n : RingId) : (Block.badConfig b s isCq n).words = b.words := by
  unfold Block.badConfig; (try dsimp only); (repeat' split) <;> simp
@[simp] theorem Block.sqOn_words (b : Block) (s : SliceId) (n : RingId) (cfg : W32) : (Block.sqOn b s n cfg).words = b.words := by
  unfold Block.sqOn; (try dsimp only); (repeat' split) <;> simp
@[simp] theorem Block.sqOff_words (b : Block) (s : SliceId) (n : RingId) : (Block.sqOff b s n).words = b.words := by
  unfold Block.sqOff; (try dsimp only); (repeat' split) <;> simp
@[simp] theorem Block.cqOn_words (b : Block) (s : SliceId) (n : RingId) (cfg : W32) : (Block.cqOn b s n cfg).words = b.words := by
  unfold Block.cqOn; (try dsimp only); (repeat' split) <;> simp
@[simp] theorem Block.cqOff_words (b : Block) (s : SliceId) (n : RingId) : (Block.cqOff b s n).words = b.words := by
  unfold Block.cqOff; (try dsimp only); (repeat' split) <;> simp
@[simp] theorem Block.clearLatch_words (b : Block) (s : SliceId) : (Block.clearLatch b s).words = b.words := by
  unfold Block.clearLatch; (try dsimp only); (repeat' split) <;> simp
@[simp] theorem Block.tagFreed_words (b0 b : Block) : (Block.tagFreed b0 b).words = b.words := by
  unfold Block.tagFreed; split
  · rfl
  · (try dsimp only)
    refine (foldl_words _ (fun b s => by simp) _ _).trans ((foldl_words _ (fun b s => by simp) _ _).trans (foldl_words _ (fun b s => by simp) _ _))
@[simp] theorem Block.consume_words (b : Block) (s : SliceId) (n : RingId) (d : Desc) : (Block.consume b s n d).words = b.words := by
  unfold Block.consume; (try dsimp only); (repeat' split) <;> simp
@[simp] theorem Block.walkFails_words (b : Block) (j : Job) (cause : Byte) (a : W64) : (Block.walkFails b j cause a).words = b.words := by
  unfold Block.walkFails; (try dsimp only); (repeat' split) <;> simp
@[simp] theorem Block.walkEnds_words (b : Block) (j : Job) (buf : Buf) : (Block.walkEnds b j buf).words = b.words := by
  unfold Block.walkEnds; (try dsimp only); (repeat' split) <;> simp
@[simp] theorem Block.walkEntry_words (b : Block) (j : Job) (buf : Buf) (d : Bytes) : (Block.walkEntry b j buf d).words = b.words := by
  unfold Block.walkEntry; (try dsimp only); (repeat' split) <;> simp
@[simp] theorem Block.sendPending_words (l : List Nat) (b : Block) : (Block.sendPending l b).words = b.words := by
  unfold Block.sendPending; (try dsimp only); (repeat' split) <;> simp [foldl_words]
@[simp] theorem Block.unmask_words (b : Block) (v : Nat) : (Block.unmask b v).words = b.words := by
  unfold Block.unmask; (try dsimp only); (repeat' split) <;> simp
@[simp] theorem Block.setEvents_words (b : Block) (status enable : Byte) : (Block.setEvents b status enable).words = b.words := by
  unfold Block.setEvents; (try dsimp only); (repeat' split) <;> simp
@[simp] theorem Block.writeVector_words (b : Block) (v : Nat) (part : Nat) (x : W32) : (Block.writeVector b v part x).words = b.words := by
  unfold Block.writeVector; (try dsimp only); (repeat' split) <;> simp
@[simp] theorem Block.writeFault_words (b : Block) (o : Nat) (v : W32) : (Block.writeFault b o v).words = b.words := by
  unfold Block.writeFault; (try dsimp only); (repeat' split) <;> simp
@[simp] theorem Block.writeDsp_words (b : Block) (o : Nat) (v : W32) : (Block.writeDsp b o v).words = b.words := by
  have hd : ∀ d, ({ b with dsp := d } : Block).words = b.words := fun _ => rfl
  unfold Block.writeDsp; split
  · exact hd _
  · split
    · exact (Block.touchQuiet_words _ _).trans ((Block.refill_words _).trans (hd _))
    · split
      · exact hd _
      · split
        · exact Block.modQuad_words _ _ _
        · rfl
@[simp] theorem Block.writeCfg_words (b : Block) (r : CfgReg) (v : W32) : (Block.writeCfg b r v).words = b.words := by
  unfold Block.writeCfg; (try dsimp only); (repeat' split) <;> simp
@[simp] theorem Block.writeBar0_words (b : Block) (o : Nat) (v : W32) : (Block.writeBar0 b o v).words = b.words := by
  unfold Block.writeBar0; (try dsimp only); (repeat' split) <;> simp
@[simp] theorem Block.writeSq_words (b : Block) (s : SliceId) (n : RingId) (part : Nat) (v : W32) : (Block.writeSq b s n part v).words = b.words := by
  unfold Block.writeSq; (try dsimp only); (repeat' split) <;> simp
@[simp] theorem Block.writeCq_words (b : Block) (s : SliceId) (n : RingId) (part : Nat) (v : W32) : (Block.writeCq b s n part v).words = b.words := by
  unfold Block.writeCq; (try dsimp only); (repeat' split) <;> simp
@[simp] theorem Block.writePage_words (b : Block) (s : SliceId) (o : Nat) (v : W32) : (Block.writePage b s o v).words = b.words := by
  unfold Block.writePage; (try dsimp only); (repeat' split) <;> simp
theorem Block.answer_words (b : Block) (c : Cmd) (r : Req) (x : Block × Reply) (h : x.1.words = b.words) : (Block.answer b c r x).words = b.words := by
  unfold Block.answer; (repeat' split) <;> simp [h]
theorem Block.taken_words (b : Block) (c : Cmd) (r : Req) (go : Block → Block) (h : ∀ b, (go b).words = b.words) : (Block.taken b c r go).words = b.words := by
  unfold Block.taken; split
  · rfl
  · split
    · have k := Block.boxReads_words r.box (r.declared + 1) r.reqAddr r.declared b
      generalize Block.boxReads r.box (r.declared + 1) r.reqAddr r.declared b = x at k ⊢
      obtain ⟨b', a, n⟩ := x
      (try dsimp only at k ⊢); split
      · rw [h, k]
      · simp [k]
    · exact h b
theorem Block.commandIn_words (b : Block) (c : Cmd) (r : Req) (own : Block → Option (W16 × W32)) (body : Block → Block × Reply) (h : ∀ b, (body b).1.words = b.words) : (Block.commandIn b c r own body).words = b.words := by
  unfold Block.commandIn; refine Block.taken_words _ _ _ _ ?_; intro b; (try dsimp only); split
  · simp
  · exact Block.answer_words _ _ _ _ (h b)
theorem Block.command_words (b : Block) (c : Cmd) (r : Req) (body : Block → Block × Reply) (h : ∀ b, (body b).1.words = b.words) : (Block.command b c r body).words = b.words := by
  unfold Block.command; exact Block.commandIn_words _ _ _ _ _ h
theorem Block.commandWait_words (b : Block) (c : Cmd) (r : Req) (own : Block → Option (W16 × W32)) (body : Block → Block ⊕ (Block × Reply)) (h : ∀ b x, body b = .inl x → x.words = b.words) (h' : ∀ b y, body b = .inr y → y.1.words = b.words) : (Block.commandWait b c r own body).words = b.words := by
  unfold Block.commandWait; refine Block.taken_words _ _ _ _ ?_; intro b; (try dsimp only); split
  · simp
  · split
    · rename_i x hx; simp [h b x hx]
    · rename_i y hy; exact Block.answer_words _ _ _ _ (h' b y hy)
@[simp] theorem Block.rimStops_words (b : Block) : (Block.rimStops b).words = b.words := by
  unfold Block.rimStops; (try dsimp only); (repeat' split) <;> simp [foldl_words]
@[simp] theorem Block.walRead_words (b : Block) (code : W16) (r : Req) (f : Block → Nat → Nat) : (Block.walRead b code r f).words = b.words := by
  unfold Block.walRead; refine Block.command_words _ _ _ _ ?_; intro b; (try dsimp only); split <;> simp
@[simp] theorem Block.extend_words (b : Block) (m : Nat) (d d' : Bytes) : (Block.extend b m d d').words = b.words := by
  unfold Block.extend; (try dsimp only); (repeat' split) <;> simp
@[simp] theorem Block.measure_words (b : Block) (m : Nat) (image : Bytes) : (Block.measure b m image).words = b.words := by
  unfold Block.measure; (try dsimp only); (repeat' split) <;> simp
@[simp] theorem Block.measurePolicies_words (b : Block) : (Block.measurePolicies b).words = b.words := by
  unfold Block.measurePolicies; (try dsimp only); (repeat' split) <;> simp
@[simp] theorem Block.killSpilled_words (b : Block) : (Block.killSpilled b).words = b.words := by
  unfold Block.killSpilled; (try dsimp only); (repeat' split) <;> simp
@[simp] theorem Block.withdrawCustomer_words (b : Block) : (Block.withdrawCustomer b).words = b.words := by
  unfold Block.withdrawCustomer; (try dsimp only); (repeat' split) <;> simp
@[simp] theorem Block.installImage_words (b : Block) (p : Bytes) (bad : W64) : (Block.installImage b p bad).1.words = b.words := by
  unfold Block.installImage; (try dsimp only); (repeat' split) <;> simp [foldl_words]
@[simp] theorem Block.clearImage_words (b : Block) : (Block.clearImage b).1.words = b.words := by
  unfold Block.clearImage; (try dsimp only); (repeat' split) <;> simp
@[simp] theorem Block.csContinue_words (b : Block) : (Block.csContinue b).words = b.words := by
  unfold Block.csContinue; (try dsimp only); (repeat' split) <;> simp
theorem Block.sliceCmd_words (b : Block) (code : W16) (r : Req) (len : Nat → Bool) (states : List SliceSt) (body : Block → SliceId → Block × Reply) (h : ∀ b s, (body b s).1.words = b.words) : (Block.sliceCmd b code r len states body).words = b.words := by
  unfold Block.sliceCmd; refine Block.commandIn_words _ _ _ _ _ ?_; intro b; (try dsimp only); split
  · rfl
  · exact h b _
@[simp] theorem Block.tdiError_words (b : Block) (s : SliceId) : (Block.tdiError b s).words = b.words := by
  unfold Block.tdiError; (try dsimp only); (repeat' split) <;> simp
@[simp] theorem Block.makeSlice_words (b : Block) (s : SliceId) (adsor : Bool) (st : SliceSt) : (Block.makeSlice b s adsor st).words = b.words := by
  unfold Block.makeSlice; (try dsimp only); (repeat' split) <;> simp
@[simp] theorem Block.destroySlice_words (b : Block) (s : SliceId) : (Block.destroySlice b s).words = b.words := by
  unfold Block.destroySlice; (try dsimp only); (repeat' split) <;> simp [foldl_words]
@[simp] theorem Block.dropOver_words (b : Block) (s : SliceId) : (Block.dropOver b s).words = b.words := by
  unfold Block.dropOver; (try dsimp only); refine foldl_words _ ?_ _ _; intro b c; (try dsimp only); (repeat' split) <;> simp
@[simp] theorem Block.forceQuiesce_words (b : Block) (s : SliceId) : (Block.forceQuiesce b s).words = b.words := by
  unfold Block.forceQuiesce; (try dsimp only); (repeat' split) <;> simp
@[simp] theorem Block.wedge_words (b : Block) (s : SliceId) : (Block.wedge b s).words = b.words := by
  unfold Block.wedge; (try dsimp only); (repeat' split) <;> simp [foldl_words]
theorem Block.ownCmd_words (b : Block) (code : W16) (r : Req) (len : Nat → Bool) (states : List SliceSt) (body : Block → SliceId → Block × Reply) (h : ∀ b s, (body b s).1.words = b.words) : (Block.ownCmd b code r len states body).words = b.words := by
  unfold Block.ownCmd; refine Block.commandIn_words _ _ _ _ _ ?_; intro b; (try dsimp only); split
  · rfl
  · exact h b _
@[simp] theorem Block.setDig_words (b : Block) (x : Option SliceId) (d : Dig) : (Block.setDig b x d).words = b.words := by
  unfold Block.setDig; (try dsimp only); (repeat' split) <;> simp
@[simp] theorem Block.digCmd_words (b : Block) (code : W16) (r : Req) (len : Nat → Bool) (f : Dig → Except Reply (Dig × Bytes)) : (Block.digCmd b code r len f).words = b.words := by
  unfold Block.digCmd; refine Block.command_words _ _ _ _ ?_; intro b; (try dsimp only); split <;> simp
@[simp] theorem Block.setLife_words (b : Block) (l : Lifecycle) : (Block.setLife b l).words = b.words := by
  unfold Block.setLife; (try dsimp only); (repeat' split) <;> simp
theorem Block.lcCmd_words (b : Block) (c : Cmd) (r : Req) (body : Block → Option Bytes → Block × Reply) (h : ∀ b n, (body b n).1.words = b.words) : (Block.lcCmd b c r body).words = b.words := by
  unfold Block.lcCmd; (try dsimp only); split
  · exact Block.command_words _ _ _ _ (fun b => h b _)
  · exact (Block.command_words _ _ _ _ (fun b => h b _)).trans rfl
@[simp] theorem Block.decommission_words (b : Block) : (Block.decommission b).words = b.words := by
  have fold (l : List SliceId) (x : Block) :
      (l.foldl (fun (b : Block) (s : SliceId) => if (b.slice s).st = .free then b else b.destroySlice s) x).words = x.words :=
    foldl_words _ (fun b s => by split <;> simp) l x
  have upd (x : Block) : Block.words { x with
    kst := { x.kst with st := .closed, keys := [], lag := [] }, flash := x.flash.eraseJournal } = x.words := rfl
  exact (Block.setLife_words _ _).trans ((upd _).trans ((fold _ _).trans ((Block.failJobs_words ..).trans (Block.zeroiseLine_words _))))
@[simp] theorem Block.setSpdm_words (b : Block) (v : SpdmVia) (c : SpdmConn) : (Block.setSpdm b v c).words = b.words := by
  unfold Block.setSpdm; (try dsimp only); (repeat' split) <;> simp
@[simp] theorem Block.spdmSays_words (b : Block) (v : SpdmVia) (sec : Bool) (code p1 p2 : Byte) (body : Bytes) : (Block.spdmSays b v sec code p1 p2 body).words = b.words := by
  unfold Block.spdmSays; (try dsimp only); (repeat' split) <;> simp
@[simp] theorem Block.spdmError_words (b : Block) (v : SpdmVia) (sec : Bool) (code : Byte) : (Block.spdmError b v sec code).words = b.words := by
  unfold Block.spdmError; (try dsimp only); (repeat' split) <;> simp
@[simp] theorem Block.spdmSigned_words (b : Block) (v : SpdmVia) (sec : Bool) (code p1 : Byte) (asked body : Bytes) : (Block.spdmSigned b v sec code p1 asked body).words = b.words := by
  unfold Block.spdmSigned; split
  · simp
  · rename_i h; simp [Block.drawDevice_words h]
@[simp] theorem Block.spdmSession_words (b : Block) (v : SpdmVia) (sec : Bool) (m : SpdmMsg) : (Block.spdmSession b v sec m).words = b.words := by
  unfold Block.spdmSession; (try dsimp only); (repeat' split) <;> (try simp)
  all_goals (rename_i h; simp [Block.drawDevice_words h])
@[simp] theorem Block.tdispSays_words (b : Block) (v : SpdmVia) (sec : Bool) (code : Byte) (body : Bytes) : (Block.tdispSays b v sec code body).words = b.words := by
  unfold Block.tdispSays; (try dsimp only); (repeat' split) <;> simp
@[simp] theorem Block.tdispRequest_words (b : Block) (v : SpdmVia) (sec : Bool) (m : SpdmMsg) : (Block.tdispRequest b v sec m).words = b.words := by
  unfold Block.tdispRequest; (try dsimp only); (repeat' split) <;> simp
theorem Block.migCmd_words (b : Block) (code : W16) (r : Req) (len : Nat → Bool) (st : SliceSt) (body : Block → SliceId → Bytes → Block × Reply) (h : ∀ b s p, (body b s p).1.words = b.words) : (Block.migCmd b code r len st body).words = b.words := by
  unfold Block.migCmd; exact Block.sliceCmd_words _ _ _ _ _ _ (fun b s => h b s _)
@[simp] theorem Block.modStateful_words (b : Block) (sl : SliceId) (f : Stateful → Stateful) : (Block.modStateful b sl f).words = b.words := by
  unfold Block.modStateful; (try dsimp only); (repeat' split) <;> simp [foldl_words]
@[simp] theorem Block.takeCounter_words (b : Block) (o : CtrOwner) (want v : Nat) : (Block.takeCounter b o want v).1.words = b.words := by
  unfold Block.takeCounter; (try dsimp only); (repeat' split) <;> simp
@[simp] theorem Block.installCounter_words (b : Block) (sl : SliceId) (c : Nat × Nat) : (Block.installCounter b sl c).words = b.words := by
  unfold Block.installCounter; (try dsimp only); (repeat' split) <;> simp
@[simp] theorem Block.installKey_words (b : Block) (sl : SliceId) (secret p : Bytes) (i : Nat) : (Block.installKey b sl secret p i).words = b.words := by
  unfold Block.installKey; (try dsimp only); (repeat' split) <;> simp
@[simp] theorem Block.installObjects_words (b : Block) (sl : SliceId) (n : Nat) (d : Bytes) : (Block.installObjects b sl n d).words = b.words := by
  induction n generalizing b d with
  | zero => rfl
  | succ n ih => unfold Block.installObjects; (try dsimp only); (repeat' split) <;> simp [ih]
@[simp] theorem Block.install_words (b : Block) (sl : SliceId) (p : Bytes) : (Block.install b sl p).words = b.words := by
  unfold Block.install; (try dsimp only)
  rw [Block.installObjects_words, foldl_words, foldl_words] <;> intros <;> simp
@[simp] theorem Block.checkWake_words (b : Block) : (Block.checkWake b).words = b.words := by
  unfold Block.checkWake; (try dsimp only); (repeat' split) <;> simp
@[simp] theorem Block.startSource_words (b : Block) (i : Nat) : (Block.startSource b i).words = b.words := by
  unfold Block.startSource; (try dsimp only); (repeat' split) <;> simp
@[simp] theorem Block.stopSource_words (b : Block) (i : Nat) : (Block.stopSource b i).words = b.words := by
  unfold Block.stopSource; (try dsimp only); (repeat' split) <;> simp
@[simp] theorem Block.fenceSource_words (b : Block) (i test : Nat) : (Block.fenceSource b i test).words = b.words := by
  unfold Block.fenceSource; (try dsimp only); (repeat' split) <;> simp
@[simp] theorem Block.endTest_words (b : Block) (u : FUnit) (passed : Bool) : (Block.endTest b u passed).words = b.words := by
  unfold Block.endTest; (try dsimp only); (repeat' split) <;> simp
@[simp] theorem Block.startFails_words (b : Block) (i : Nat) : (Block.startFails b i).words = b.words := by
  unfold Block.startFails; (try dsimp only); (repeat' split) <;> simp
@[simp] theorem Block.sourceFails_words (b : Block) (i test : Nat) : (Block.sourceFails b i test).words = b.words := by
  unfold Block.sourceFails; (try dsimp only); (repeat' split) <;> simp
@[simp] theorem Block.seedFrom_words (b : Block) (q : Nat) : (Block.seedFrom b q).words = b.words := by
  unfold Block.seedFrom; (try dsimp only); (repeat' split) <;> simp
@[simp] theorem Block.releaseBlock_words (b : Block) (q : Nat) : (Block.releaseBlock b q).words = b.words := by
  unfold Block.releaseBlock; (try dsimp only); (repeat' split) <;> simp
@[simp] theorem Block.followEnables_words (b : Block) : (Block.followEnables b).words = b.words := by
  unfold Block.followEnables; (try dsimp only); (repeat' split) <;> simp [foldl_words]
@[simp] theorem Block.batteryAlarm_words (b : Block) (t : TamperId) (detail : W32) : (Block.batteryAlarm b t detail).words = b.words := by
  unfold Block.batteryAlarm; (try dsimp only); (repeat' split) <;> simp
@[simp] theorem Block.alarmOn_words (b : Block) (t : TamperId) (detail : W32) : (Block.alarmOn b t detail).words = b.words := by
  unfold Block.alarmOn; (try dsimp only); (repeat' split) <;> simp
@[simp] theorem Block.alarmOff_words (b : Block) (t : TamperId) : (Block.alarmOff b t).words = b.words := by
  unfold Block.alarmOff; (try dsimp only); (repeat' split) <;> simp
@[simp] theorem Block.sampled_words (b : Block) (t : TamperId) (run : Nat) (code other : Nat) : (Block.sampled b t run code other).words = b.words := by
  unfold Block.sampled; (try dsimp only); (repeat' split) <;> simp
@[simp] theorem Block.upsetShadow_words (b : Block) (r : Shadowed) (x : W64) : (Block.upsetShadow b r x).words = b.words := by
  unfold Block.upsetShadow; (try dsimp only); (repeat' split) <;> simp
@[simp] theorem Block.spend_words (b : Block) : (Block.spend b).words = b.words := by
  unfold Block.spend; (try dsimp only); (repeat' split) <;> simp
@[simp] theorem Block.placeNote_words (b : Block) (n : Note) : (Block.placeNote b n).words = b.words := by
  unfold Block.placeNote; (try dsimp only); (repeat' split) <;> simp
@[simp] theorem Block.linkUp_words (b : Block) (p : PortId) (peer : BitVec 12) : (Block.linkUp b p peer).words = b.words := by
  unfold Block.linkUp; (try dsimp only); (repeat' split) <;> simp
@[simp] theorem Block.stageFails_words (b : Block) (p : PortId) (reason : BitVec 4) : (Block.stageFails b p reason).words = b.words := by
  unfold Block.stageFails; (try dsimp only); (repeat' split) <;> simp
@[simp] theorem Block.sendPlan_words (b : Block) (e : PlanEntry) : (Block.sendPlan b e).words = b.words := by
  unfold Block.sendPlan; (try dsimp only); (repeat' split) <;> simp
@[simp] theorem Block.decideJoin_words (b : Block) (p : PortId) (digest : Bytes) (depth : Nat) : (Block.decideJoin b p digest depth).2.words = b.words := by
  unfold Block.decideJoin; split <;> simp
@[simp] theorem Block.joinEnd_words (b : Block) (p : PortId) (peer self : BitVec 12) (digest : Bytes) (depth : Nat) (plan : Option Bytes) : (Block.joinEnd b p peer self digest depth plan).words = b.words := by
  have h := Block.decideJoin_words b p digest depth
  unfold Block.joinEnd; (try dsimp only); (repeat' split) <;> simp_all [foldl_words]
@[simp] theorem Block.relayedJoin_words (b : Block) (p : PortId) (digest : Bytes) (depth : Nat) (plan : Option Bytes) : (Block.relayedJoin b p digest depth plan).words = b.words := by
  have h := Block.decideJoin_words b p digest depth
  unfold Block.relayedJoin; (try dsimp only); (repeat' split) <;> simp_all [foldl_words]
@[simp] theorem Block.stepTo_words (b : Block) (t : W64) : (Block.stepTo b t).words = b.words := by
  unfold Block.stepTo; (try dsimp only); (repeat' split) <;> simp
@[simp] theorem Block.aligned_words (b : Block) (t : W64) : (Block.aligned b t).words = b.words := by
  unfold Block.aligned; (try dsimp only); (repeat' split) <;> simp
@[simp] theorem Block.becomeMaster_words (b : Block) : (Block.becomeMaster b).words = b.words := by
  unfold Block.becomeMaster; (try dsimp only); (repeat' split) <;> simp [foldl_words]
@[simp] theorem Block.dropReplicas_words (b : Block) (sl : Nat) : (Block.dropReplicas b sl).words = b.words := by
  unfold Block.dropReplicas; (try dsimp only); (repeat' split) <;> simp [foldl_words]
theorem Block.wtyCmd_words (b : Block) (code : W16) (r : Req) (len : Nat → Bool) (body : Block → Block × Reply) (h : ∀ b, (body b).1.words = b.words) : (Block.wtyCmd b code r len body).words = b.words := by
  unfold Block.wtyCmd; exact Block.command_words _ _ _ _ h
@[simp] theorem Block.modPwr_words (b : Block) (f : Power → Power) : (Block.modPwr b f).words = b.words := by
  unfold Block.modPwr; (try dsimp only); (repeat' split) <;> simp
@[simp] theorem Block.modAge_words (b : Block) (w : Nat) (f : Ageing → Ageing) : (Block.modAge b w f).words = b.words := by
  unfold Block.modAge; (try dsimp only); (repeat' split) <;> simp
@[simp] theorem Block.powerNote_words (b : Block) (kind : Byte) : (Block.powerNote b kind).words = b.words := by
  unfold Block.powerNote; (try dsimp only); (repeat' split) <;> simp
@[simp] theorem Block.marginFails_words (b : Block) (w : Nat) : (Block.marginFails b w).words = b.words := by
  unfold Block.marginFails; (try dsimp only); (repeat' split) <;> simp
@[simp] theorem Block.checkMargins_words (b : Block) : (Block.checkMargins b).words = b.words := by
  unfold Block.checkMargins; (try dsimp only); (repeat' split) <;> simp [foldl_words]
@[simp] theorem Block.reachBin_words (b : Block) (q : Nat) (n : Fin 5) : (Block.reachBin b q n).words = b.words := by
  unfold Block.reachBin; (try dsimp only); (repeat' split) <;> simp [foldl_words]
@[simp] theorem Block.avsFault_words (b : Block) : (Block.avsFault b).words = b.words := by
  unfold Block.avsFault; (try dsimp only); (repeat' split) <;> simp [foldl_words]
@[simp] theorem Block.derateQuads_words (b : Block) (on : Bool) : (Block.derateQuads b on).words = b.words := by
  unfold Block.derateQuads; (try dsimp only); (repeat' split) <;> simp [foldl_words]
@[simp] theorem Block.warnAge_words (b : Block) (w : Nat) : (Block.warnAge b w).words = b.words := by
  unfold Block.warnAge; (try dsimp only); (repeat' split) <;> simp
@[simp] theorem Block.keepAge_words (b : Block) (w : Nat) : (Block.keepAge b w).words = b.words := by
  unfold Block.keepAge; (try dsimp only); (repeat' split) <;> simp
@[simp] theorem Block.powerDown_words (b : Block) : (Block.powerDown b).words = b.words := by
  unfold Block.powerDown; (try dsimp only); (repeat' split) <;> simp [foldl_words]
@[simp] theorem Block.modBoot_words (b : Block) (f : Boot → Boot) : (Block.modBoot b f).words = b.words := by
  unfold Block.modBoot; (try dsimp only); (repeat' split) <;> simp
@[simp] theorem Block.loseBattery_words (b : Block) : (Block.loseBattery b).words = b.words := by
  unfold Block.loseBattery; (try dsimp only); (repeat' split) <;> simp
@[simp] theorem Block.powerLoss_words (b : Block) : (Block.powerLoss b).words = b.words := by
  unfold Block.powerLoss; (try dsimp only); (repeat' split) <;> simp
@[simp] theorem Block.placeMerging_words (n : Nat) (b : Block) : (Block.placeMerging n b).words = b.words := by
  induction n generalizing b with
  | zero => rfl
  | succ n ih => unfold Block.placeMerging; (try dsimp only); split <;> simp [ih]
@[simp] theorem Block.coreReset_words (b : Block) : (Block.coreReset b).words = b.words := by
  exact (rfl : _ = (Block.placeMerging b.flt.merging.length b).words).trans (by simp)
@[simp] theorem Block.noteNow_words (b : Block) (n : Note) : (Block.noteNow b n).words = b.words := by
  unfold Block.noteNow; (try dsimp only); (repeat' split) <;> simp
@[simp] theorem Block.fallback_words (b : Block) (k : Fin 2) (check : Nat) : (Block.fallback b k check).words = b.words := by
  unfold Block.fallback; (try dsimp only); (repeat' split) <;> simp
@[simp] theorem Block.measureImage_words (b : Block) (k : Fin 2) : (Block.measureImage b k).words = b.words := by
  unfold Block.measureImage; (try dsimp only); (repeat' split) <;> simp [foldl_words]
@[simp] theorem Block.reapply_words (b : Block) (ok power : Bool) : (Block.reapply b ok power).words = b.words := by
  unfold Block.reapply
  extract_lets _ _ put b1 _ _ b2 b3 b4
  have hp : ∀ b r, (put b r).words = b.words := by intro b r; simp only [put]; split <;> simp
  have h1 : b1.words = b.words := by
    simp only [b1]; split
    · refine foldl_words _ hp _ _
    · rfl
  have h2 : b2.words = b.words := by
    simp only [b2]; split
    · exact h1
    · refine Eq.trans ?_ h1
      change (List.foldl _ b1 (List.range 64)).words = _
      refine foldl_words _ ?_ _ _; intro b i; (try dsimp only); split
      · rfl
      · exact hp _ _
  refine (Block.countAvail_words _ _).trans ?_
  refine Eq.trans ?_ h2
  refine (Block.settleEntropy_words _).trans ?_
  exact (foldl_words _ (fun b i => by simp) _ _).trans rfl
@[simp] theorem Block.startEntropy_words (b : Block) : (Block.startEntropy b).words = b.words := by
  unfold Block.startEntropy; (try dsimp only); (repeat' split) <;> simp [foldl_words]
@[simp] theorem Block.startAgeing_words (b : Block) (ok cold : Bool) : (Block.startAgeing b ok cold).words = b.words := by
  unfold Block.startAgeing; (try dsimp only); (repeat' split) <;> simp [foldl_words]
@[simp] theorem Block.runFirmware_words (b : Block) (f : BootFacts) (power : Bool) (k : Fin 2) : (Block.runFirmware b f power k).words = b.words := by
  unfold Block.runFirmware; (try dsimp only); (repeat' split) <;> simp
@[simp] theorem Block.bootSlot_words (b : Block) (f : BootFacts) (power : Bool) : (Block.bootSlot b f power).words = b.words := by
  unfold Block.bootSlot
  extract_lets s0 ctl ended ctl2 s2 b1 s3 b2 b3
  split
  · simp
  · have h2 : b2.words = b.words := rfl
    have h3 : b3.words = b.words := by simp only [b3]; cases ended <;> simp [h2, Block.fallback]
    split
    rename_i k trial _
    extract_lets b4 other c b5 b6
    have h4 : b4.words = b.words := by simp only [b4]; split <;> simp [h3]
    have h5 : b5.words = b.words := by simp [b5, h4, Block.fallback]
    have h6 : b6.words = b.words := by simp only [b6]; split <;> simp [h5]
    (repeat' split) <;> simp [h4, h6]
@[simp] theorem Block.startCore_words (b : Block) (f : BootFacts) (power : Bool) : (Block.startCore b f power).words = b.words := by
  unfold Block.startCore
  extract_lets _ _ _ _ _ b1 s1 b2 b3 d4 b4 b5 
  have h1 : b1.words = b.words := rfl
  have h2 : b2.words = b.words := by simp only [b2]; split <;> simp [h1]
  have h3 : b3.words = b.words := by simp [b3, h2]
  have h4 : b4.words = b.words := by simp only [b4]; split <;> simp [h3]
  have h5 : b5.words = b.words := h4
  simp [h5]
@[simp] theorem Block.checkRoot_words (b : Block) (f : BootFacts) : (Block.checkRoot b f).words = b.words := by
  unfold Block.checkRoot; (try dsimp only); (repeat' split) <;> simp
@[simp] theorem Block.evaluate_words (b : Block) : (Block.evaluate b).words = b.words := by
  unfold Block.evaluate; (try dsimp only); (repeat' split) <;> simp [foldl_words]
@[simp] theorem Block.dropJobs_words (b : Block) : (Block.dropJobs b).words = b.words := by
  unfold Block.dropJobs; (try dsimp only)
  refine Eq.trans (b := Block.words (List.foldl _ _ _)) rfl ?_
  refine (foldl_words _ ?_ _ _).trans (by simp)
  intro b j; (try dsimp only); (repeat' split) <;> simp
@[simp] theorem Block.startWork_words (b : Block) (w : WaleId) : (Block.startWork b w).words = b.words := by
  unfold Block.startWork; (try dsimp only); (repeat' split) <;> simp
@[simp] theorem Block.settleRelease_words (b : Block) (j : Job) : (Block.settleRelease b j).words = b.words := by
  unfold Block.settleRelease; (try dsimp only); (repeat' split) <;> simp
@[simp] theorem Block.decideBoth_words (b : Block) (l w : WaleId) (f : Reg) (t : BitVec 14) (d : Bool) : (Block.decideBoth b l w f t d).words = b.words := by
  unfold Block.decideBoth; (try dsimp only); (repeat' split) <;> simp
end Sys2Proof.Machine
end

