-- ==== Sys2Proof/WellFormed.lean ====
section
/-! DEFINITION. Well-formed commands: the operands keep the ranges the spec gives them where their types do not. -/
namespace Sys2Proof

/-- The request frame of a mailbox command. -/
def Instr.frame : Instr → Option Req
  | .getVersion r | .catQuery r | .walCfgRead r | .walCfgWrite r | .walStatRead r | .walCsbRead r | .csLoad r _ | .csUnload r | .sliceCreate r
  | .sliceDestroy r | .sliceQuery r | .sliceSetQuota r | .sliceSetSched r | .sliceSetVectors r | .sliceBindPasid r | .sliceQuiesce r | .sliceResume r
  | .sliceCounters r | .migPrepare r | .migSave r | .migRestore r | .migAbandon r | .migCommit r | .migUnfreeze r | .migCancel r | .migPolicySet r
  | .migPolicyGet r | .sliceState r | .lcState r | .lcProvision r | .lcChallenge r | .lcTransition r | .kstStatus r | .kstPolicySet r | .kstPolicyGet r
  | .devKeyCreate r | .devKeyGrant r | .devKeyDelete r | .measExtend r | .measRead r | .attestQuote r | .attestKey r | .certChain r | .digInit r
  | .digUpdate r | .digFinal r | .digSave r | .digRestore r | .rngStatus r | .rngCfgSet r | .rngCfgGet r | .rngRetest r | .rngRawCapture r _
  | .rngTestPattern r | .tamPolicyGet r | .tamPolicySet r | .tamFuseDisable r | .tamStickyClear r | .tamLogRead r | .tamLidRead r | .tamAck r
  | .tamLidCal r | .fltLogRead r | .fltLogClear r | .fltFenceRead r | .fltUnfence r | .fltFence r | .wtyStatus r | .wtyPlanSet r | .wtyPortCfg r
  | .wtyTimeCfg r | .wtyMemberAdmit r | .wtyFzPolicySet r | .wtyFzPolicyGet r | .wtySliceJoin r | .wtySliceLeave r | .wtyTakeover r | .pwrStatus r
  | .pwrCfgSet r | .pwrCfgGet r | .pwrStandby r | .pwrWake r | .pwrBinSet r | .ageStatus r | .ageCfgSet r | .ageCfgGet r | .ageRun r | .fwStatus r
  | .fwWrite r | .fwActivate r | .fwCommit r | .fwRevert r | .devReset r _ => some r
  | _ => none

/-- A request frame: the payload of a window frame fits the window behind its header (R186, Table 7.13), and a DMA payload that was read has
its declared length (Table 7.14). -/
def Req.wellFormed (r : Req) : Bool :=
  if r.dma then r.payload.length == r.declared || r.readFault.isSome else decide (r.payload.length ≤ 2032) && r.readFault.isNone

/-- Descriptors come as 64-byte strings (Table 7.8). -/
def descriptorsWellFormed (r : Option (List Bytes)) : Bool :=
  match r with
  | some l => l.all (fun d => d.length == 64)
  | none => true

/-- The operands of a command are in range: a descriptor has 64 bytes; a nanostore word has an address below 2,048, and an upset names a
stored bit (R105); a short between loops names another loop (Table 12.4); a quote takes a nonce of 16 to 64 bytes (R261, chapter 10). -/
def Instr.wellFormed (c : Instr) : Bool :=
  (c.frame.map Req.wellFormed).getD true &&
  match c with
  | .descriptorFetch _ _ r => descriptorsWellFormed r
  | .ownRetry _ _ r => descriptorsWellFormed r
  | .forwardedJob _ _ d _ _ _ => d.length == 64
  | .csScrub _ nano addr u => (!nano || decide (addr.toNat < 2048)) && (nano || u.all (fun i => decide (i.val < 25)))
  | .loopSample i fwd rev => fwd.foreign != some i && rev.foreign != some i
  | .spdmGetMeasurements _ nonce => decide (16 ≤ nonce.length) && decide (nonce.length ≤ 64)
  | _ => true

end Sys2Proof
end

