-- ==== Sys2Proof/Tests/Slice0.lean ====
section
/-! SUPPORT. The model's own tests: ill-formed commands are refused by WellFormed, small steps give what the spec's tables say, and for every
statement with hypotheses a concrete state and operands that meet them, clause by clause (`meets_<statement>`). -/
namespace Sys2Proof.Tests

open Sys2Proof.Machine

set_option Elab.async false

/-! ### Helpers -/

/-- The state after a command. -/
def ran (c : Instr) (s : State) : State := match exec c s with
  | .next t => t
  | _ => s

/-- A window frame of the admin mailbox. -/
def frame (p : Bytes) : Req := ⟨none, 3, false, 0, 7, p, p.length, 0, 0, 0, none⟩
/-- A window frame of a slice mailbox. -/
def sliceFrame (s : SliceId) (p : Bytes) : Req := ⟨some s, 3, false, 0, 7, p, p.length, 0, 0, 0, none⟩

/-- A ring of 16 entries. -/
def ring : Sq := { base := 0x10000, enable := true, log2 := 4, tail := 3 }
/-- Its completion ring. -/
def compl : Cq := { base := 0x20000, enable := true, irqEn := true, log2 := 4, modTime := 4, modCount := 2 }
/-- An ACTIVE slice with ring 0 and its completion ring 0. -/
def slice : Slice := { st := .active, pasid := some none, vecCount := 4, sq := (Vector.replicate 8 {}).set 0 ring, cq := (Vector.replicate 8 {}).set 0 compl }

/-- A device that serves: core domain up, DEV_READY, PROVISIONED, key store UNLOCKED, seeders SEEDED, PLLs locked, slice 1 ACTIVE. -/
def up : State := { State.reset with
  now := 1000000
  otp := { lifecycle := .provisioned, lifeShadow := 0xFD }
  bat := { supplied := true, rootKey := some (List.replicate 32 7) }
  kst := { st := .unlocked }
  rng := { seeders := [(0, { st := .seeded, seeded := true }), (1, { st := .seeded, seeded := true }), (2, { st := .seeded, seeded := true }),
                       (3, { st := .seeded, seeded := true })],
           sources := [(0, { st := .healthy }), (1, { st := .healthy })] }
  quads := [(0, { pllRun := true, pllLocked := true }), (1, { pllRun := true, pllLocked := true }), (2, { pllRun := true, pllLocked := true }),
            (3, { pllRun := true, pllLocked := true })]
  slices := [(1, slice)]
  host := { configured := true, msixOpen := [0, 1, 2, 3] }
  boot := { aonUp := true, coreUp := true, pwrOk := true, ready := true, rimUp := true, csLoaded := true, fencesDone := true }
  pwr := { dev := .idle } }

/-- The same with job `1` of a native opcode running on wale 0. -/
def job (op : Nat) (secret : Bool := false) : Job :=
  { id := 1, slice := 1, ring := 0, index := 0, desc := { opcode := BitVec.ofNat 16 op, inLen := 64, outCap := 64 },
    entry := { opcode := BitVec.ofNat 16 op, wales := 1, cls := if secret then 2 else 0 }, phase := .running, wales := [0] }
/-- The machine with that job. -/
def runs (op : Nat) : State := { up with jobs := [job op] }

/-- A wale that issues microwords at 0x10: G1 = 5, G2 = 7, G3 S, F1 = 1, F2 S, L1 = 1, L2 = 3; O1 to O3 of four slots each, O3 tagged S; an empty
store, whose words are SEQ 0 there. -/
def engine : Wale :=
  { st := .running, job := some 1, lead := true, sTags := [8, 9, 10, 11], levelOn := true, runSlice := some 1, csb := 0x81803000,
    micro := { pc := 0x10, issuing := true, g := ((Vector.replicate 16 0).set 1 5).set 2 7, gTaint := 8, f := 3, fTaint := 4,
               l := ((Vector.replicate 4 0).set 1 1).set 2 3, stack := [0x20],
               o := (((Vector.replicate 16 {}).set 1 ⟨0, 4, 2048, true⟩).set 2 ⟨4, 4, 2048, true⟩).set 3 ⟨8, 4, 2048, true⟩ } }

/-- The bits of a SEQ microword (Table 5.4). -/
def seqWord (op a t : Nat) : Nat := 2 ^ 23 + op * 2 ^ 18 + a * 2 ^ 14 + t
/-- The SALU field of a nanoword (Table 5.5). -/
def saluWord (op d a b f low : Nat) : Nat := op * 2 ^ 154 + d * 2 ^ 150 + a * 2 ^ 146 + b * 2 ^ 142 + f * 2 ^ 138 + low * 2 ^ 128
/-- Its LAT field. -/
def latWord (op : Nat) (l : LatF) : Nat :=
  op * 2 ^ 122 + l.q.toNat * 2 ^ 120 + l.n.toNat * 2 ^ 118 + l.a.val * 2 ^ 114 + l.b.val * 2 ^ 110 + l.d.val * 2 ^ 106 + l.ia.val * 2 ^ 102 +
  l.ib.val * 2 ^ 98 + l.id.val * 2 ^ 94 + l.flag.val * 2 ^ 88
/-- Its HASH field. -/
def hashWord (op : Nat) (h : HashF) : Nat := h.mask.toNat * 2 ^ 84 + op * 2 ^ 79 + h.inp.val * 2 ^ 75 + h.out.val * 2 ^ 71 + h.len.val * 2 ^ 67
/-- Its BN field. -/
def bnWord (op : Nat) (f : BnF) : Nat :=
  op * 2 ^ 50 + f.a.val * 2 ^ 46 + f.b.val * 2 ^ 42 + f.m.val * 2 ^ 38 + f.d.val * 2 ^ 34 + f.par.val * 2 ^ 30 + f.flag.val * 2 ^ 24
/-- NEXT of an EXEC microword: RPT where more of the word is to come. -/
def nextBits : Nx → Nat | .stay => 1 | .inc => 0

/-- The microword and the nanoword that spell a command, written from Tables 5.3 to 5.8; the EXEC word names nanoword 0. -/
def spelling : Instr → Nat × Nat
  | .jmp _ t => (seqWord 1 0 t.toNat, 0) | .call _ t => (seqWord 2 0 t.toNat, 0) | .ret _ => (seqWord 3 0 0, 0)
  | .bt _ f t => (seqWord 4 f.val t.toNat, 0) | .bf _ f t => (seqWord 5 f.val t.toNat, 0) | .ldli _ l t => (seqWord 6 l.val t.toNat, 0)
  | .ldlg _ l g => (seqWord 7 g.val l.val, 0) | .djnz _ l t => (seqWord 8 l.val t.toNat, 0) | .jmpx _ g t => (seqWord 9 g.val t.toNat, 0)
  | .waitWork _ => (seqWord 10 0 0, 0) | .release _ g => (seqWord 11 g.val 0, 0) | .drain _ => (seqWord 12 0 0, 0)
  | .dbt _ f t _ => (seqWord 13 f.val t.toNat, 0) | .dslot _ o => (seqWord 14 o.val 0, 0)
  | .rpt _ => (1, 0)
  | .kstore _ o nx => (nextBits nx, 1 * 2 ^ 187 + o.val * 2 ^ 176)
  | .draw _ o a n nx => (nextBits nx, 1 * 2 ^ 184 + o.val * 2 ^ 176 + a.val * 2 ^ 172 + n.val * 2 ^ 168)
  | .emit _ o a n nx => (nextBits nx, 1 * 2 ^ 180 + o.val * 2 ^ 176 + a.val * 2 ^ 172 + n.val * 2 ^ 168)
  | .mov _ d a nx => (nextBits nx, saluWord 1 d.val a.val 0 0 0) | .movi _ d i nx => (nextBits nx, saluWord 2 d.val 0 0 0 i.toNat)
  | .movs _ d i nx => (nextBits nx, saluWord 3 d.val 0 0 0 i.toNat) | .add _ d a b nx => (nextBits nx, saluWord 4 d.val a.val b.val 0 0)
  | .sub _ d a b nx => (nextBits nx, saluWord 5 d.val a.val b.val 0 0) | .and _ d a b nx => (nextBits nx, saluWord 6 d.val a.val b.val 0 0)
  | .or _ d a b nx => (nextBits nx, saluWord 7 d.val a.val b.val 0 0) | .xor _ d a b nx => (nextBits nx, saluWord 8 d.val a.val b.val 0 0)
  | .shl _ d a b nx => (nextBits nx, saluWord 9 d.val a.val b.val 0 0) | .shr _ d a b nx => (nextBits nx, saluWord 10 d.val a.val b.val 0 0)
  | .addi _ d a i nx => (nextBits nx, saluWord 11 d.val a.val 0 0 i.toNat) | .cmpeq _ f a b nx => (nextBits nx, saluWord 12 0 a.val b.val f.val 0)
  | .cmplt _ f a b nx => (nextBits nx, saluWord 13 0 a.val b.val f.val 0) | .sel _ d f a b nx => (nextBits nx, saluWord 14 d.val a.val b.val f.val 0)
  | .ldw _ d o b nx => (nextBits nx, saluWord 16 d.val 0 b.val 0 o.val) | .stw _ a o b nx => (nextBits nx, saluWord 17 0 a.val b.val 0 o.val)
  | .objlen _ d o nx => (nextBits nx, saluWord 18 d.val 0 0 0 o.val)
  | .ntt _ l nx => (nextBits nx, latWord 1 l) | .intt _ l nx => (nextBits nx, latWord 2 l) | .latAdd _ l nx => (nextBits nx, latWord 3 l)
  | .latSub _ l nx => (nextBits nx, latWord 4 l) | .mulp _ l nx => (nextBits nx, latWord 5 l) | .mulm _ l nx => (nextBits nx, latWord 6 l)
  | .basemul _ l nx => (nextBits nx, latWord 7 l) | .a2b _ l nx => (nextBits nx, latWord 8 l) | .b2a _ l nx => (nextBits nx, latWord 9 l)
  | .compress _ l nx => (nextBits nx, latWord 10 l) | .decompress _ l nx => (nextBits nx, latWord 11 l) | .cbd _ l nx => (nextBits nx, latWord 12 l)
  | .encode _ l nx => (nextBits nx, latWord 13 l) | .decode _ l nx => (nextBits nx, latWord 14 l) | .normchk _ l nx => (nextBits nx, latWord 15 l)
  | .remask _ l nx => (nextBits nx, latWord 16 l) | .uniform _ l nx => (nextBits nx, latWord 17 l)
  | .init _ h m nx => (nextBits nx, hashWord (1 + m.val) h) | .absorb _ h nx => (nextBits nx, hashWord 9 h)
  | .final _ h nx => (nextBits nx, hashWord 10 h) | .squeeze _ h nx => (nextBits nx, hashWord 11 h)
  | .bnModAdd _ f nx => (nextBits nx, bnWord 1 f) | .bnModSub _ f nx => (nextBits nx, bnWord 2 f) | .bnModMul _ f nx => (nextBits nx, bnWord 3 f)
  | .bnModRed _ f nx => (nextBits nx, bnWord 4 f) | .bnModInv _ f nx => (nextBits nx, bnWord 5 f) | .bnModExp _ f nx => (nextBits nx, bnWord 6 f)
  | .bnPtAdd _ f nx => (nextBits nx, bnWord 7 f) | .bnPtMul _ f nx => (nextBits nx, bnWord 8 f)
  | .bnSecret _ o f nx => (nextBits nx, bnWord (32 + o.toNat) f)
  | _ => (seqWord 0 0 0, 0)

/-- A wale whose address holds the word of a command. -/
def Wale.holding (x : Wale) (c : Instr) : Wale :=
  { x with ustore := [(x.micro.pc.toNat, withMicroParity (spelling c).1)], nstore := [(0, withNanoParity (spelling c).2)] }
/-- A machine whose wale 0 issues a command's word. -/
def with_ (x : Wale) (c : Instr) : State := { up with wales := [(0, Wale.holding x c)], jobs := [job 0x0F00] }
/-- The same of the wale above. -/
def micro (c : Instr) : State := with_ engine c

/-! ### Well-formed commands -/

/-- A well-formed frame is accepted. -/
theorem test_wf_frame : (Instr.kstPolicySet (frame [1, 0, 0, 0])).wellFormed = true := by decide
/-- A DMA payload shorter than declared. -/
theorem test_wf_dma_length : (Instr.kstPolicySet ⟨none, 3, true, 0, 7, [1, 2], 4, 0, 0, 0, none⟩).wellFormed = false := by decide
/-- A DMA payload whose read failed carries no payload check. -/
theorem test_wf_dma_fault : (Instr.kstPolicySet ⟨none, 3, true, 0, 7, [], 4, 0, 0, 0, some 1⟩).wellFormed = true := by decide
/-- A window payload of 2,033 bytes. -/
theorem test_wf_window_length : (Instr.digUpdate (frame (List.replicate 2033 0))).wellFormed = false := by decide +kernel
/-- A window payload of 2,032 bytes, the most. -/
theorem test_wf_window_most : (Instr.digUpdate (frame (List.replicate 2032 0))).wellFormed = true := by decide +kernel
/-- A read fault on a window payload. -/
theorem test_wf_window_fault : (Instr.kstPolicySet ⟨none, 3, false, 0, 7, [], 0, 0, 0, 0, some 1⟩).wellFormed = false := by decide
/-- A descriptor of 63 bytes. -/
theorem test_wf_descriptor : (Instr.descriptorFetch 1 0 (some [zeros 63])).wellFormed = false := by decide +kernel
/-- A retry with a descriptor of 65 bytes. -/
theorem test_wf_retry : (Instr.ownRetry 1 0 (some [zeros 64, zeros 65])).wellFormed = false := by decide +kernel
/-- Two descriptors of 64 bytes. -/
theorem test_wf_descriptors : (Instr.descriptorFetch 1 0 (some [zeros 64, zeros 64])).wellFormed = true := by decide +kernel
/-- A forwarded descriptor of 32 bytes. -/
theorem test_wf_forwarded : (Instr.forwardedJob 0 1 (zeros 32) [] [] 5).wellFormed = false := by decide +kernel
/-- A nanostore address past its 2,048 words. -/
theorem test_wf_nano_address : (Instr.csScrub 0 true 2048 none).wellFormed = false := by decide
/-- The last one. -/
theorem test_wf_nano_last : (Instr.csScrub 0 true 2047 none).wellFormed = true := by decide
/-- An upset of bit 25 of a microword, which has bits 0 to 24. -/
theorem test_wf_upset : (Instr.csScrub 0 false 0 (some 25)).wellFormed = false ∧ (Instr.csScrub 0 false 0 (some 24)).wellFormed = true := by decide
/-- A loop shorted with itself. -/
theorem test_wf_loop : (Instr.loopSample 2 { foreign := some 2 } {}).wellFormed = false ∧ (Instr.loopSample 2 { foreign := some 1 } {}).wellFormed = true := by decide
/-- A nonce of 15 or 65 bytes. -/
theorem test_wf_nonce : (Instr.spdmGetMeasurements ⟨.doe, false, true, 0xFD⟩ (zeros 15)).wellFormed = false ∧ (Instr.spdmGetMeasurements ⟨.doe, false, true, 0xFD⟩ (zeros 65)).wellFormed = false ∧
    (Instr.spdmGetMeasurements ⟨.doe, false, true, 0xFD⟩ (zeros 16)).wellFormed = true ∧ (Instr.spdmGetMeasurements ⟨.doe, false, true, 0xFD⟩ (zeros 64)).wellFormed = true := by decide +kernel

/-! ### Reset and the queue -/

/-- The table gives no bits, so no word spells a command. -/
theorem test_decode : decodeTableWord 32 0 = none := by decide
/-- Reset values with a rule: DSP_CFG, WARM, KSTPOL_CFG, RNG_CFG (chapters 06, 10, 11). -/
theorem test_reset : State.reset.dsp.cfg = 0x40082501 ∧ State.reset.kst.policy = 0x17F ∧ State.reset.rng.cfg = 0xFF01 ∧ State.reset.pending = [] := by
  decide
/-- A step takes the front command. -/
theorem test_step : (match step { up with pending := [.bypass, .idcode] } with
    | .next t => t.pending == [.idcode] && t.boot.jtagIr == .bypass
    | _ => false) = true := by decide +kernel
/-- A tick. -/
theorem test_tick : (match step up with
    | .next t => t.now == 1000001
    | _ => false) = true := by decide +kernel
/-- Hypotheses of StepRunsFrontCommand and EmptyQueueTicks. -/
theorem meets_queue : ({ up with pending := [.bypass] } : State).pending = [Instr.bypass] ∧ State.reset.pending = [] ∧ State.reset.boot.coreUp = false ∧
    up.pending = [] ∧ up.boot.coreUp = true := by decide +kernel

/-! ### Microprograms: small steps (Tables 5.4, 5.6, 5.8) -/

/-- The wale after a microword. -/
def mini (c : Instr) : Wale := (ran c (micro c)).toBlock.wale 0

/-- ADD wraps modulo 2^64 and is S where a source is. -/
theorem test_add : (mini (.add 0 1 1 2 .inc)).reg 1 = 12 ∧ (mini (.add 0 1 1 2 .inc)).micro.pc = 0x11 ∧ (mini (.add 0 4 1 3 .inc)).regS 4 = true := by
  decide +kernel
/-- SUB of a larger value wraps: 5 − 7. -/
theorem test_sub : (mini (.sub 0 4 1 2 .inc)).reg 4 = 0xFFFFFFFFFFFFFFFE := by decide +kernel
/-- AND, OR and XOR of 5 and 7. -/
theorem test_logic : (mini (.and 0 4 1 2 .inc)).reg 4 = 5 ∧ (mini (.or 0 4 1 2 .inc)).reg 4 = 7 ∧ (mini (.xor 0 4 1 2 .inc)).reg 4 = 2 := by decide +kernel
/-- SHL and SHR: 5 by 7 bits. -/
theorem test_shift : (mini (.shl 0 4 1 2 .inc)).reg 4 = 640 ∧ (mini (.shr 0 4 2 1 .inc)).reg 4 = 0 := by decide +kernel
/-- MOV, MOVI, MOVS and ADDI: MOVS shifts ten bits in. -/
theorem test_moves : (mini (.mov 0 4 2 .inc)).reg 4 = 7 ∧ (mini (.movi 0 3 1023 .inc)).reg 3 = 1023 ∧ (mini (.movi 0 3 1 .inc)).regS 3 = false ∧
    (mini (.movs 0 1 3 .inc)).reg 1 = 5 * 1024 + 3 ∧ (mini (.addi 0 4 2 1 .inc)).reg 4 = 8 := by decide +kernel
/-- CMPEQ and CMPLT write their flag, and F0 reads 1 for ever. -/
theorem test_compare : (mini (.cmpeq 0 4 1 2 .inc)).flag 4 = false ∧ (mini (.cmplt 0 4 1 2 .inc)).flag 4 = true ∧ (mini (.cmpeq 0 0 1 2 .inc)).flag 0 = true := by
  decide +kernel
/-- SEL takes A where the flag is 1. -/
theorem test_sel : (mini (.sel 0 4 1 1 2 .inc)).reg 4 = 5 ∧ (mini (.sel 0 4 5 1 2 .inc)).reg 4 = 7 := by decide +kernel
/-- STW then LDW of word 5 of object 1; a store of S tags its slot. -/
theorem test_words : (mini (.stw 0 2 1 1 .inc)).opmem.read 40 = 7 ∧ (mini (.stw 0 3 1 1 .inc)).sTags.contains 0 = true ∧
    (mini (.ldw 0 4 3 1 .inc)).regS 4 = true ∧ (mini (.objlen 0 4 1 .inc)).reg 4 = 2048 := by decide +kernel
/-- JMP, CALL, RET, DJNZ: the return stack takes the next address, a counter of 1 falls through. -/
theorem test_flow : (mini (.jmp 0 0x123)).micro.pc = 0x123 ∧ (mini (.call 0 0x123)).micro.stack = [0x11, 0x20] ∧ (mini (.ret 0)).micro.pc = 0x20 ∧
    (mini (.djnz 0 2 0x123)).micro.pc = 0x123 ∧ (mini (.djnz 0 1 0x123)).micro.pc = 0x11 ∧ (mini (.snop 0)).micro.pc = 0x11 := by decide +kernel
/-- BT is taken on F1, BF is not; a branch on an S flag is a machine check: the wale stops issuing and its job fails. -/
theorem test_branches : (mini (.bt 0 1 0x123)).micro.pc = 0x123 ∧ (mini (.bf 0 1 0x123)).micro.pc = 0x11 ∧ (mini (.jmpx 0 1 0x100)).micro.pc = 0x105 ∧
    (mini (.ldlg 0 0 1)).loop 0 = 5 ∧ ((mini (.bt 0 2 0x123)).micro.issuing && (mini (.bt 0 2 0x123)).st == .running) = false := by decide +kernel
/-- RPT with L0 = 0 goes on; LDLI loads. -/
theorem test_loops : (mini (.rpt 0)).micro.pc = 0x11 ∧ (mini (.ldli 0 3 9)).loop 3 = 9 ∧ (mini (.drain 0)).micro.pc = 0x11 := by decide +kernel
/-- DSLOT makes the slots of an object P; EMIT appends to the output; KSTORE names the key where the job's entry permits one. -/
theorem test_ports : (mini (.dslot 0 3)).sTags = [] ∧ (mini (.emit 0 1 0 1 .inc)).micro.emitted.length = 5 ∧
    (mini (.kstore 0 1 .inc)).micro.kstore = none ∧
    (((ran (.kstore 0 1 .inc) { micro (.kstore 0 1 .inc) with jobs := [job 0x0200] }).toBlock.wale 0).micro.kstore.map (·.length)) = some 2048 := by decide +kernel
/-- LAT_ADD of a stored 3,326 and itself modulo 3,329 is 3,323. -/
theorem test_lat_add :
    let c : Instr := .latAdd 0 ⟨0, 0, 1, 1, 2, 0, 0, 0, 0⟩ .inc
    ofLe (((ran c (with_ (engine.store ⟨0, 4, 2048, true⟩ 0 (le 4 3326) false) c)).toBlock.wale 0).load ⟨4, 4, 2048, true⟩ 0 4) = 3323 := by decide +kernel
/-- A microword whose nanoword holds two fields issues two operations, which read what stood before: MOV G1, G2 beside EMIT of G1 = 5 bytes (R112). -/
theorem test_two_fields :
    let v := saluWord 1 1 2 0 0 0 + 1 * 2 ^ 180 + 1 * 2 ^ 176 + 1 * 2 ^ 168
    let x : Wale := { engine with ustore := [(0x10, withMicroParity 0)], nstore := [(0, withNanoParity v)] }
    let s : State := { up with wales := [(0, x)], jobs := [job 0x0F00] }
    let y := (ran (.emit 0 1 0 1 .inc) (ran (.mov 0 1 2 .stay) s)).toBlock.wale 0
    y.reg 1 = 7 ∧ y.micro.emitted.length = 5 ∧ y.micro.pc = 0x11 ∧ y.micro.field = 0 := by decide +kernel
/-- XSUB: a target of 13 puts the microword's XA into the SALU A field (Table 5.7). -/
theorem test_xsub :
    let v := saluWord 1 4 1 0 0 0 + 12 * 2 ^ 20
    let x : Wale := { engine with ustore := [(0x10, withMicroParity (2 * 2 ^ 8))], nstore := [(0, withNanoParity v)] }
    x.commands 0 = [.mov 0 4 2 .inc] := by decide +kernel
/-- An operation the word does not spell is not executed (R106). -/
theorem test_other_word : (ran (.snop 0) (micro (.jmp 0 0x123))).toBlock.wale 0 = (micro (.jmp 0 0x123)).toBlock.wale 0 := by decide +kernel
/-- The idle routine of the maker image is a single WAIT_WORK (R103). -/
theorem test_idle_routine : ({ engine with maker := true, micro := {} } : Wale).commands 0 = [.waitWork 0] := by decide +kernel
/-- INIT sets the mode of the engines of its mask. -/
theorem test_hash_init : ((mini (.init 0 ⟨5, 1, 2, 1⟩ 3 .inc)).micro.hash[0]).mode = 4 ∧ ((mini (.init 0 ⟨5, 1, 2, 1⟩ 3 .inc)).micro.hash[1]).mode = 0 := by
  decide +kernel
/-- ABSORB takes G1 = 5 bytes. -/
theorem test_absorb : ((mini (.absorb 0 ⟨1, 1, 2, 1⟩ .inc)).micro.hash[0]).data.length = 5 ∧ ((mini (.absorb 0 ⟨1, 3, 2, 1⟩ .inc)).micro.hash[0]).taint = true := by
  decide +kernel

/-! ### What the statements on microprograms assume -/

/-- For every operation, a wale that issues its word (`Issues` of every statement on microwords). -/
theorem meets_Issues :
    let l : LatF := ⟨0, 0, 1, 2, 2, 0, 4, 0, 5⟩
    let f : BnF := ⟨1, 2, 1, 2, 4, 5⟩
    let h : HashF := ⟨5, 1, 2, 4⟩
    ([.snop 0, .jmp 0 0x123, .call 0 0x123, .ret 0, .rpt 0, .bt 0 1 0x123, .bf 0 5 0x123, .ldli 0 3 9, .ldlg 0 0 1, .djnz 0 2 0x123, .jmpx 0 1 0x100,
      .release 0 0, .drain 0, .dbt 0 1 0x20 true, .dbt 0 1 0x20 false, .dslot 0 3, .kstore 0 1 .inc, .draw 0 1 0 4 .inc, .emit 0 1 0 4 .inc,
      .mov 0 4 1 .inc, .movi 0 4 1023 .inc, .movs 0 4 1023 .inc, .add 0 4 1 2 .inc, .sub 0 4 1 2 .inc, .and 0 4 1 2 .inc, .or 0 4 1 2 .inc, .xor 0 4 1 2 .inc,
      .shl 0 4 1 2 .inc, .shr 0 4 1 2 .inc, .addi 0 4 1 1 .inc, .cmpeq 0 4 1 2 .inc, .cmplt 0 4 1 2 .inc, .sel 0 4 1 1 2 .inc, .ldw 0 4 1 5 .inc,
      .stw 0 1 1 5 .inc, .objlen 0 4 1 .inc, .ntt 0 l .inc, .intt 0 l .inc, .latAdd 0 l .inc, .latSub 0 l .inc, .mulp 0 l .inc, .mulm 0 l .inc,
      .basemul 0 l .inc, .a2b 0 l .inc, .b2a 0 l .inc, .compress 0 l .inc, .decompress 0 l .inc, .cbd 0 l .inc, .encode 0 l .inc, .decode 0 l .inc,
      .normchk 0 l .inc, .remask 0 l .inc, .uniform 0 l .inc, .init 0 h 7 .inc, .absorb 0 h .inc, .final 0 h .inc, .squeeze 0 h .inc, .bnModAdd 0 f .inc,
      .bnModSub 0 f .inc, .bnModMul 0 f .inc, .bnModRed 0 f .inc, .bnModInv 0 f .inc, .bnModExp 0 f .inc, .bnPtAdd 0 f .inc, .bnPtMul 0 f .inc,
      .bnSecret 0 31 f .inc, .mov 0 4 1 .stay, .emit 0 1 0 4 .stay] : List Instr).all (fun c =>
        (micro c).toBlock.issues 0 && ((micro c).toBlock.wale 0).fetchFault == none && ((micro c).toBlock.wale 0).spells 0 c) = true := by decide +kernel
/-- FlowOperations: a wale that issues, with room for the next address (at the last address of the maker's region but one), counters of 0, 1 and more, a
stack with room and with an entry; and a customer's program, which may go to 0x3000. -/
theorem meets_FlowOperations :
    let x := (micro (.djnz 0 2 0x123)).current 0
    let y := (with_ { engine with micro := { engine.micro with l := engine.micro.l.set 0 2 } } (.rpt 0)).current 0
    let z := (with_ { engine with micro := { engine.micro with customer := true, pc := 0x3FFE } } (.jmp 0 0x3000)).current 0
    x.roomFor .inc ∧ x.loop 0 = 0 ∧ x.loop 1 = 1 ∧ 1 < (x.loop 2).toNat ∧ x.mayGo 0 ∧ (x.loop 0).toNat ≤ 1 ∧ x.micro.stack.length < 8 ∧
    x.micro.stack = 0x20 :: [] ∧ 1 < (y.loop 0).toNat ∧ z.mayGo 0x3000 ∧ z.roomFor .inc ∧
    ((with_ (engine.setPc 0x2FFE) (.snop 0)).current 0).roomFor .inc ∧ Issues (with_ (engine.setPc 0x2FFE) (.snop 0)) 0 (.snop 0) := by
  unfold Issues Wale.roomFor Wale.mayGo; decide +kernel
/-- BranchOperations: P flags of either value, a P and an S register, an S flag, and the furthest computed target. -/
theorem meets_BranchOperations :
    let x := (micro (.jmpx 0 1 0x3FFA)).current 0
    Issues (micro (.jmpx 0 1 0x3FFA)) 0 (.jmpx 0 1 0x3FFA) ∧ x.flagS 1 = false ∧ x.flag 1 = true ∧ x.mayGo 0x3FFF ∧ x.flagS 5 = false ∧ x.flag 5 = false ∧
    x.roomFor .inc ∧ x.regS 1 = false ∧ (0x3FFA : BitVec 14).toNat + (x.reg 1).toNat % 64 ≤ 0x3FFF ∧
    x.mayGo (0x3FFA + BitVec.ofNat 14 ((x.reg 1).toNat % 64)) ∧ x.flagS 2 = true ∧ x.regS 3 = true := by
  unfold Issues Wale.roomFor Wale.mayGo; decide +kernel
/-- OnlyIssuingWalesExecute: a microword of a wale that does not issue, one whose word spells another, and one whose word fails its parity. -/
theorem meets_OnlyIssuingWalesExecute :
    let bad : State := { up with wales := [(0, { engine with ustore := [(0x10, 1)] })], jobs := [job 0x0F00] }
    (Instr.snop 0).microword = some 0 ∧ up.toBlock.issues 0 = false ∧ (micro (.jmp 0 0)).toBlock.issues 0 = true ∧
    ((micro (.jmp 0 0)).toBlock.wale 0).fetchFault = none ∧ ((micro (.jmp 0 0)).toBlock.wale 0).spells 0 (.snop 0) = false ∧
    (bad.toBlock.wale 0).fetchFault = some 0x10A ∧ bad.toBlock.issues 0 = true := by decide +kernel
/-- RegistersAndFlags: a wale between microwords; a stack of seven, of eight and of no entry; SEQ operation 15 and an EXEC word of NEXT 3 or SYNC 2, of even
parity. -/
theorem meets_RegistersAndFlags :
    let deep (n : Nat) : Wale := { engine with micro := { engine.micro with stack := List.replicate n 0x20 } }
    let word (v : BitVec 25) : Wale := { engine with ustore := [(0x10, v)] }
    let m (v : BitVec 25) : BitVec 25 := (word v).uword (word v).micro.pc.toNat
    engine.micro.held = none ∧ engine.mayGo 0x20 ∧ (deep 7).micro.stack.length < 8 ∧ 8 ≤ (deep 8).micro.stack.length ∧ (deep 0).micro.stack = [] ∧
    Issues (with_ (deep 7) (.call 0 0x20)) 0 (.call 0 0x20) ∧ Issues (with_ (deep 8) (.call 0 0x20)) 0 (.call 0 0x20) ∧
    Issues (with_ (deep 0) (.ret 0)) 0 (.ret 0) ∧
    ({ up with wales := [(0, word 3)], jobs := [job 0x0F00] } : State).toBlock.issues 0 = true ∧ microParityOk (m 0x1BC0000) = true ∧
    (m 0x1BC0000).getLsbD 23 = true ∧ 14 < bits (m 0x1BC0000).toNat 22 18 ∧ microParityOk (m 3) = true ∧ (m 3).getLsbD 23 = false ∧
    nanoParityOk ((word 3).nword (bits (m 3).toNat 22 12)) = true ∧ bits (m 3).toNat 1 0 = 3 ∧ 2 ≤ bits (m 0x1000008).toNat 3 2 ∧
    microParityOk (m 0x1000008) = true ∧ (Instr.snop 0).microword = some 0 := by
  unfold Issues Wale.mayGo; decide +kernel
/-- ScalarOperations: a valid object and none. -/
theorem meets_ScalarOperations :
    let x := (micro (.objlen 0 4 1 .inc)).current 0
    x.roomFor .inc ∧ x.roomFor .stay ∧ (x.micro.o[(1 : Reg)]).valid = true ∧ (x.micro.o[(4 : Reg)]).valid = false := by
  unfold Wale.roomFor; decide +kernel
/-- WordAccesses: the last word of an object of four slots, an S index, and the word behind the last. -/
theorem meets_WordAccesses :
    let x := (with_ (engine.setReg 5 255 false) (.ldw 0 4 1 5 .inc)).current 0
    let y := (with_ (engine.setReg 5 256 false) (.stw 0 1 1 5 .inc)).current 0
    x.roomFor .inc ∧ x.regS 5 = false ∧ x.inObj 1 (8 * (x.reg 5).toNat) 8 ∧ x.opmem.wf = true ∧
    (x.micro.o[(1 : Reg)]).valid = true ∧ x.regS 3 = true ∧ y.regS 5 = false ∧ ¬ y.inObj 1 (8 * (y.reg 5).toNat) 8 := by
  unfold Wale.roomFor Wale.inObj; decide +kernel
/-- LatticeUnary, LatticeBinary, LatticeSampling: a legal field (q 3,329, n 256), polynomials 0 and 1 of the objects 1 and 2, an S source at order 1, and the
parameters at the ends of their ranges: 1 and 11 for a rounding, 2 and 3 for CBD, 12 for a code, 3,329 for a bound. -/
theorem meets_Lattice :
    let l : LatF := ⟨0, 0, 1, 2, 2, 0, 4, 0, 5⟩
    let put (v : W64) : Wale := (with_ (engine.setReg 4 v false) (.compress 0 l .inc)).current 0
    let x := put 1
    let y : Wale := { x with order := 1 }
    x.roomFor .inc ∧ Legal l ∧ l.q = 0 ∧ x.readable (latPoly l 1 0) ∧ x.readable (latPoly l 2 4) ∧ x.writable (latPoly l 2 0) ∧
    y.readable (latPoly l 3 0) ∧ y.secretAt (latPoly l 3 0) = true ∧
    x.param l (fun k => 1 ≤ k ∧ k < latWidth l) ∧ (put 11).param l (fun k => 1 ≤ k ∧ k < latWidth l) ∧
    (put 2).param l (fun e => e = 2 ∨ e = 3) ∧ (put 3).param l (fun e => e = 2 ∨ e = 3) ∧
    (put 2).readable ⟨l.a, 0, latDeg l * 2 / 4⟩ ∧ (put 12).param l (fun e => 1 ≤ e ∧ e ≤ latWidth l) ∧
    (put 12).readable ⟨l.a, 0, latDeg l * 12 / 8⟩ ∧ (put 12).writable ⟨l.d, 0, latDeg l * 12 / 8⟩ ∧
    (put 3329).param l (fun e => e ≤ latModOf l) ∧ (x.micro.o[l.a]).valid = true ∧ (x.order = 0 → x.objS (x.micro.o[l.a]) = false) ∧
    (put 4).reg 4 ≠ 2 ∧ (put 4).reg 4 ≠ 3 ∧ (put 4).regS 4 = false := by
  unfold Legal Wale.roomFor Wale.readable Wale.writable Wale.param Wale.inObj; dsimp only; repeat' apply And.intro
  all_goals decide +kernel
/-- LatticeArithmeticIsModular: a legal field. LatticeBinary: a field whose q is not 3,329. -/
theorem meets_LatticeModular : (⟨2, 2, 1, 2, 2, 0, 4, 0, 5⟩ : LatF).q ≠ 3 ∧ (⟨2, 2, 1, 2, 2, 0, 4, 0, 5⟩ : LatF).n ≠ 3 ∧
    (⟨1, 0, 1, 2, 2, 0, 4, 0, 5⟩ : LatF).q ≠ 0 ∧ Legal ⟨1, 0, 1, 2, 2, 0, 4, 0, 5⟩ := by unfold Legal; decide
/-- HashEngines: all 2,048 bytes of an object, and one byte more than it has. -/
theorem meets_HashEngines :
    let h : HashF := ⟨1, 1, 2, 4⟩
    let x := (with_ (engine.setReg 4 2048 false) (.absorb 0 h .inc)).current 0
    let y := (with_ (engine.setReg 4 2049 false) (.squeeze 0 h .inc)).current 0
    x.roomFor .inc ∧ x.regS 4 = false ∧ x.inObj 1 0 (x.reg 4).toNat ∧ (x.reg 4).toNat ≤ (x.micro.o[(1 : Reg)]).len ∧ x.inObj 2 0 (x.reg 4).toNat ∧
    y.regS 4 = false ∧ (y.micro.o[(1 : Reg)]).valid = true ∧ (y.micro.o[(1 : Reg)]).len < (y.reg 4).toNat := by
  unfold Wale.roomFor Wale.inObj; decide +kernel
/-- BigNumberOperations: parameters of 64 bits, without and with a scalar of 1 bit; objects that hold the operands; all objects valid for a secret-level
operation. -/
theorem meets_BigNumber :
    let f : BnF := ⟨1, 2, 1, 2, 4, 5⟩
    let x := (with_ (engine.setReg 4 64 false) (.bnModAdd 0 f .inc)).current 0
    let y := (with_ (engine.setReg 4 (64 + 65536) false) (.bnModExp 0 f .inc)).current 0
    x.roomFor .inc ∧ x.bnReady .modAdd f ∧ x.bnReady .modRed f ∧ x.bnReady .modInv f ∧ y.bnReady .modExp f ∧ x.bnReady .ptAdd f ∧
    y.bnReady .ptMul f ∧ x.regS f.par = false ∧ x.micro.customer = false ∧
    (∀ o ∈ [f.a, f.b, f.m, f.d], (x.micro.o[o]).valid = true) := by
  unfold Wale.roomFor Wale.bnReady Wale.bnHolds Wale.inObj; dsimp only; repeat' apply And.intro
  all_goals decide +kernel
/-- JobMicrowords: a run before its first microword, whose store spells WAIT_WORK; a wale that issues for a job that permits a result key, and for one that
permits none; amounts that fill the output and a whole object; a decision on one wale; a pair whose lead presents and whose partner, one operation behind, finds
the decision; a seeder that serves. -/
theorem meets_JobMicrowords :
    let idle : Wale := { engine with micro := {} }
    let s : State := with_ idle (.waitWork 0)
    let c : Instr := .emit 0 1 0 4 .inc
    let x := (with_ (engine.setReg 4 64 false) c).current 0
    let d : Instr := .dbt 0 1 0x20 true
    let d1 : Instr := .dbt 1 1 0x20 true
    let lead : Wale := { engine with paired := true, partner := 1 }
    let tail : Wale := { lead with lead := false, partner := 0 }
    let pair (n m : Nat) (v : Option Bool) : State := { up with jobs := [job 0x0F00], wales := [
      (0, Wale.holding { lead with micro := { lead.micro with count := n, presented := v } } d),
      (1, Wale.holding { tail with micro := { tail.micro with count := m } } d1)] }
    idle.job.bind s.toBlock.job = some (job 0x0F00) ∧ idle.st = .running ∧ (job 0x0F00).phase = .running ∧ idle.micro.issuing = false ∧
    idle.micro.released = none ∧ (s.current 0).spells 0 (.waitWork 0) = true ∧ x.roomFor .inc ∧ x.job.bind (micro c).toBlock.job = some (job 0x0F00) ∧
    (job 0x0F00).permitsKey = false ∧ (job 0x0200).permitsKey = true ∧
    (x.micro.o[(1 : Reg)]).valid = true ∧ x.regS 0 = false ∧ x.regS 4 = false ∧ x.inObj 1 0 64 ∧
    0 + 64 ≤ (x.micro.o[(1 : Reg)]).len ∧ x.micro.emitted.length + 64 ≤ (job 0x0F00).desc.outCap ∧ x.micro.customer = false ∧ x.paired = false ∧
    x.timeRed = false ∧ x.second = false ∧ x.mayGo 0x20 ∧ x.regS 1 = false ∧ (job 0x0F00).wales = [0] ∧ (job 0x0F00).timeRed = false ∧
    x.micro.released = none ∧ (micro c).toBlock.serves 0 = true ∧ 0 < 64 ∧ 64 < 1048576 ∧
    (pair 5 5 none).toBlock.partnerOf 0 = some 1 ∧ Issues (pair 5 5 none) 0 d ∧ lead.lead = true ∧
    (pair 6 5 (some true)).toBlock.partnerOf 1 = some 0 ∧ Issues (pair 6 5 (some true)) 1 d1 ∧ tail.lead = false ∧
    (((pair 6 5 (some true)).toBlock.wale 0).micro.presented) = some true ∧ ((pair 6 5 (some true)).current 1).flag 1 = true ∧
    ((pair 6 5 (some true)).toBlock.wale 0).mayGo 0x20 ∧ ((pair 6 5 (some true)).toBlock.wale 0).roomFor .inc ∧
    ((pair 6 5 (some false)).current 1).flag 1 ≠ false := by
  unfold Issues Wale.roomFor Wale.mayGo Wale.inObj; decide +kernel

/-! ### Rings and gather lists -/

/-- Slice 1 with another ring 0. -/
def withRing (q : Sq) (c : Cq := compl) : State := { up with
  slices := [(1, { slice with sq := slice.sq.set 0 q, cq := slice.cq.set 0 c })] }
/-- Ring 0 of slice 1 after a command. -/
def sq0 (s : State) : Sq := (s.toBlock.slice 1).sq[0]

/-- SQ_TAIL_DOORBELL: 15 is the last legal tail of 16 entries, 16 halts with cause 0x01, as does a tail moved back. -/
theorem test_tail : (sq0 (ran (.sqTailDoorbell 1 0 15) up)).tail = 15 ∧ (sq0 (ran (.sqTailDoorbell 1 0 16) up)).halted = true ∧
    (sq0 (ran (.sqTailDoorbell 1 0 2) up)).halted = true ∧ ((ran (.sqTailDoorbell 1 0 16) up).toBlock.slice 1).err.code = 1 := by decide +kernel
/-- A fetch reads min(8, 16 − head) entries of 64 bytes. -/
theorem test_fetch : (ran (.sqTailDoorbell 1 0 12) (withRing { ring with head := 10, tail := 10 })).link.head? =
    some (.read (0x10000 + 640) 384 none) := by decide +kernel
/-- CQ_HEAD_DOORBELL beyond the tail halts the ring with cause 0x05. -/
theorem test_head : ((ran (.cqHeadDoorbell 1 0 3) up).toBlock.slice 1).err.code = 5 ∧
    (((ran (.cqHeadDoorbell 1 0 2) (withRing ring { compl with tail := 2 })).toBlock.slice 1).cq[0]).head = 2 := by decide +kernel
/-- SQ_DISABLE, then SQ_ENABLE of 2^16 entries on completion ring 0; CQ_ENABLE of ring 1; DBL_ERR_CLEAR. -/
theorem test_ring_config : (sq0 (ran (.sqDisable 1 0) up)).enable = false ∧ (sq0 (ran (.sqEnable 1 0 0x80100000) (withRing {}))).log2 = 16 ∧
    (((ran (.cqEnable 1 1 0xC0040003) up).toBlock.slice 1).cq[1]).vector = 3 ∧ (((ran (.cqDisable 1 1) up).toBlock.slice 1).cq[1]).enable = false ∧
    ((ran (.dblErrClear 1) (ran (.sqTailDoorbell 1 0 16) up)).toBlock.slice 1).err.valid = false := by decide +kernel

/-- Doorbells: an empty ring; a slice that takes none, a disabled and a halted ring; the last legal tail, the first illegal one, and the last one behind. -/
theorem meets_Doorbells :
    let b := up.toBlock
    let q := (b.slice 1).sq[0]
    let c := (b.slice 1).cq[0]
    (((b.slice 1).sq[1]).head = ((b.slice 1).sq[1]).tail) ∧ b.doorbells 2 = false ∧ ((b.slice 1).sq[1]).enable = false ∧ ({ ring with halted := true } : Sq).halted = true ∧
    b.doorbells 1 = true ∧ q.enable = true ∧ q.halted = false ∧ 15 < 2 ^ q.log2.toNat ∧ (q.tail + 16 - q.head) % 16 ≤ (15 + 16 - q.head) % 16 ∧
    2 ^ q.log2.toNat ≤ 16 ∧ (2 + 16 - q.head) % 16 < (q.tail + 16 - q.head) % 16 ∧
    c.enable = true ∧ c.halted = false ∧ 0 < 2 ^ c.log2.toNat ∧ (c.tail + 16 - 0) % 16 ≤ (c.tail + 16 - c.head) % 16 ∧
    2 ^ c.log2.toNat ≤ 16 ∧ (c.tail + 16 - c.head) % 16 < (c.tail + 16 - 15) % 16 := by decide +kernel
/-- DescriptorFetching: a ring that consumes, idle, under way and retrying; entries with OWN clear and set; 6 and 7 retries. -/
theorem meets_DescriptorFetching :
    let b := up.toBlock
    let busy := (withRing { ring with busy := true, seen := 3 }).toBlock
    let idle := busy.modSq 1 0 (fun q => { q with busy := false })
    let tried (n : Nat) := (withRing { ring with tries := n }).toBlock
    b.consumes 1 0 = true ∧ ((b.slice 1).sq[0]).busy = false ∧ ((b.slice 1).sq[0]).tries = 0 ∧ b.consumes 1 1 = false ∧
    ((busy.slice 1).sq[0]).busy = true ∧ idle.consumes 1 0 = true ∧ ((busy.slice 1).sq[0]).head < 2 ^ ((busy.slice 1).sq[0]).log2.toNat ∧
    ((busy.slice 1).sq[0]).seen ≠ ((busy.slice 1).sq[0]).head ∧ ((busy.slice 1).sq[0]).seen < 16 ∧
    (parseDesc (zeros 64)).own = false ∧ (parseDesc (zeros 63 ++ [0x80])).own = true ∧
    (tried 6).consumes 1 0 = true ∧ 0 < (((tried 6).slice 1).sq[0]).tries ∧ (((tried 6).slice 1).sq[0]).tries < 7 ∧
    (tried 7).consumes 1 0 = true ∧ 7 ≤ (((tried 7).slice 1).sq[0]).tries := by decide +kernel
/-- RingConfiguration: a page that takes writes; an enabled and a disabled ring of each kind; sizes of 2^4 and 2^16; the last vector; a completion ring no
submission ring needs; a latch that is clear and one that is set. -/
theorem meets_RingConfiguration :
    let b := up.toBlock
    let x := b.slice 1
    b.pageOpen 1 = true ∧ (x.sq[0]).enable = true ∧ (x.sq[1]).enable = false ∧ (x.sq[1]).open_ = 0 ∧ 4 ≤ bits 0x80040000 20 16 ∧ bits 0x80100000 20 16 ≤ 16 ∧
    (x.cq[(Fin.ofNat 8 (bits 0x80040000 2 0) : Fin 8)]).enable = true ∧ (x.cq[0]).enable = true ∧ (x.cq[1]).enable = false ∧ (x.cq[1]).a = 0 ∧
    bits 0xC0040003 10 0 < x.vecCount ∧ (∀ m : RingId, (x.sq[m]).cq = 1 → (x.sq[m]).enable = false ∧ (x.sq[m]).open_ = 0) ∧ x.err.valid = false ∧
    (((ran (.sqTailDoorbell 1 0 16) up).toBlock.slice 1).err).valid = true := by decide +kernel

/-- A job whose input list is walked. -/
def walker : Job := { job 0x0F00 with phase := .walking, wales := [], walks := [.input], walkAt := 0x5000, walkAsked := true }
/-- GatherWalk: a walking job whose read is asked; a data entry of one byte and one of 16 MiB, the last entry, an illegal code, an entry of no length; a list
one entry short of full and a full one; a link after 63 and after 64 links, to a new segment and to one of the last; a list whose sum is its length, of a job
with another list behind it, and one whose sum is not. -/
theorem meets_GatherWalk :
    let s : State := { up with jobs := [walker] }
    let d := le 8 0x8000 ++ le 4 1 ++ le 4 0
    let e := le 8 0x8000 ++ le 4 16777216 ++ le 4 2
    let k (a : Nat) := le 8 a ++ le 4 0 ++ le 4 1
    let full (n : Nat) : Job := { walker with pieces := [(0, List.replicate n (0, 1))] }
    s.toBlock.job 1 = some walker ∧ walker.phase = .walking ∧ walker.walkAsked = true ∧ walker.ended = false ∧ walker.walks.head? = some .input ∧
    walker.walkAt.toNat % 16 = 0 ∧ addrForm (BitVec.ofNat 64 (fld d 0 8)) = 0 ∧ 0 < fld d 8 4 ∧ fld e 8 4 ≤ 16777216 ∧
    (Tab.get [] (full 4095).pieces (Buf.code .input)).length < 4096 ∧ 4096 ≤ (Tab.get [] (full 4096).pieces (Buf.code .input)).length ∧
    fld d 12 4 = 0 ∧ ({ walker with segCount := 254 } : Job).segCount < 255 ∧ fld e 12 4 = 2 ∧ 3 ≤ fld (zeros 12 ++ le 4 3) 12 4 ∧
    fld (k 0x6000) 12 4 = 1 ∧ fld (k 0x6000) 8 4 = 0 ∧ (BitVec.ofNat 64 (fld (k 0x6000) 0 8) : W64).toNat % 16 = 0 ∧
    ({ walker with links := 63 } : Job).links < 64 ∧ 64 ≤ ({ walker with links := 64 } : Job).links ∧
    (BitVec.ofNat 64 (fld (k 0x6000) 0 8) : W64) ∉ [walker.walkAt] ∧ (BitVec.ofNat 64 (fld (k 0x5000) 0 8) : W64) ∈ [walker.walkAt] ∧
    fld (zeros 16) 12 4 ≠ 1 ∧ fld (zeros 16) 8 4 = 0 ∧ walker.walks = [.input] ∧ ({ walker with walks := [.input, .output] } : Job).walks = .input :: .output :: [] ∧
    ({ walker with pieces := [(0, [(0x8000, 64)])] } : Job).declared .input = 64 ∧ walker.declared .input ≠ 0 := by decide +kernel
/-- A walk's last entry of 64 bytes ends the list of a job of 64 bytes. -/
theorem test_gather : (ran (.gatherEntryRead 1 .input (.data (le 8 0x8000 ++ le 4 64 ++ le 4 2))) { up with jobs := [walker] }).jobs.map (·.walks) = [[]] := by
  decide +kernel

/-! ### The dispatcher and the wales -/

/-- A job on its ready list. -/
def waiting (lvl : Fin 8 := 0) : Job := { job 0x0F00 with phase := .ready, wales := [], level := lvl }
/-- A machine where it waits and wale 0 is warm. -/
def ready : State := { up with jobs := [waiting], wales := [(0, { st := .warm })] }
/-- A job of an empty footprint that waits. -/
def empty : State := { up with jobs := [{ waiting with entry := { waiting.entry with wales := 0 } }] }

/-- GRANT takes the waiting job onto wale 0, where its input is fetched. -/
theorem test_grant : (ran (.grant (some 0)) ready).jobs.map (fun j => (j.phase, j.wales)) = [(.loading, [0])] := by decide +kernel
/-- PROMOTION raises a job one level after a PROMOTE period of 64 × 16 µs. -/
theorem test_promotion : (ran (.promotion 1) ready).jobs.map (·.level) = [1] ∧ (ran (.promotion 1) ready).now = 1024000 := by decide +kernel
/-- A wipe that reads zero ends in state 2. -/
theorem test_wipe : ((ran (.wipeEnd 0 true) { up with wales := [(0, { st := .wiping })] }).toBlock.wale 0).st = .warm := by decide +kernel
/-- GATE_DELAY and COLD_DELAY of a wale beyond the pool. -/
theorem test_gate : ((ran (.waleWakeEnd 0) { up with wales := [(0, { st := .gated, waking := true })] }).toBlock.wale 0).st = .warm := by decide +kernel
/-- A request for a lock waits; the next round of its target's arbiter takes it. -/
theorem test_lock : ((ran (.lockRequest 0 3 20 64) up).toBlock.quad 0).locks = [] ∧
    ((ran (.arbitrationRound 0 20 []) (ran (.lockRequest 0 3 20 64) up)).toBlock.quad 0).locks.map (fun l => (l.1, l.2.owner.val, l.2.beats)) = [(20, 3, 64)] := by
  decide +kernel
/-- An arbitration round: of two requests of one priority the older wins; with equal ages the lower requester. -/
theorem test_arbitration : Tab.get 0 ((ran (.arbitrationRound 0 5 [⟨4, none, false⟩, ⟨3, none, false⟩]) up).toBlock.quad 0).ages (5 * 26 + 4) = 1 ∧
    Tab.get 0 ((ran (.arbitrationRound 0 5 [⟨4, none, false⟩, ⟨3, none, false⟩]) up).toBlock.quad 0).ages (5 * 26 + 3) = 0 := by decide +kernel

/-- ServedJobFits: a request that is served. -/
theorem meets_ServedJobFits : (Block.serve (fun _ => true) 0 (ready.toBlock.visits 0) ready.toBlock).2 = some 1 := by decide +kernel
/-- GrantServes: a wale that may not ask and one that may; a reserved job that fits; a job served; none served; a job of an empty footprint; a dispatcher
that does not grant. -/
theorem meets_GrantServes :
    let b := ready.toBlock
    let fit (b : Block) := fun j => (b.plan j 0).isSome
    let held : Block := { b with dsp := { b.dsp with reserved := [(0, 1)] } }
    let full : Block := { b with jobs := [{ waiting with ddrNeed := 257, phase := .ready }], slices := [(1, { slice with quota := { slice.quota with ddr5 := 1 } })] }
    let lost : State := { up with jobs := [{ waiting with ended := true, skein := some 0 }],
                                  dsp := { up.dsp with skeins := [(0, { slice := 1, next := 1, members := [1] })] } }
    ({ up with wales := [(0, { st := .running })] } : State).toBlock.asks 0 = false ∧ b.asks 0 = true ∧ b.dropWithdrawn = b ∧
    (held.reservedJob 0).map (·.id) = some 1 ∧ waiting.ddrNeed = 0 ∧ (held.plan waiting 0).isSome = true ∧ held.job 1 = some waiting ∧
    b.reservedJob 0 = none ∧ (Block.serveFrom (fit b) 0 8 b).2 = some 1 ∧
    ((Block.serveFrom (fit b) 0 8 b).1.job 1).map (fun j => (j.ddrNeed, ((Block.serveFrom (fit b) 0 8 b).1.plan j 0).isSome)) = some (0, true) ∧
    (Block.serveFrom (fit b) 0 8 { b with jobs := [] }).2 = none ∧ ({ b with jobs := [] } : Block).asks 0 = true ∧
    (full.job 1).map (fun j => decide (j.phase = .ready ∧ j.ddrNeed ≠ 0 ∧ (full.slice j.slice).quota.ddr5 * 256 < full.ddrOf j.slice + full.ddrDue j.slice + j.ddrNeed)) =
      some true ∧
    empty.toBlock.dispatches = true ∧ empty.toBlock.pwr.ioutHold = false ∧ empty.toBlock.dropWithdrawn = empty.toBlock ∧
    (Block.serveFrom empty.toBlock.startsEmpty 0 8 empty.toBlock).2 = some 1 ∧
    lost.toBlock.dispatches = true ∧ (Block.serveFrom lost.toBlock.startsEmpty 0 8 lost.toBlock).2 = some 1 ∧ lost.toBlock.dropWithdrawn = lost.toBlock ∧
    (Block.serveFrom empty.toBlock.startsEmpty 0 8 { empty.toBlock with jobs := [] }).2 = none ∧ State.reset.toBlock.dispatches = false := by decide +kernel
/-- PromotionAndReservation: below the ceiling at level 4, at it at level 5, promotion off, off the lists; a job that fits no wale while the quadrants are free,
passed over and not. -/
theorem meets_PromotionAndReservation :
    let b := ready.toBlock
    let s : State := { up with jobs := [waiting], wales := (List.range 64).map (fun i => (i, { st := .running, job := some 2 })) }
    b.promoteNs ≠ 0 ∧ (waiting 4).level < (b.slice 1).ceiling ∧ (b.slice 1).ceiling ≤ (waiting 5).level ∧ waiting.listed = true ∧ waiting.ended = false ∧
    (job 0x0F00).listed = false ∧ ({ b with dsp := { b.dsp with cfg := 0 } } : Block).promoteNs = 0 ∧
    s.toBlock.job 1 = some waiting ∧ waiting.entry.wales ≠ 0 ∧ s.toBlock.anyFit waiting = false ∧ s.toBlock.startable waiting = true ∧
    s.toBlock.quotaFree waiting 1 = true ∧ (∀ q < 4, (s.toBlock.reservedJob q).any (fun r => r.id == 1) = false) ∧ waiting.passedOver = none ∧
    ({ waiting with passedOver := some 5 } : Job).passedOver = some 5 ∧
    s.toBlock.quadAvail 0 = true ∧ s.toBlock.reservedJob 0 = none ∧ waiting.phase ≠ .spilled ∧ waiting.entry.draws = false := by decide +kernel
/-- PreemptionPicksTheLeastVictim: a job of level 7 that fits nowhere; a preemptible job of level 0 that leads wale 0, and none. -/
theorem meets_Preemption :
    let v : Job := { job 0x0200 with id := 2, entry := { (job 0x0200).entry with preemptible := true } }
    let s (victim : Bool) : State := { up with
      jobs := [waiting 7, v], wales := (List.range 64).map (fun i => (i, { st := .running, job := some (if i = 0 ∧ victim then 2 else 3), lead := true })) }
    let b (victim : Bool) := (s victim).toBlock.advanceTo (waiting 7).readySince (s victim).toBlock.preemptNs
    (s true).toBlock.job 1 = some (waiting 7) ∧ (waiting 7).listed = true ∧ (waiting 7).ended = false ∧ (waiting 7).entry.wales ≠ 0 ∧
    (s true).toBlock.preemptDelta ≠ 0 ∧ (s true).toBlock.anyFit (waiting 7) = false ∧ (s true).toBlock.dispatches = true ∧
    ((b true).victim (waiting 7) 0).isSome = true ∧ (∀ w : WaleId, (b false).victim (waiting 7) w = none) := by decide +kernel
/-- SpillAndRestore: a wale asked to trap, one not asked, and a partner asked to trap at the word it has reached; a wale that spills with no copy, and one whose
copy stands in the spill region; a free one. -/
theorem meets_SpillAndRestore :
    let x : Wale := { engine with trapWanted := true }
    let y : Wale := { engine with st := .spilling }
    let s : State := { up with jobs := [job 0x0F00], wales := [(0, x)] }
    let copy : Spill := ⟨1, 0, 0, true, engine.micro, [], [], 0, 0, false, false, [1792, 1793]⟩
    let mine := fun (z : Spill) => z.job == 1 && z.part == y.part && z.lead == y.lead
    x.job = some 1 ∧ x.trapWanted = true ∧ x.st = .running ∧ engine.trapWanted = false ∧ s.toBlock.job 1 = some (job 0x0F00) ∧ (job 0x0F00).phase = .running ∧
    x.micro.field = 0 ∧ x.micro.released = none ∧ x.micro.presented = none ∧ x.trapAt = none ∧
    ({ x with trapAt := some 0 } : Wale).trapAt = some ({ x with trapAt := some 0 } : Wale).micro.count ∧ y.job = some 1 ∧ y.st = .spilling ∧
    ((up.toBlock.quad 0).spills.any mine = false) ∧ ([copy].find? mine = some copy) ∧ (up.toBlock.wale 0).job = none := by decide +kernel
/-- WaleSleepsAndWakes: each state of the idle life, the cold wale with and without a seeder that delivers, a wale beyond its pool, a cold wale whose seeder
has stopped. -/
theorem meets_WaleSleepsAndWakes :
    let w (st : WaleSt) (waking := false) : State := { up with wales := [(0, { st := st, waking := waking, drbgSeeded := true })] }
    let none : State := { w .gated true with rng := {} }
    ((w .wiping).toBlock.wale 0).st = .wiping ∧ ((w .warm).toBlock.wale 0).st ≠ .wiping ∧ ((w .gated true).toBlock.wale 0).waking = true ∧
    ((w .gated true).toBlock.quad 0).pllLocked = true ∧ ((w .gated true).toBlock.wale 0).job = Option.none ∧ (w .gated true).toBlock.delivers 0 = true ∧
    none.toBlock.delivers 0 = false ∧ ((w .clockGated true).toBlock.wale 0).st = .clockGated ∧ ((w .warm).toBlock.wale 0).waking = false ∧
    (State.reset.toBlock.quad 0).pllLocked = false ∧ ((w .running).toBlock.wale 0).st ≠ .warm ∧
    ({ w .warm with dsp := { up.dsp with warm := Vector.replicate 4 0 } } : State).toBlock.freeWale 0 = true ∧
    ({ w .warm with dsp := { up.dsp with warm := Vector.replicate 4 0 } } : State).toBlock.beyond 0 = true ∧ (w .warm).toBlock.beyond 0 = false ∧
    (({ w .clockGated with rng := { seeders := [(0, { st := .stopped })] } } : State).toBlock.seeder 0).st = .stopped ∧
    ((w .clockGated).toBlock.wale 0).drbgSeeded = true ∧ (w .clockGated).toBlock.freeWale 0 = true ∧
    ((w .clockGated).toBlock.seeder 0).st ≠ .paused ∧ ((w .clockGated).toBlock.seeder 0).st ≠ .stopped := by decide +kernel
/-- CompareAndMonitors: a job of two parts at the comparators, whose first part matches first and second, and one that is not there; a running wale and one that
is not; a customer's entry; an engaged leveller with and without a job, and one at rest. -/
theorem meets_CompareAndMonitors :
    let j : Job := { job 0x0F00 with phase := .comparing, width := 2 }
    let k : Job := { j with passedParts := [1] }
    let s : State := { up with jobs := [job 0x0F00], wales := [(0, engine)] }
    s.toBlock.job 1 = some (job 0x0F00) ∧ j.phase = .comparing ∧ j.ended = false ∧ 0 < j.width ∧ (∃ i, i < j.width ∧ i ≠ 0 ∧ i ∉ j.passedParts) ∧
    (∀ i < k.width, i = 0 ∨ i ∈ k.passedParts) ∧ (job 0x0F00).phase ≠ .comparing ∧ ({ j with ended := true } : Job).ended = true ∧
    engine.st = .running ∧ engine.job = some 1 ∧ ({ j with entry := { j.entry with customer := true } } : Job).entry.customer = true ∧
    (up.toBlock.wale 0).st ≠ .running ∧ (up.toBlock.wale 0).levelOn = false ∧ engine.levelOn = true ∧
    ({ engine with job := none } : Wale).job = none := by
  refine ⟨by decide +kernel, rfl, rfl, by decide, ⟨1, by decide⟩, ?_⟩
  decide +kernel
/-- Crossbar: a wale with its one lock, and without; a DMA channel with one and with two; a target at, below and above the one held; 1 and 64 beats; a lock
with one and with two beats left; a round with a free target, of nobody and of two requesters. -/
theorem meets_Crossbar :
    let l (r : Fin 26) (n : Nat) : Lock := ⟨r, n, 0⟩
    let b (ls : List (Nat × Lock)) : Block := { up.toBlock with quads := [(0, { up.toBlock.quad 0 with locks := ls })] }
    let limit (r : Fin 26) := if r.val < 20 then 1 else 2
    limit 19 ≤ ((b [(3, l 19 2)]).lockTargets 0 19).length ∧ ((b [(3, l 20 2)]).lockTargets 0 20).length < limit 20 ∧
    limit 20 ≤ ((b [(3, l 20 2), (5, l 20 1)]).lockTargets 0 20).length ∧
    ((b []).lockTargets 0 19).length < limit 19 ∧ (∃ x ∈ (b [(3, l 20 2)]).lockTargets 0 20, 3 ≤ x) ∧ (∀ x ∈ (b [(3, l 20 2)]).lockTargets 0 20, x < 4) ∧
    1 ≤ 64 ∧ 64 ≤ 64 ∧ (∀ x ∈ [(3, l 20 2)], x.1 ≠ 4) ∧ [(3, l 20 2)].find? (fun l => l.1 == 3) = some (3, l 20 2) ∧ 1 < (l 20 2).beats ∧ (l 20 1).beats ≤ 1 ∧
    (b []).contenders 0 4 [] = [] ∧ (b []).contenders 0 4 [⟨4, some 64, false⟩, ⟨3, none, true⟩] ≠ [] ∧
    (((b []).contenders 0 4 [⟨4, some 64, false⟩, ⟨3, none, true⟩]).map (·.req)).Nodup := by decide +kernel

/-! ### DMA, the host link and the registers -/

/-- A read of 64 bytes under way on channel 3 for job 1, its one request unanswered. -/
def fetch : Xfer := { job := 1, buf := .input, addr := 0x9000, len := 64, asked := [(0x9000, 64)], slice := 1 }
/-- The same as a write. -/
def store : Xfer := { fetch with write := true, buf := .output }
/-- Channel 3 with a transfer, of a job that takes its input. -/
def moving (x : Xfer) : State := { up with
  chans := [(3, { xfer := some x })], jobs := [{ job 0x0F00 with phase := .loading, haveIn := false }], wales := [(0, { st := .warm, job := some 1 })] }
/-- A record of it. -/
def record (cause : Byte) : DmaRec := ⟨0, 0x8003, cause, false, 0, false, false, 64, 0x9000, 1, 0, .input, 1⟩

/-- The 64 bytes arrive and the job runs; a completion nobody awaits is reported. -/
theorem test_read_completion : (ran (.dmaReadCompletion 3 (.data (zeros 64))) (moving fetch)).chans.map (fun c => c.2.xfer.isNone) = [true] ∧
    (ran (.dmaReadCompletion 3 (.data [])) up).link = [.unexpected] := by decide +kernel
/-- A completer abort latches cause 0x02 and halts the channel; a second error sets OVF alone. -/
theorem test_read_error : ((moving { fetch with asked := [(0x9000, 32), (0x9020, 32)] }).toBlock.failXfer 3 0x02 true).chans.map (fun c => (c.2.cause, c.2.halted, c.2.count)) = [(2, true, 1)] := by
  decide +kernel
/-- TIM_NOW_LO latches the upper half; the wrap sets WRAPPED. -/
theorem test_time : (ran .timNowLoRead { up with now := 0x500000007 }).nowHi = 5 ∧ (ran .timeBaseWrap up).wrapped = true := by decide +kernel
/-- A refill of 16 × RATE is capped at BURST × 4,096. -/
theorem test_bucket : ((ran (.tokenBucketRefill 1) { up with slices := [(1, { slice with quota := { rate := 10, burst := 1 }, bucket := 4000 })] }).toBlock.slice 1).bucket
    = 4096 := by decide +kernel
/-- MSIX_UNMASK of a pending vector sends it. -/
theorem test_msix : (ran (.msixUnmask 9) { up with host := { up.host with pba := [9], msixData := [(9, 77)], msixOn := true } }).link = [.msix 9 0 77] := by decide +kernel
/-- DSP_CFG keeps bits 7 to 1 at 0; EVT_STATUS is cleared by ones; a doorbell of 64 bits is ignored. -/
theorem test_registers : (ran (.registerWrite (.bar0 0x6000) false 0xFFFFFFFF) up).dsp.cfg = 0xFFFFFF01 ∧
    (ran (.registerWrite (.bar0 0x2000) false 5) { up with host := { up.host with evtStatus := 0x07 } }).host.evtStatus = 2 ∧
    sq0 (ran (.registerWrite (.bar2 0x2000) true 15) up) = ring ∧ (sq0 (ran (.registerWrite (.bar2 0x2000) false 15) up)).tail = 15 := by decide +kernel

/-- DmaCompletions: a channel at rest, one that awaits nothing, an awaited read of the host, of a streamed message and of a DDR5 object, one that drains, an
awaited write; an object in the page that is retired. -/
theorem meets_DmaCompletions :
    let b := (moving fetch).toBlock
    let o : DdrObject := ⟨1, 5, 64, 0, 7, 2⟩
    (up.toBlock.chan 3).xfer = none ∧ (b.chan 3).xfer = some fetch ∧ ({ fetch with asked := [] } : Xfer).asked = [] ∧ fetch.asked = (0x9000, 64) :: [] ∧
    fetch.write = false ∧ fetch.cause = 0 ∧ ({ fetch with cause := 2 } : Xfer).cause ≠ 0 ∧ fetch.stream = false ∧ ({ fetch with stream := true } : Xfer).stream = true ∧
    fetch.target = 0 ∧ ({ fetch with target := 1 } : Xfer).target ≠ 0 ∧ store.write = true ∧ store.asked = (0x9000, 64) :: [] ∧
    [o].find? (fun o => o.chan == 0 && decide (o.page ≤ 8) && decide (8 < o.page + o.pages)) = some o := by decide +kernel
/-- DmaErrors: a transfer with one and with two requests unanswered, a draining one; an empty and a filled record queue; a record of a job that is gone, that
runs, that was ended with and without transfers open; a cause and none. -/
theorem meets_DmaErrors :
    let b := (moving fetch).toBlock
    let two : Xfer := { fetch with asked := [(0x9000, 32), (0x9020, 32)] }
    let q (r : DmaRec) (j : Job) : Block := { up.toBlock with jobs := [j], quads := [(0, { records := [r] })] }
    let after (r : DmaRec) (j : Job) := (((q r j).modQuad 0 (fun z => { z with records := [] })).drainKept 0).modJob r.job (fun j => { j with dmaOpen := j.dmaOpen - 1 })
    let j : Job := { job 0x0F00 with dmaOpen := 1 }
    (b.chan 3).xfer = some fetch ∧ fetch.cause = 0 ∧ (0x02 : Byte) ≠ 0 ∧ 1 < two.asked.length ∧ fetch.asked.length = 1 ∧ (0x02 : Byte) ≠ 0x06 ∧
    ({ two with cause := 1 } : Xfer).cause ≠ 0 ∧
    (up.toBlock.quad 0).records = [] ∧ ((q (record 2) j).quad 0).records = record 2 :: [] ∧ (after (record 2) { j with id := 5 }).job 1 = none ∧
    ((after (record 2) j).job 1).map (fun j => (j.ended, j.dmaOpen)) = some (false, 0) ∧ (record 2).cause ≠ 0 ∧ (record 0).cause = 0 ∧
    ((after (record 0) { j with ended := true }).job 1).map (fun j => (j.ended, j.dmaOpen)) = some (true, 0) ∧
    ((after (record 0) { j with ended := true, dmaOpen := 2 }).job 1).map (fun j => (j.ended, j.dmaOpen)) = some (true, 1) := by decide +kernel
/-- LinkAndTime: a ring with records not announced and one with none; MSI-X enabled and not; ATS enabled, rings enabled and not halted, a walk that asks for
its translation; a transfer that awaits its translation; an output whose writes have begun and none; no transfer of the slice, nothing of its mailbox to read or
to write; registers that take writes; power. -/
theorem meets_LinkAndTime :
    let c := { compl with ann := 1 }
    let w : Job := { job 0x0F00 with phase := .walking, wales := [], walks := [.input], walkAt := 0x5000 }
    let s : State := { up with jobs := [w], host := { up.host with ats := true } }
    let x : Xfer := { store with len := 128, pieces := [(0x9040, 64)], remain := 64 }
    c.irqEn = true ∧ c.ann ≠ 0 ∧ c.modTime ≠ 0 ∧ compl.ann = 0 ∧ s.host.ats = true ∧ ring.enable = true ∧ ring.halted = false ∧ compl.enable = true ∧
    compl.halted = false ∧ ({ up.host with msixOn := true } : HostIf).msixOn = true ∧ up.host.msixOn = false ∧
    s.toBlock.job 1 = some w ∧ w.phase = .walking ∧ w.walkAsked = false ∧ w.walkTr = false ∧ w.ended = false ∧
    ((moving { fetch with translated := false }).toBlock.chan 3).xfer = some { fetch with translated := false } ∧
    ({ moving x with jobs := [{ job 0x0F00 with desc := { (job 0x0F00).desc with outAddr := 0x9000, outCap := 128 } }] } : State).toBlock.outputBegun 3 1 9 = true ∧ (∀ k < 32, up.toBlock.outputBegun k 1 9 = false) ∧
    (∀ k < 32, ((up.toBlock.chan k).xfer.isNone) = true) ∧ up.jobs = [] ∧ (up.toBlock.slice 1).mbx.toRead = none ∧ (up.toBlock.slice 1).mbx.toWrite = none ∧
    ({ slice.mbx with toWrite := some (0x7000, zeros 16, zeros 16) } : Mbx).toWrite = some (0x7000, zeros 16, zeros 16) ∧
    up.toBlock.takesWrites = true ∧ up.boot.coreUp = true := by decide +kernel
/-- RegisterWrites: a device without power and one that takes writes; offsets at the ends of the ranges named; GO set and clear on frames of the codes named and
of one no table lists; each size code; a page closed and open; a doorbell; the base of ring 0, enabled, and of ring 1, not. -/
theorem meets_RegisterWrites :
    let b := up.toBlock
    let with_ (n : Nat) : Block := { b with admin := { b.admin with window := [(0, 3), (2, BitVec.ofNat 8 n)] } }
    State.reset.toBlock.takesWrites = false ∧ b.takesWrites = true ∧ (0x6130 : BitVec 16).toNat = 0x6130 ∧ (0x613F : BitVec 16).toNat < 0x6140 ∧
    (0x6FFF : BitVec 16).toNat < 0x7000 ∧ 0x1800 ≤ (0x1800 : BitVec 16).toNat ∧ (0x1FFC : BitVec 16).toNat < 0x2000 ∧ (0x1FFC : BitVec 16).toNat % 4 = 0 ∧
    (0x3800 + 32 * 31 : BitVec 16).toNat = 0x3800 + 32 * (31 : ChanId).val ∧ (0x80000000 : W64).getLsbD 31 = true ∧
    (∀ n ∈ [0x01, 0x11, 0x32, 0x52, 0x84, 0xFF], ((with_ n).frame none).1 = BitVec.ofNat 16 n ∧ ((with_ n).frame none).2.dma = false ∧
      ((with_ n).frame none).2.version = 3) ∧ (1 : W64).getLsbD 0 = true ∧ (0 : W64).getLsbD 0 = false ∧ (with_ 0xFF).takesGo none = true ∧
    (served 0xFF ((with_ 0xFF).frame none).2 { toBlock := with_ 0xFF }).isNone = true ∧ (10 : W64).toNat % 8 = 2 ∧ (5 : W64).toNat % 8 = 5 ∧
    (0x2100 : BitVec 23).toNat / 8192 = (1 : SliceId).val ∧ b.pageOpen 1 = true ∧ b.pageOpen 2 = false ∧ (0x203F : BitVec 23).toNat % 8192 < 0x40 ∧
    (0x2100 : BitVec 23).toNat % 8192 = 0x100 + 16 * (0 : RingId).val ∧ ((b.slice 1).sq[0]).enable = true ∧ ((b.slice 1).sq[1]).enable = false := by decide +kernel

/-! ### Jobs -/

/-- ResultsArePresented: a running job of class 0 and of class 2, and one whose message still comes; a key that needs space the job has reserved, needs none, or
finds none; a device job with room and without; a result to a handle and to the output; a template that makes a key. -/
theorem meets_ResultsArePresented :
    let k : JobResult := { effects := [.createKey { secret := zeros 32 } true] }
    let full : State := { up with slices := [(1, { slice with quota := { kst := 0 } })] }
    (runs 0x0F00).toBlock.job 1 = some (job 0x0F00) ∧ (job 0x0F00).phase = .running ∧ (job 0x0F00).entry.cls = 0 ∧ (job 0x0200 true).entry.cls ≠ 0 ∧
    (up.toBlock.slice 1).replicated = false ∧ (job 0x0F00).reservedKst = 0 ∧ k.newSpace ≠ 0 ∧ ({} : JobResult).newSpace = 0 ∧
    full.toBlock.keyFits 1 k.newSpace = false ∧ ({ job 0x0100 with reservedKst := 512 } : Job).reservedKst ≠ 0 ∧
    (job 0x0120).desc.toHandle = false ∧ ({ inline := 0x1000000 } : Desc).toHandle = true ∧ (job 0x0F00).passes = 0 ∧
    ({ job 0x0F00 with passes := 1 } : Job).passes ≠ 0 ∧ ({ job 0x0100 with dev := true } : Job).dev = true ∧ up.toBlock.deviceUse + k.newSpace ≤ 512 * 1024 ∧
    ¬ up.toBlock.deviceUse + 512 * 1024 + 1 ≤ 512 * 1024 ∧ up.toBlock.keyUse 1 + up.toBlock.keyReserved 1 + k.newSpace ≤ (up.toBlock.slice 1).quota.kst * 1024 ∧
    (up.toBlock.fromTemplate 1 (le 2 0x100 ++ le 2 4 ++ zeros 60) 0x100 1).isOk = true := by decide +kernel
/-- A job of every opcode named by LatticeSchemeJobs, HashSchemeJobs, ClassicalJobs, SymmetricAndThresholdJobs and PrimitiveAndRandomJobs runs, and is of a
maker entry: family and operation, each at its first parameter set. -/
theorem meets_SchemeJobs :
    (∀ p ∈ [(1, 0), (1, 1), (1, 2), (1, 3), (2, 0), (2, 1), (2, 2), (2, 3), (2, 4), (2, 5), (2, 6), (2, 7), (4, 0), (4, 2), (4, 3), (4, 4), (4, 5), (3, 0), (3, 1),
        (3, 2), (3, 3), (3, 4), (3, 5), (7, 0), (7, 2), (7, 3), (8, 0), (8, 2), (8, 3), (8, 4), (0xA, 0), (0xA, 2), (0xA, 3), (0xA, 4), (0xA, 6), (0xB, 0), (0xB, 1),
        (0xB, 2), (0xB, 3), (0xB, 4), (0xB, 5), (0xB, 6), (0xB, 7), (0xB, 8), (0x12, 0), (0x12, 1), (0x12, 2), (0x12, 3), (0x12, 4), (0x12, 5), (0x12, 6)],
      let op := 256 * p.1 + 16 * p.2
      ((runs op).toBlock.job 1).map (fun j => (j.phase, isOp p.1 p.2 j.op, j.entry.customer)) = some (.running, true, false)) ∧
    (∀ op ∈ [0x500, 0x510, 0x520, 0x530, 0x540, 0x600, 0x610, 0x620, 0x630, 0x640, 0x650, 0x660, 0x900, 0x920, 0x930, 0x940, 0x950, 0x960, 0xC00, 0xC10, 0xD00, 0xD10,
        0xD11, 0xD20, 0xD30, 0xD31, 0xD32, 0xD33, 0xD40, 0xD41, 0xD50, 0xD51, 0x1100, 0x1101, 0x1102, 0x1103, 0x1104, 0x1105, 0x1110, 0x1111, 0xF00, 0xF01, 0xE01],
      ((runs op).toBlock.job 1).map (fun j => (j.phase, only op j.op, j.entry.customer)) = some (.running, true, false)) ∧
    (up.toBlock.job 1) = none ∧ up.toBlock.serves 0 = true ∧ State.reset.toBlock.serves 0 = false := by decide +kernel
/-- The checks on decode of those jobs pass and fail: a template that is missing and one that is whole; a stateful type code that no list has. -/
theorem meets_decode_checks :
    let t : Bytes := le 2 0 ++ le 2 4 ++ zeros 60
    let j : Job := { job 0x0100 with desc := { (job 0x0100).desc with parAddr := 0x4000 }, param := t }
    templateFails (fun j => 0x100 + j.set) 1 up.toBlock j = none ∧
    (templateFails (fun j => 0x100 + j.set) 1 up.toBlock { j with param := le 2 0 ++ le 2 0xFFFF ++ zeros 60 }).isSome = true ∧
    hssShape [] = none ∧ (xmssShape 0x01).isSome = true ∧ xmssShape 0 = none := by decide +kernel
/-- ClassicalJobs: an object that is none of the device's, one removed with what referred to it, an OAEP job without a label, a scalar at each end of its range.
SymmetricAndThresholdJobs: thresholds at the ends of their ranges and beyond, rising identifiers and a repeated one, the least of a list. -/
theorem meets_ClassicalJobs :
    let b : Block := { up.toBlock with ddr := { up.ddr with objects := [⟨1, 5, 64, 0, 7, 2⟩] }, kst := { up.kst with keys := [((handleOf 1 3).toNat, { pkObject := some 5 })] } }
    (up.toBlock.retainedFails { job 0x0820 with object := zeros 48 }) = some (St.inputInvalid, 9) ∧ fld (zeros 48) 0 4 ≠ 0x574F424A ∧
    ((b.absentObject 1 5).ddrObject 1 5).isNone = true ∧ ((b.absentObject 1 5).key (handleOf 1 3)).map (·.pkObject) = some none ∧
    (job 0x0950).desc.parAddr = 0 ∧ rsOk 0 (be 32 1 ++ be 32 (nistN 0 - 1)) = true ∧ rsOk 0 (be 32 1 ++ be 32 (nistN 0)) = false ∧
    rsOk 0 (be 32 0 ++ be 32 1) = false ∧ ({ job 0x1200 with input := [2, 64] } : Job).dealt = (2, 64) ∧ rising [1, 2, 64] = true ∧
    rising [1, 1] = false ∧ lowest [5, 2, 9] = some 2 := by decide +kernel
/-- OneTimeKeys: a key with room below its limit, one at it, and a bottom tree at seven-eighths and before; a pair of wales to spare and none. -/
theorem meets_OneTimeKeys :
    let t : Stateful := { u := 8, c := 8, b := 8, height := 10, levels := 2, bottom := 5 }
    let k : Key := { typ := 0x500, ctr := 70, stateful := some t }
    let j : Job := { job 0x0510 with phase := .loading, oneTime := 8, desc := { (job 0x0510).desc with handle := handleOf 1 3 } }
    let b : Block := { up.toBlock with jobs := [j], kst := { up.kst with keys := [((handleOf 1 3).toNat, k)] } }
    b.job 1 = some j ∧ b.key j.desc.handle = some k ∧ k.stateful = some t ∧ j.phase = .loading ∧ b.awaitsIndex j = true ∧ t.c ≤ j.oneTime ∧
    ({ j with oneTime := 7 } : Job).oneTime < t.c ∧ t.u < (t.trees - 1) * 2 ^ t.bottom + 7 * 2 ^ t.bottom / 8 ∧
    (t.trees - 1) * 2 ^ t.bottom + 7 * 2 ^ t.bottom / 8 ≤ 28 ∧ t.trees * 2 ^ t.bottom < 2 ^ t.height ∧ 1 < t.levels ∧ 2 ^ 5 ≤ 1 * 2 ^ 5 ∧
    up.toBlock.sparePair = true ∧ State.reset.toBlock.sparePair = false := by decide +kernel
/-- ModularPrimitives: operands of 64 bits at the least modulus of full width that is odd, and above 1. -/
theorem meets_ModularPrimitives : ∃ n a b e m elen : Nat, 8 ≤ n ∧ 2 ^ (8 * n - 64) ≤ m ∧ m < 256 ^ n ∧ m % 2 = 1 ∧ 1 < m ∧ a < m ∧ b < m ∧ e < 2 ^ elen ∧
    (primRun .modInv false 0 (8 * n) (be n a) [] (be n m)).toOption.isSome = true :=
  ⟨8, 2, 0, 1, 3, 1, by decide +kernel⟩
/-- MOD_EXP: 2^5 mod 7 = 4; MOD_INV: the inverse of 3 modulo 7 is 5 (worked by hand). -/
theorem test_modular : (primRun .modExp false 8 64 (be 8 2) [5] (be 8 7)).toOption = some (be 8 4) ∧
    (primRun .modInv false 0 64 (be 8 3) [] (be 8 7)).toOption = some (be 8 5) := by
  decide +kernel
/-- A MOD_ADD job answers 2 + 2 mod 3 (Table 4.7 lays the modulus first). -/
theorem test_mod_add_job :
    let j : Job := { job 0x1100 with input := be 8 3 ++ be 8 2 ++ be 8 2, desc := { (job 0x1100).desc with inline := 64 } }
    (ran (.modAdd 1) { up with jobs := [j] }).jobs.map (·.result.out) = [be 8 1] := by decide +kernel
/-- FULL_ENTROPY: a quadrant with a HEALTHY source, one whose sources may come back, one without. -/
theorem meets_FullEntropy : up.toBlock.healthy 0 ≠ 0 ∧ up.toBlock.healthy 1 = 0 ∧ up.toBlock.reviving 1 = false ∧
    ({ up with rng := { up.rng with sources := [(2, { st := .starting })] } } : State).toBlock.reviving 1 = true := by decide +kernel
/-- A job of every opcode of KeyManagementJobs runs; its checks on decode pass and fail: a template that is absent and a type that is none; a counter of the
slice, of nobody, and one at its top; a record that narrows and one that does not. -/
theorem meets_KeyManagementJobs :
    let j (op : Nat) : Job := { job op with desc := { (job op).desc with parAddr := 0x4000 }, param := le 2 0xD00 ++ le 2 1 ++ zeros 22 ++ le 2 32 ++ zeros 36 }
    let k : Key := { typ := 0xD00, usage := 3 }
    (∀ op ∈ [0x1000, 0x1010, 0x1011, 0x1020, 0x1021, 0x1022, 0x1023, 0x1030, 0x1031, 0x1032, 0x1040, 0x1041, 0x1042, 0x1050, 0x1060],
      ((runs op).toBlock.job 1).map (fun j => (j.phase, only op j.op, j.entry.customer)) = some (.running, true, false)) ∧
    (job 0x1000).desc.parAddr = 0 ∧ (j 0x1000).desc.parAddr ≠ 0 ∧ fld (j 0x1000).param 0 2 = 0xD00 ∧ importable 0xD00 = true ∧ importable 0 = false ∧
    secretLen 0xD00 (fld (j 0x1010).param 0x1A 2) = 32 ∧ (j 0x1010).input.length ≠ 32 ∧ up.toBlock.ctrOwner 64 ≠ .slice 1 ∧
    ({ up.toBlock with bat := { up.bat with owners := [(64, .slice 1)] } } : Block).ctrOwner 64 = .slice 1 ∧
    importable 0x0000 = false ∧ publicLen 0xD00 2048 = 0 ∧ up.toBlock.boundTo 64 = false ∧
    ({ up.toBlock with bat := { up.bat with evicted := [64] } } : Block).boundTo 64 = true ∧ (objectFails 1 (up.toBlock.knownAs 1) (zeros 48)).isSome = true ∧
    narrows k (attrBytes k) = true ∧ narrows k (attrBytes { k with usage := 7 }) = false := by decide +kernel
/-- JournalAndSweep: an empty and a filled journal, a store that sweeps and one that does not, a seal that waits and none, an entry that expires; a customer's
job on a wale that has not begun and whose store spells WAIT_WORK. -/
theorem meets_JournalAndSweep :
    let j : Job := { job 0x2000 with entry := { (job 0x2000).entry with customer := true, address := 0x3000 } }
    let x : Wale := { engine with micro := {} }
    let s : State := { with_ x (.waitWork 0) with jobs := [j] }
    up.kst.lag = [] ∧ ({ up.kst with lag := [.policies] } : KeyStore).lag = .policies :: [] ∧ up.boot.coreUp = true ∧ up.toBlock.counter 0 + 1 < 2 ^ 64 ∧
    up.flt.sealing = false ∧ ({ up.flt with sealing := true } : Faults).sealing = true ∧
    up.kst.st ≠ .sweeping ∧ ({ up.kst with st := .sweeping } : KeyStore).st = .sweeping ∧ (tombstones [(5, { expire := true }), (6, {})]).length = 1 ∧
    (job 0x0F00).entry.customer = false ∧ j.entry.customer = true ∧ s.toBlock.job 1 = some j ∧
    j.wales = [0] ∧ j.phase = .running ∧ x.job = some 1 ∧ x.st = .running ∧ x.micro.issuing = false ∧ x.micro.released = none ∧
    (s.toBlock.wale 0).spells 0 (.waitWork 0) = true := by decide +kernel
/-- A customer's run begins at its entry address; JOURNAL_COMMIT advances the epoch; SWEEP_END empties the store. -/
theorem test_journal : (ran .journalCommit { up with kst := { up.kst with lag := [.policies] } }).toBlock.counter 0 = 1 ∧
    (ran .sweepEnd { up with kst := { up.kst with st := .sweeping, keys := [(5, {})] } }).kst.keys = [] ∧
    ((ran (.customerEntry 1) { with_ { engine with micro := {} } (.waitWork 0) with
        jobs := [{ job 0x2000 with entry := { (job 0x2000).entry with customer := true, address := 0x3000 } }] }).toBlock.wale 0).micro.pc = 0x3000 := by
  decide +kernel

/-! ### Mailboxes -/

/-- A DMA frame of the admin mailbox with room for `cap` bytes of response. -/
def dmaFrame (p : Bytes) (cap : Nat) : Req := ⟨none, 3, true, 0, 7, p, p.length, 0x6000, 0x7000, cap, none⟩

/-- What the window holds after an admin command: the response header's status, length and Detail, and the payload's first bytes. -/
def said (c : Instr) (s : State := up) : Nat × Nat × Nat :=
  let w := ((ran c s).admin.window).readAll 0 16
  (fld w 6 2, fld w 8 4, fld w 12 4)

/-- KSTPOL_GET gives KSTPOL_CFG; the header is 16 bytes; DONE sets and ADMIN_DONE is raised. -/
theorem test_mailbox : said (.kstPolicyGet (frame [])) = (0, 4, 0) ∧ ((ran (.kstPolicyGet (frame [])) up).admin.window).readAll 16 2 = [0x7F, 1] ∧
    (ran (.kstPolicyGet (frame [])) up).admin.done = true ∧ (ran (.kstPolicyGet (frame [])) up).host.evtStatus.getLsbD 0 = true := by decide +kernel
/-- A DMA response that does not fit: OUTPUT_TOO_SMALL with the length. -/
theorem test_too_small : said (.kstPolicyGet (dmaFrame [] 3)) = (0x103, 0, 4) := by decide +kernel
/-- A version other than 3, reserved fields, a wrong length: BAD_PARAM, Detail 0; a slice mailbox: BAD_OPCODE. -/
theorem test_mailbox_checks : said (.kstPolicyGet { frame [] with version := 2 }) = (0x101, 0, 0) ∧ said (.kstPolicyGet { frame [] with reserved := 1 }) = (0x101, 0, 0) ∧
    said (.kstPolicyGet (frame [1])) = (0x101, 0, 0) := by decide +kernel
/-- KSTPOL_SET: MIN_ORDER 0 is BAD_PARAM, Detail 0x8A; in DEPLOYED a loosening is KEY_STATE. -/
theorem test_kst_policy : said (.kstPolicySet (frame (le 4 0x07F))) = (0x101, 0, 0x8A) ∧ (ran (.kstPolicySet (frame (le 4 0x200))) up).kst.policy = 0x200 ∧
    said (.kstPolicySet (frame (le 4 0x17F))) { up with otp := { up.otp with lifecycle := .deployed }, kst := { up.kst with policy := 0x200 } } = (0x204, 0, 0) := by
  decide +kernel
/-- SLICE_CREATE picks the lowest FREE slice and says so in Detail; a destroyed slice is FREE. -/
theorem test_slices : said (.sliceCreate (frame (le 4 0xFFFF ++ le 2 0))) = (0, 0, 0) ∧
    ((ran (.sliceCreate (frame (le 4 0xFFFF ++ le 2 0))) up).toBlock.slice 0).st = .quiesced ∧
    said (.sliceResume (frame (le 4 1))) = (0x107, 0, 2) := by decide +kernel
/-- SLICE_SET_SCHED of weight 0: BAD_PARAM, Detail 4. SLICE_SET_VECTORS past 2,048: Detail 6. -/
theorem test_slice_sets : said (.sliceSetSched (frame (le 4 1 ++ [0, 5]))) = (0x101, 0, 4) ∧
    said (.sliceSetVectors (frame (le 4 1 ++ le 2 2047 ++ le 2 2))) { up with slices := [(1, { slice with st := .quiesced })] } = (0x101, 0, 6) := by decide +kernel
/-- WAL_CFG_WRITE of an idle wale takes effect. -/
theorem test_wal_cfg : ((ran (.walCfgWrite (frame (le 4 9 ++ le 4 2))) up).toBlock.wale 9).slotLen = 2 ∧ said (.walCfgRead (frame (le 4 64))) = (0x101, 0, 1) := by
  decide +kernel
/-- DIG_UPDATE without DIG_INIT: BAD_PARAM, Detail 0x70. DIG_INIT of function 1 opens the context. -/
theorem test_digest : said (.digUpdate (frame [1])) = (0x101, 0, 0x70) ∧ ((ran (.digInit (frame [1])) up).toBlock.dig none).st = .active ∧
    said (.digInit (frame [10])) = (0x101, 0, 0) := by decide +kernel
/-- PWR_BIN_SET of bin 5: BAD_PARAM; AGE_CFG_SET with a reserved bit: Detail 0xD0. -/
theorem test_power : said (.pwrBinSet (frame [0, 5])) = (0x101, 0, 0) ∧ said (.ageCfgSet (frame (le 4 2))) = (0x101, 0, 0xD0) ∧
    said (.pwrCfgSet (frame (le 4 0x00BF0000))) = (0x101, 0, 0xD0) := by decide +kernel
/-- FW_COMMIT without a trial: CONTEXT_BUSY; with one, the floor rises to its security version. -/
theorem test_firmware : said (.fwCommit (frame [])) = (0x107, 0, 0) ∧
    (ran (.fwCommit (frame [])) { up with boot := { up.boot with trial := .pendingCommit, trialSlot := some 1, slots := #v[{ valid := true }, ⟨true, 3, 4, []⟩] } }).otp.fwFloor
      = 4 := by decide +kernel
/-- WTYFZ_SET in DEPLOYED does not loosen; RNGCFG_SET with a reserved bit is refused. -/
theorem test_policies : said (.wtyFzPolicySet (frame (le 4 0))) { up with otp := { up.otp with lifecycle := .deployed } } = (0x204, 0, 0) ∧
    said (.rngCfgSet (frame (le 4 0x10000))) = (0x101, 0, 0) ∧ said (.rngRetest (frame (le 4 0))) = (0x107, 0, 0) := by decide +kernel
/-- FLT_UNFENCE of a unit that is not fenced: SUCCESS, Detail 2; of a source number that names none: BAD_PARAM, Detail 1. -/
theorem test_unfence : said (.fltUnfence (frame (le 4 (FUnit.wale 5).source.toNat))) = (0, 0, 2) ∧ said (.fltUnfence (frame (le 4 0xFFFF))) = (0x101, 0, 1) := by decide +kernel
/-- LC_CHALLENGE keeps a nonce; any LC_ command spends it. -/
theorem test_nonce : ((ran (.lcChallenge (frame [])) up).att.nonce.map (·.length)) = some 32 ∧
    (ran (.lcState (frame [])) { up with att := { up.att with nonce := some [1] } }).att.nonce = none := by decide +kernel

/-- MailboxAnswers: an answer below 2^32 bytes; the admin mailbox and a DMA frame; a slice with a rate and without tokens, and one without a rate; each check
failing with those before it passed, and none. -/
theorem meets_MailboxAnswers :
    let c : Cmd := { code := 0x56 }
    let b := up.toBlock
    let boot : Block := { b with boot := { b.boot with ready := false } }
    let poor : Slice := { slice with quota := { slice.quota with rate := 1 }, bucket := 0 }
    let f : Req := { dmaFrame [] 4 with box := some 1 }
    ([] : Bytes).length < 2 ^ 32 ∧ 0 < b.host.mps ∧ (frame []).box = none ∧ (dmaFrame [] 4).dma = true ∧ ([1] : Bytes) ≠ [] ∧
    f.dma = true ∧ f.box = some 1 ∧ poor.quota.rate ≠ 0 ∧ poor.bucket < (min (b.host.mps - f.respAddr.toNat % b.host.mps) 4 : Nat) ∧
    ({ slice with quota := {} } : Slice).quota.rate = 0 ∧ ({ frame [] with version := 4 } : Req).version ≠ 3 ∧
    (frame []).version = 3 ∧ (if (sliceFrame 1 []).box.isNone then c.admin else c.slice) = false ∧ (if (frame []).box.isNone then c.admin else c.slice) = true ∧
    (frame []).readFault = none ∧ ({ frame [] with reserved := 1 } : Req).reserved ≠ 0 ∧ ({ frame [] with declared := 1 } : Req).declared ≠ (frame []).payload.length ∧
    c.len 1 = false ∧ (frame []).reserved = 0 ∧ (frame []).declared = (frame []).payload.length ∧ c.len 0 = true ∧ (frame []).declared ≤ c.most ∧
    (frame []).declared ≤ 2032 ∧ boot.boot.ready = false ∧ b.boot.recovery = false ∧ c.early = false ∧ b.boot.ready = true ∧
    b.stateRefusal (le 4 2) [.active] = some (St.contextBusy, 0) ∧ b.stateRefusal (le 4 1) [.active] = none ∧ b.otp.lifecycle ∈ c.states ∧
    Lifecycle.decommissioned ∉ c.states := by decide +kernel
/-- A frame that passes every check of each kind of command that Submits, Reads, SubmitsWait, SubmitsLc, OnSlice and Checked speak of; one that fails one;
a mailbox that takes no GO. -/
theorem meets_Checked :
    let b := up.toBlock
    let own : List Lifecycle := [.provisioned, .deployed]
    b.takesGo none = true ∧ b.takesGo (some 1) = true ∧ State.reset.toBlock.takesGo none = false ∧ ({ b with admin := { b.admin with busy := true } } : Block).takesGo none = false ∧
    (b.refuses { code := 0x53, len := exactly 4 } (frame []) none).isSome = true ∧
    (∀ x ∈ [(({ code := 0x0001, slice := true, states := anyLife, early := true, recovery := true } : Cmd), frame []),
        ({ code := 0x0002, slice := true, len := exactly 8 }, frame (zeros 8)), ({ code := 0x0010, len := exactly 4 }, frame (zeros 4)),
        ({ code := 0x0011, len := exactly 8 }, frame (zeros 8)), ({ code := 0x0020, states := own, len := fun _ => true }, frame []), ({ code := 0x0021 }, frame []),
        ({ code := 0x0030, len := exactly 6 }, frame (zeros 6)), ({ code := 0x0033, len := exactly 36 }, frame (zeros 36)), ({ code := 0x0037, len := exactly 12 }, frame (zeros 12)),
        ({ code := 0x0050, states := anyLife, early := true }, frame []), ({ code := 0x0055, len := exactly 4, states := own }, frame (zeros 4)),
        ({ code := 0x0057, len := exactly 64 }, frame (zeros 64)), ({ code := 0x0058, len := fun n => decide (4 ≤ n) && n % 2 == 0 && decide (n ≤ 36) }, frame (zeros 36)),
        ({ code := 0x005A, len := exactly 49 }, frame (zeros 49)), ({ code := 0x0101, admin := false, slice := true, len := nonceLen }, sliceFrame 1 (zeros 16)),
        ({ code := 0x0102, admin := false, slice := true, len := fun n => decide (4 ≤ n) && nonceLen (n - 4) }, sliceFrame 1 (zeros 68)),
        ({ code := 0x0109, slice := true, len := fun _ => true }, sliceFrame 1 (zeros 1)), ({ code := 0x010C, slice := true, len := exactly 216 }, frame (zeros 216)),
        ({ code := 0x0120, admin := false, slice := true, len := exactly 52 }, sliceFrame 1 (zeros 52)), ({ code := 0x0122, admin := false, slice := true }, sliceFrame 1 []),
        ({ code := 0x0064, len := exactly 8, states := [.factory, .provisioned] }, frame (zeros 8)), ({ code := 0x0071, len := exactly 64 }, frame (zeros 64)),
        ({ code := 0x0076, states := anyLife }, frame []), ({ code := 0x0077, states := [.provisioned] }, frame []), ({ code := 0x0083, len := exactly 4 }, frame (zeros 4)),
        ({ code := 0x0091, len := fun n => n % 52 == 0 && decide (n ≤ 52 * 4096), states := own }, frame (zeros 52)),
        ({ code := 0x0093, len := exactly 8, states := own }, frame (zeros 8)), ({ code := 0x00A4, states := own }, frame []),
        ({ code := 0x00A5, len := exactly 2, states := own }, frame (zeros 2)), ({ code := 0x00B5, states := anyLife, recovery := true }, frame [])],
      b.refuses x.1 x.2 none = none) := by decide +kernel
/-- The FACTORY commands and the large ones: LC_PROVISION and LC_TRANSITION by DMA, a test pattern, a firmware image. -/
theorem meets_Checked_factory :
    let b : Block := { up.toBlock with otp := { up.otp with lifecycle := .factory } }
    b.refuses { code := 0x0051, states := [.factory], len := exactly 2689 } (dmaFrame (zeros 2689) 0) none = none ∧
    b.refuses { code := 0x0065, len := exactly 8, states := [.factory] } (frame (zeros 8)) none = none ∧
    up.toBlock.refuses { code := 0x0053, len := exactly 7496 } (dmaFrame (zeros 7496) 0) none = none ∧
    up.toBlock.refuses { code := 0x00B1, states := [.provisioned, .deployed], recovery := true, len := fun n => decide (n ≤ 67108864), most := 67108864 }
      (dmaFrame (zeros 64) 0) none = none := by decide +kernel
/-- Answers: a failure, a payload that does not fit, one that does. SubmitsWait: a command that waits and one that is answered. -/
theorem meets_Answers :
    (Reply.fail St.badParam 0).status ≠ St.success ∧ (Reply.ok (zeros 4)).status = St.success ∧ replyRoom (dmaFrame [] 3) < (Reply.ok (zeros 4)).out.length ∧
    (Reply.ok (zeros 4)).out.length ≤ replyRoom (dmaFrame [] 4) ∧ replyRoom (frame []) = 2032 ∧
    ({ up.toBlock with jobs := [{ job 0x2000 with entry := { (job 0x2000).entry with customer := true } }] } : Block).withdrawCustomer.customerRuns = true ∧
    up.toBlock.withdrawCustomer.customerRuns = false ∧ (dmaFrame [1] 4).dma = true ∧ (dmaFrame [1] 4).declared ≠ 0 := by decide +kernel
/-- MailboxReads: a member number; measurement blocks 1, 16 and 0xFD, and 0, 17. -/
theorem meets_MailboxReads :
    ({ up.wty with number := some 0 } : Fabric).number = some 0 ∧ up.boot.rimUp = true ∧ State.reset.boot.rimUp = false ∧ 1 ≤ (1 : Byte).toNat ∧ (16 : Byte).toNat ≤ 16 ∧
    (0 : Byte).toNat = 0 ∧ 16 < (17 : Byte).toNat ∧ (17 : Byte).toNat ≠ 0xFD ∧ (0xFD : Byte).toNat = 0xFD := by decide +kernel
/-- ControlStoreCommands: an image that fails its first check. (One that passes them all must carry the owner's signature, a value no test can know.) -/
theorem meets_ControlStoreCommands : (up.toBlock.imageFails []).isSome = true := by decide +kernel
/-- SliceCommands: a slice that does not quiesce, one that does, before and after it is forced. -/
theorem meets_SliceCommands :
    (up.toBlock.slice 1).st ≠ .quiescing ∧ ({ slice with st := .quiescing } : Slice).st = .quiescing ∧ ({ slice with st := .quiescing } : Slice).forced = false ∧
    ({ slice with st := .quiescing, forced := true } : Slice).forced = true := by decide +kernel
/-- LifecycleAndKeyCommands: a measurement log one short of full, and full. -/
theorem meets_LifecycleAndKeyCommands :
    (List.replicate 1023 (⟨0, 0, [], [], 0⟩ : MeasEvent)).length < 1024 ∧ 1024 ≤ (List.replicate 1024 (⟨0, 0, [], [], 0⟩ : MeasEvent)).length := by decide +kernel
/-- SpdmResponder: no Rim; nothing negotiated, the version, the algorithms and the key exchange agreed, an exchange not finished, a session; a slice that may be
locked, one without a PASID and one bound without; one that may start, and one that may not. -/
theorem meets_SpdmResponder :
    let x : Slice := { slice with st := .quiesced, pasid := some (some 5) }
    let c : SpdmConn := { version := 0x12, algs := true, kex := true }
    State.reset.boot.rimUp = false ∧ up.boot.rimUp = true ∧ (up.toBlock.spdm .doe).algs = false ∧ (up.toBlock.spdm .doe).handshakes = 0 ∧ c.version ≠ 0 ∧
    c.algs = true ∧ c.kex = true ∧ ({ c with handshakes := 1 } : SpdmConn).handshakes ≠ 0 ∧ ({ c with sessions := 1 } : SpdmConn).sessions ≠ 0 ∧ c.sessions = 0 ∧
    (0x11 : Byte) ≠ 0x12 ∧ (0x11 : Byte) ≠ 0x13 ∧ (1 : Byte) ≠ 0 ∧ x.st = .quiesced ∧ x.pasid = some (some 5) ∧ x.tdi = .unlocked ∧
    ({ up.host with ide := 8 } : HostIf).ide.getLsbD (3 : Fin 4) = true ∧ ({} : Slice).pasid = none ∧ slice.pasid = some none ∧
    ({ slice with tdi := .locked } : Slice).tdi = .locked ∧ slice.st = .active ∧ slice.tdi ≠ .locked := by decide +kernel
/-- ProtectionSettings: a policy that loosens nothing. -/
theorem meets_ProtectionSettings : loosens ({} : Policy) {} = false ∧ ({} : Policy).resp[15]? = some Resp.zeroiseSeal := by decide +kernel
/-- FabricPowerAndFirmwareCommands: a trial that waits for its commit, and none. -/
theorem meets_FirmwareCommit :
    up.boot.trial ≠ .pendingCommit ∧ ({ up.boot with trial := .pendingCommit, trialSlot := some 1 } : Boot).trial = .pendingCommit ∧
    ({ up.boot with trial := .pendingCommit, trialSlot := some 1 } : Boot).trialSlot = some 1 := by decide +kernel
/-- SPDM: after the negotiation a key exchange and its FINISH open a session; a stream key needs one. -/
theorem test_spdm :
    let s : State := { up with host := { up.host with doe := { version := 0x12, algs := true, kex := true } } }
    let open_ := ran (.spdmMessage ⟨.doe, false, (.finish true)⟩) (ran (.spdmMessage ⟨.doe, false, (.keyExchange [])⟩) s)
    open_.host.doe.sessions = 1 ∧ (ran (.spdmMessage ⟨.doe, false, (.ideKeyProgram 2)⟩) open_).host.ide = 0 ∧
    (ran (.spdmMessage ⟨.doe, true, (.ideKeyProgram 2)⟩) open_).host.ide = 4 ∧ (ran (.spdmMessage ⟨.mctp, true, (.ideKeyProgram 2)⟩) open_).host.ide = 0 := by decide +kernel
/-- GO submits the frame of the window: KSTPOL_GET answers over it; an unknown code is BAD_OPCODE (R185, R187). -/
theorem test_go :
    let s (code : Byte) : State := { up with admin := { up.admin with window := [(0, 3), (2, code)] } }
    let after (code : Byte) := (ran (.registerWrite (.bar0 0x1000) false 1) (s code)).admin
    ((after 0x56).window.readAll 6 2, (after 0x56).window.readAll 16 2) = (le 2 0, [0x7F, 1]) ∧ (after 0xFF).window.readAll 6 2 = le 2 0x100 ∧
    (after 0x56).done = true := by decide +kernel
/-- QUIESCE_BOUND forces and WEDGE_TIMER wedges; MIG_CANCEL thaws a FROZEN slice. -/
theorem test_slice_timers :
    ((ran (.quiesceBound 1) { up with slices := [(1, { slice with st := .quiescing })], jobs := [job 0x0F00] }).toBlock.slice 1).forced = true ∧
    said (.migCancel (frame (le 4 1))) { up with slices := [(1, { slice with st := .frozen })] } = (0, 0, 0) := by decide +kernel

/-! ### Events -/

/-- The servo steps CODE down by one on 2,113 ones and up on 1,983 (R264); 2,112 is inside the band. -/
theorem test_servo : ((ran (.servoBlock 0 2113) up).toBlock.source 0).code = 511 ∧ ((ran (.servoBlock 0 1983) up).toBlock.source 0).code = 513 ∧
    ((ran (.servoBlock 0 2112) up).toBlock.source 0).code = 512 := by decide +kernel
/-- A conditioned block is held until the windows of its sources end. -/
theorem test_conditioner : (Tab.get [] (ran (.conditionerBlock 0) up).rng.held 0).length = 1 ∧ Tab.get 0 (ran (.conditionerBlock 0) up).rng.blocks 0 = 0 := by
  decide +kernel
/-- A wale DRBG's interval doubles when it is reached before the reseed. -/
theorem test_drbg : ((ran (.drbgIntervalReached 0) { up with wales := [(0, { drbgSeeded := true, drbgWant := true })] }).toBlock.wale 0).drbgLog = 7 := by
  decide +kernel
/-- A normal loop sample clears the run of abnormal ones. -/
theorem test_loop : (ran (.loopSample 0 { nA := 100, inWindow := true } { nA := 100, inWindow := true }) { up with tam := { up.tam with loopRun := Vector.replicate 4 3 } }).tam.loopRun = (Vector.replicate 4 3).set 0 0 := by
  decide +kernel
/-- A battery alarm of a LOG source is recorded with the RTC and sets its sticky flag. -/
theorem test_battery : (ran (.batteryAlarm 9 5) { State.reset with bat := { supplied := true, onVbat := true, rtc := 77 } }).bat.log.map (fun e => (e.rtc, e.detail)) =
    [(77, 5)] ∧ (ran (.batteryAlarm 9 5) { State.reset with bat := { supplied := true, onVbat := true } }).bat.sticky = 0x200 := by decide +kernel
/-- An OTP step that verifies counts the zeroisation. -/
theorem test_otp : (ran (.otpStepWrite true) { up with otp := { up.otp with stepDue := 1 } }).otp.zeroCount = 1 := by decide +kernel
/-- A frame of the expected number and a good tag is taken; the eighth bad one takes the link down. -/
theorem test_frames :
    let s (n : Nat) : State := { up with wty := { ports := (Vector.replicate 4 {}).set 1 { st := .up, role := .down, frame := 5, drops := n } } }
    ((ran (.frameReceive 1 5 true) (s 3)).toBlock.port 1).frame = 6 ∧ ((ran (.frameReceive 1 6 true) (s 3)).toBlock.port 1).drops = 4 := by decide +kernel
/-- PWR_OK low takes the core domain down; JTAG IDCODE is 0xC57405D3 of a 573-C0; a device with power ignores POWER_UP. -/
theorem test_start : (ran .pwrOkFall up).boot.coreUp = false ∧ (ran .idcode up).link = [.jtag 0xC57405D3] := by decide +kernel

/-- RandomnessEvents: a source OFF, STARTING and HEALTHY; the servo's limits, and CODE at a rail for the fifteenth and sixteenth time; 782 and 783 samples of a
value; a start before and after it settled; a unit under test; seeders that serve, are relayed, are not seeded; a DRBG's interval at 8 MiB. -/
theorem meets_RandomnessEvents :
    let src (st : SrcSt) : Source1 := { st := st }
    let b := up.toBlock
    let w : Wale := { drbgSeeded := true }
    (src .off).st ≠ .starting ∧ (src .off).st ≠ .healthy ∧ (4097 : Nat) > 4096 ∧ (b.source 0).st = .healthy ∧ (src .starting).st = .starting ∧ 4096 ≤ 4096 ∧
    (({ src .healthy with code := 1023, rail := 14 } : Source1).rail + 1 < 16) ∧ 16 ≤ ({ src .healthy with code := 1023, rail := 15 } : Source1).rail + 1 ∧
    783 ≤ 783 ∧ 782 < 783 ∧ (src .starting).quiet < 2 ∧ 2 ≤ ({ src .starting with quiet := 2 } : Source1).quiet ∧ Src.noise 0 ∈ [Src.noise 0] ∧
    Src.noise 0 ∉ b.flt.tests ∧ b.rng.pattern = none ∧ ({ b.rng with pattern := some 1 } : Rng).pattern ≠ none ∧
    ({ src .healthy with lastFail := some 500 } : Source1).lastFail = some 500 ∧ b.elapsed 500 < 1000000000 ∧ (src .healthy).lastFail = none ∧
    [0, 1].filter (fun i => (b.source i).st == .healthy) ≠ [] ∧ [2, 3].filter (fun i => (b.source i).st == .healthy) = [] ∧
    b.delivers 0 = true ∧ State.reset.toBlock.delivers 0 = false ∧ (b.seeder 0).st = .seeded ∧ ({ st := .relayed, donor := some 1 } : Seeder).donor = some 1 ∧
    b.flt.fence.has (.seeder 0) = false ∧ (State.reset.toBlock.seeder 0).seeded = false ∧ (State.reset.toBlock.seeder 0).withheld = false ∧
    ({ withheld := true } : Seeder).withheld = true ∧ (b.seeder 0).seeded = true ∧ b.healthy 0 ≠ 0 ∧
    w.drbgSeeded = true ∧ w.drbgWant = false ∧ w.drbgSent = false ∧ ({ w with drbgWant := true, drbgLog := 13 } : Wale).drbgLog < 14 ∧
    ({ w with drbgSent := true } : Wale).drbgSent = true ∧ w.drbgStretch ≠ 0xFFFFFF ∧ b.serves 0 = true ∧ State.reset.toBlock.serves 0 = false ∧
    ([0] : List WaleId).find? (fun _ => true) = some 0 ∧ ([0] : List WaleId).find? (fun _ => false) = none ∧ ([0] : List WaleId).head? = some 0 := by decide +kernel
/-- RandomnessEvents: the further clauses at their bounds. -/
theorem meets_RandomnessEvents_bounds :
    let b := up.toBlock
    let w : Wale := { drbgSeeded := true }
    Tab.get 0 b.rng.blocks 0 = 0 ∧ Tab.get 0 ({ b.rng with blocks := [(0, 2)] } : Rng).blocks 0 ≠ 0 ∧ ¬ b.elapsed 1 ≥ 1000000000 ∧
    b.healthy 2 = 0 ∧ ({ w with drbgWant := true, drbgLog := 14 } : Wale).drbgLog = 14 ∧ ({ w with drbgUrgent := true } : Wale).drbgUrgent = true := by decide +kernel
/-- TamperAndBatteryEvents: fused and armed sources; main power, battery, neither; a reading 8 % away and more; a filter of 2 with a run of 1 and of 2; the ends of
the sensors' numbers; a shadow that agrees and one that does not; deadlines that run; a job whose write is stopped; OTP tries; a device with a zeroised cell. -/
theorem meets_TamperAndBatteryEvents :
    let b := up.toBlock
    let v := up.tam
    ({ up.otp with fused := 2 } : Otp).fused.getLsbD (1 : TamperId) = true ∧ b.watching = true ∧ State.reset.toBlock.watching = false ∧
    ({ up.bat with onVbat := true } : Battery).onVbat = true ∧ ({ v with active := 2 } : Tamper).active.getLsbD 1 = true ∧ Tab.has [(5, (100, 50))] 5 = true ∧
    Tab.get (0, 0) [(5, (100, 50))] 5 = (100, 50) ∧ 100 * (109 - 100) > 8 * 100 ∧ ¬ 100 * (108 - 100) > 8 * 100 ∧ (6 : Fin 7) ≠ 0 ∧ (3 : Fin 4) ≠ 0 ∧
    (1 : Nat) + 1 ≤ 2 ∧ 2 < (2 : Nat) + 1 ∧ b.filterOf 9 < 1 ∧ (1 : TamperId).val < 2 ∧ 8 < (9 : TamperId).val ∧ 2 ≤ (2 : TamperId).val ∧ (8 : TamperId).val ≤ 8 ∧
    ({ v with disarmed := true } : Tamper).disarmed = true ∧ v.disarmed = false ∧ (2 : TamperId) ∈ ([2, 5, 7, 8] : List TamperId) ∧
    (3 : TamperId) ∉ ([2, 5, 7, 8] : List TamperId) ∧ (b.upsetShadow .lifecycle 1).shadowOk .lifecycle = false ∧ (b.upsetShadow .lifecycle 0).shadowOk .lifecycle = true ∧
    v.haltAt = none ∧ ({ v with haltAt := some 5, lineAt := some 5, halted := true } : Tamper).haltAt = some 5 ∧ v.lineAt = none ∧ (b.chan 3).xfer = none ∧
    store.write = true ∧ (up.toBlock.advanceTo 5 1000000).job store.job = none ∧ ({ up.bat with zeroPin := true } : Battery).zeroPin = true ∧ up.bat.zeroPin = false ∧
    up.otp.stepDue = 0 ∧ ({ up.otp with stepDue := 1, tries := 1 } : Otp).stepDue ≠ 0 ∧ ({ up.otp with tries := 1 } : Otp).tries < 2 ∧
    2 ≤ ({ up.otp with tries := 2 } : Otp).tries ∧ b.boot.aonUp = true ∧ State.reset.boot.aonUp = false ∧ onBattery 3 = false ∧ onBattery 4 = true ∧
    up.otp.fused.getLsbD (4 : TamperId) = false ∧ (b.actual (b.respOf 9)).code < 3 ∧ 3 ≤ (b.actual (b.respOf 0)).code := by decide +kernel
/-- TamperAndBatteryEvents: the further clauses at their bounds. -/
theorem meets_TamperAndBatteryEvents_bounds :
    let b := up.toBlock
    let v := up.tam
    (let z : Block := { b with tam := { v with lidRefs := [(5, (100, 50)), (6, (100, 50))], lidNow := [(5, (109, 50)), (6, (108, 54))] } };
      z.pairStrays 5 = true ∧ z.pairStrays 6 = false ∧ (∃ k : Fin 96, z.pairStrays k = true)) ∧ (∀ k : Fin 96, b.pairStrays k = false) ∧
    (∀ k ∈ allShadowed, b.shadowOk k = true) ∧ (∃ k ∈ allShadowed, (b.upsetShadow .lifecycle 1).shadowOk k = false) ∧
    (b.upsetShadow .lifecycle 1).shadowOk .fenceMap = true ∧ (1 : Fin 4) ≠ 0 ∧ v.halted = false ∧ b.flt.halted = false ∧
    ({ v with halted := true } : Tamper).halted = true ∧ v.active.getLsbD 4 = false ∧ v.active.getLsbD 0 = false ∧
    (({ up with jobs := [job 0x0F00] } : State).toBlock.advanceTo 5 1000000).job store.job = some (job 0x0F00) := by decide +kernel
/-- FaultEvents: a device without power; notes with and without a job and a status; merge windows; fences to copy; sources that name a unit and none; a wale that
is scrubbed and one that runs; good and bad parity; a reload's fence record with no source wale and one; PLLs running, stopped, quiet, locked; a log one note
short of full, and full. -/
theorem meets_FaultEvents :
    let b := up.toBlock
    let n : Note := ⟨5, 1, 0x03, 0, 0, 0, 0, 0, 0⟩
    let r : FenceRec := ⟨(FUnit.wale 0).source, 1, 0x03, 1, 0, 1, 0, 0, false⟩
    let f : Block := { b with flt := { b.flt with recs := [((FUnit.wale 0).source.toNat, r)], fence := { wale := 1 } } }
    let quiet : Block := { b with dsp := { b.dsp with warm := Vector.replicate 4 0 } }
    State.reset.boot.aonUp = false ∧ b.boot.aonUp = true ∧ noteStatus 0xFF 0 = none ∧ (noteStatus 0x03 0x101).isSome = true ∧ b.flt.merging = [] ∧ [n] ≠ [] ∧
    b.boot.coreUp = true ∧ State.reset.boot.coreUp = false ∧ b.boot.rimUp = true ∧ b.flt.copyDue = [] ∧ FUnit.ofSource 0 = none ∧
    FUnit.ofSource (FUnit.wale 0).source = some (.wale 0) ∧ engine.st = .running ∧ (b.wale 0).st = .gated ∧
    microParityOk (Tab.get 0 (b.wale 0).ustore 0x3FFF) = true ∧ microParityOk (Tab.get 0 [(0x3FFF, 1)] 0x3FFF) = false ∧
    nanoParityOk (Tab.get 0 (b.wale 0).nstore 2047) = true ∧ nanoParityOk (Tab.get 0 [(2047, 1)] 2047) = false ∧
    (∀ p ∈ b.flt.recs, p.1 ≠ (FUnit.wale 0).source.toNat) ∧
    (f.flt.recs.find? (fun p => p.1 == (FUnit.wale 0).source.toNat)).map (·.2) = some r ∧ r.kind = 0x03 ∧ f.flt.fence.has (.wale 0) = true ∧
    (List.range 64).find? (fun i => i != 0 && f.waleAvail i) = some 1 ∧ f.countNotes (FUnit.wale 0).source 0x03 86400000000000 < 3 ∧
    (State.reset.toBlock.quad 0).pllRun = false ∧ (b.quad 0).pllRun = true ∧ quiet.quiet 0 = true ∧ b.quiet 0 = false ∧ (b.quad 0).binTo = none ∧
    ({ b.quad 0 with binTo := some 2 } : Quad).binTo = some 2 ∧ (b.quad 0).pllLocked = true ∧ (State.reset.toBlock.quad 0).pllLocked = false ∧
    (List.replicate 2047 (1, n)).length < 2048 ∧ (List.replicate 2048 ((1 : W32), n)).length = 2048 ∧ ({ n with cls := 1 } : Note).cls ≠ 0 ∧ n.cls = 0 := by
  decide +kernel
/-- FaultEvents: the further clauses at their bounds. -/
theorem meets_FaultEvents_bounds :
    let b := up.toBlock
    (let c : NoteIn := ⟨(FUnit.chan 3).source, 0x09, 2, 0x300001, 0, some 1, 0⟩;
      ownBuffers c = some 3 ∧ (b.chan 3).xfer = none ∧ ((moving fetch).toBlock.chan 3).xfer ≠ none ∧ ownBuffers { c with detail := 0x040001 } = none ∧
      ownBuffers { c with source := (FUnit.wale 3).source } = none) ∧
    (∀ k : Fin 64, (b.wale k).st = .gated) ∧ microParityOk ((b.wale 0).uword 0x3FFF) = true ∧ nanoParityOk ((b.wale 0).nword 2047) = true ∧
    microParityOk (({ engine with ustore := [(0x3FFF, 1)] } : Wale).uword 0x3FFF) = false ∧ b.storePort 0 = true ∧
    ({ b with flt := { b.flt with fence := { dev := 0x10 } } } : Block).storePort 0 = false := by decide +kernel
/-- FabricLinks: each stage of a port, idle and between two tries; a device isolated, joined under its number, refused; the expected frame and others, the seventh
and the eighth; corrections of 2 and of 3 ns, forward and back; the second and the third good one. -/
theorem meets_FabricLinks :
    let b := up.toBlock
    let d : Bytes := zeros 48
    let m : Block := { b with wty := { b.wty with number := some 0, master := true, plan := [⟨3, d, false⟩] } }
    let x : Port := { st := .up, role := .up, frame := 5 }
    (b.port 0).retryAt = none ∧ (b.port 0).refusedAt = none ∧ b.stopped = false ∧ b.boot.coreUp = true ∧ ({ x with retryAt := some 5 } : Port).retryAt = some 5 ∧
    ({ x with refusedAt := some 5 } : Port).refusedAt = some 5 ∧ (b.port 0).st = .off ∧ ({ x with st := .training } : Port).st = .training ∧ (0 : Fin 4) = 0 ∧ (3 : Fin 4) ≠ 0 ∧
    ({ x with st := .auth } : Port).st = .auth ∧ ({ x with st := .keys } : Port).st = .keys ∧ ({ x with st := .join, role := .down } : Port).st = .join ∧
    ([5] : List (BitVec 12)).contains 5 = true ∧ m.wty.isolated.contains 5 = false ∧ m.wty.master = true ∧ ({ x with role := .alt } : Port).role = .alt ∧
    ({ x with role := .down } : Port).role = .down ∧ x.role = .up ∧ (m.joinCause d 7).toOption = some 3 ∧ (m.joinCause d 8).toOption = none ∧
    (∀ e ∈ b.wty.plan, e.digest ≠ d) ∧ x.st = .up ∧ (5 : W64) = x.frame ∧ (6 : W64) ≠ x.frame ∧ ({ x with drops := 6 } : Port).drops < 7 ∧
    7 ≤ ({ x with drops := 7 } : Port).drops ∧ ({} : Port).role = .off ∧ ({ x with st := .fenced } : Port).st = .fenced ∧ b.joined = false ∧ m.joined = true ∧
    b.wty.master = false ∧ 2 < ((b.now + 3) - b.now).toNat ∧ 2 < (b.now - (b.now + 3)).toNat ∧ ((b.now + 3) - b.now).toNat < 2 ^ 63 ∧
    2 ^ 63 ≤ ((b.now - 3) - b.now).toNat ∧ ((b.now + 2) - b.now).toNat ≤ 2 ∧ (b.now - (b.now - 2)).toNat ≤ 2 ∧ b.timeLocked = false ∧ b.holdover = false ∧
    b.wty.good < 2 ∧ 2 ≤ ({ b.wty with good := 2 } : Fabric).good ∧ b.wty.holdSince = none ∧ ({ b.wty with holdSince := some 5 } : Fabric).holdSince = some 5 := by
  decide +kernel
/-- FabricLinks: the further clauses at their bounds. -/
theorem meets_FabricLinks_bounds :
    let b := up.toBlock
    let d : Bytes := zeros 48
    let m : Block := { b with wty := { b.wty with number := some 0, master := true, plan := [⟨3, d, false⟩] } }
    let x : Port := { st := .up, role := .up, frame := 5 }
    ({ x with role := .down } : Port).role = .down ∧ m.wty.master = true ∧ x.role ≠ .down ∧
    ({ m.wty with isolated := [5] } : Fabric).isolated.contains 5 = true ∧ 1000000 < ((b.now + 1000001) - b.now).toNat ∧
    ((b.now + 1000000) - b.now).toNat ≤ 1000000 ∧ ((b.linkDown 0).port 0).st ≠ .fenced := by decide +kernel
/-- FabricMembers: a member of the plan, a stranger, a quarantined one; a master, a member, a standby with just more than half of the plan and with half; a
key under lease and none; a notice new and seen; jobs that may be forwarded, are forwarded, are not. -/
theorem meets_FabricMembers :
    let b := up.toBlock
    let x : Port := { st := .up, role := .up, peer := 4, idle := 2 }
    let plan : List PlanEntry := [⟨3, [], false⟩, ⟨4, [], false⟩]
    let m : Block := { b with wty := { b.wty with
      number := some 3, plan := plan, standby := true, eligible := true, lostMaster := true, ports := b.wty.ports.set 0 x, members := [(4, { joined := true })] } }
    let k : Key := { replicated := true, useLimit := 10 }
    let sl : Slice := { slice with replicated := true, spread := true, members := [4] }
    let waiting : Job := { waiting with entry := { waiting.entry with qmem := 7169 } }
    let f : Block := { m with slices := [(1, sl)], jobs := [waiting] }
    (b.port 0).st ≠ .up ∧ (m.port 0).st = .up ∧ b.joined = false ∧ m.joined = true ∧ b.wty.master = false ∧ ({ m.wty with master := true } : Fabric).master = true ∧
    (∀ e ∈ m.wty.plan, e.member ≠ 5) ∧ (∃ e ∈ m.wty.plan, e.member = 4) ∧ ({ joined := true, quarantined := true } : Member).quarantined = true ∧
    (Tab.get {} m.wty.members 4 : Member).quarantined = false ∧ (Tab.get {} m.wty.members 4 : Member).joined = true ∧ (Tab.get {} m.wty.members 5 : Member).joined = false ∧
    (m.port 0).role = .up ∧ m.self = 3 ∧ m.wty.lostMaster = true ∧ b.wty.lostMaster = false ∧ m.wty.standby = true ∧ m.wty.eligible = true ∧ 2 * 1 ≤ m.wty.plan.length ∧
    m.wty.plan.length < 2 * 2 ∧ b.wty.standby = false ∧ m.wty.cutOff = false ∧ ({ m.wty with cutOff := true } : Fabric).cutOff = true ∧
    ({ b with kst := { b.kst with keys := [(5, k)] } } : Block).key 5 = some k ∧ k.underLease = true ∧ b.key 5 = none ∧ sl.replicated = true ∧
    (b.slice 1).replicated = false ∧ (65536 : Nat) ≤ 65536 ∧ sl.members.contains 4 = true ∧ ((4 : BitVec 12), (7 : W64)) ∉ m.wty.seenNotices ∧
    ((4 : BitVec 12), (7 : W64)) ∈ [((4 : BitVec 12), (7 : W64))] ∧ ({ m.wty with fzPolicy := 0 } : Fabric).fzPolicy = 0 ∧ b.job 1 = none ∧
    f.job 1 = some waiting ∧ f.mayForward waiting 0 = true ∧ f.mayForward (job 0x0F00) 0 = false ∧ (job 0x0F00).phase ≠ .forwarded ∧
    ({ waiting with phase := .forwarded } : Job).phase = .forwarded ∧ waiting.ended = false ∧ f.dispatches = true ∧ sl.st = .active ∧ f.usable 1 0 = none ∧
    (f.usable 1 (parseDesc (le 2 0xF00 ++ zeros 62)).opcode).isSome = true := by decide +kernel
/-- FabricMembers: the further clauses at their bounds. -/
theorem meets_FabricMembers_bounds :
    let b := up.toBlock
    let x : Port := { st := .up, role := .up, peer := 4, idle := 2 }
    let plan : List PlanEntry := [⟨3, [], false⟩, ⟨4, [], false⟩]
    let m : Block := { b with wty := { b.wty with
      number := some 3, plan := plan, standby := true, eligible := true, lostMaster := true, ports := b.wty.ports.set 0 x, members := [(4, { joined := true })] } }
    let sl : Slice := { slice with replicated := true, spread := true, members := [4] }
    let waiting : Job := { waiting with entry := { waiting.entry with qmem := 7169 } }
    let f : Block := { m with slices := [(1, sl)], jobs := [waiting] }
    m.upLink = some 0 ∧ b.upLink = none ∧ (1 : Fin 4) ≠ 0 ∧ b.wty.fzPolicy ≤ 3 ∧ ({ m.wty with fzPolicy := 3 } : Fabric).fzPolicy = 3 ∧
    (65537 : Nat) > 65536 ∧ ({ m.wty with committing := true } : Fabric).committing = true ∧ b.dispatches = true ∧
    (let d := parseDesc (le 2 0xF00 ++ zeros 26 ++ le 4 64 ++ le 8 0x1000 ++ zeros 24);
      f.admitCheck 1 (job 0x0F00).entry d = none ∧ f.admitCheck 1 (job 0x0F00).entry { d with outCap := 0 } = some (St.badParam, 0xA0) ∧
      ({ f with flt := { f.flt with fence := { wale := 0xFFFFFFFFFFFFFFFF } } } : Block).admitCheck 1 (job 0x0F00).entry d = some (St.resourceFenced, 1)) := by decide +kernel
/-- PowerAndAgeing: a rail that moves and one at rest, a reading 5 mV off and 6; a poll 10 mV off in time and 11 late; the third and the fourth bad poll; currents
above the limit; temperatures at and above 105 °C; bins wanted; targets planned, ready and not; calibrations, runs, and an AGE_MARGIN fence. -/
theorem meets_PowerAndAgeing :
    let b := up.toBlock
    let p := up.pwr
    let hot : Tjs := { rim := 1051 }
    let r : FenceRec := ⟨(FUnit.wale 0).source, 1, 0x0E, 1, 0, 1, 0, 0, false⟩
    let f : Block := { b with flt := { b.flt with recs := [((FUnit.wale 0).source.toNat, r)], fence := { wale := 1 } } }
    let t : Block := { b with wales := [(0, { age := { planned := some 700, target := 700 } })] }
    p.moving = false ∧ ({ p with moving := true } : Power).moving = true ∧ 805 ≤ p.rail + 5 ∧ p.rail ≤ 795 + 5 ∧ p.rail + 5 < 806 ∧ 794 + 5 < p.rail ∧
    State.reset.boot.rimUp = false ∧ b.boot.rimUp = true ∧ ¬ (p.rail + 10 < 810) ∧ p.rail + 10 < 811 ∧ 200000 ≤ b.elapsed p.commandedAt ∧
    ({ p with retries := 2 } : Power).retries < 3 ∧ 3 ≤ ({ p with retries := 3 } : Power).retries ∧ p.overSince = none ∧ ({ p with overSince := some 5 } : Power).overSince = some 5 ∧
    b.boot.coreUp = true ∧ State.reset.boot.coreUp = false ∧ 10500000 < Tjs.hottest hot * 10000 - (p.vout * p.iout : Nat) ∧
    Tjs.hottest ({ rim := 1050 } : Tjs) * 10000 - (p.vout * p.iout : Nat) ≤ 10500000 ∧ p.coolSince = none ∧ ({ p with coolSince := some 5, derated := true } : Power).derated = true ∧
    p.derated = false ∧ (b.quad 0).binWant ≠ some 2 ∧ ({ b.quad 0 with binWant := some 2 } : Quad).binWant = some 2 ∧ (b.quad 0).binTo = none ∧ (b.quad 0).bin ≤ 2 ∧
    (b.wale 0).age.planned = none ∧ (t.wale 0).age.planned = some 700 ∧ t.railReady 0 = true ∧ t.idle 0 = true ∧ t.waleAvail 0 = true ∧ (t.wale 0).age.running = false ∧
    b.railReady 0 = false ∧ (b.wale 0).age.calibrating = false ∧ ({ calibrating := true } : Ageing).calibrating = true ∧ (b.wale 0).job = none ∧ (b.wale 0).st = .gated ∧
    ({ running := true } : Ageing).running = true ∧ b.marginFence 0 = false ∧ f.marginFence 0 = true ∧ 835 ≤ b.reach ∧ b.reach < 836 ∧
    ({ index := 950 } : Ageing).index ≤ 950 ∧ 950 < ({ index := 951 } : Ageing).index := by decide +kernel
/-- PowerAndAgeing: the further clauses at their bounds. -/
theorem meets_PowerAndAgeing_bounds :
    let b := up.toBlock
    let p := up.pwr
    let t : Block := { b with wales := [(0, { age := { planned := some 700, target := 700 } })] }
    ({ b.quad 0 with bin := 3 } : Quad).bin > 2 ∧ p.avsLost = false ∧ ({ p with avsLost := true } : Power).avsLost = true ∧
    (t.wale 0).age.planned ≠ none ∧ (∀ k : Fin 16, (b.wale k).age.planned = none ∧ (b.wale k).age.calibrating = false) := by decide +kernel
/-- StartsAndResets: a device without power, with it, sealed, held by JTAG; each edge of PWR_OK and PERST_N; a watchdog before DEV_READY; training; each end of the
journal's read; R377 met and not; slices wedged and not; wipes and transfers after an FLR; the third and the fourth restart of the Rim. -/
theorem meets_StartsAndResets :
    let off := State.reset.toBlock
    let b := up.toBlock
    let boot : Block := { b with boot := { b.boot with ready := false }, kst := { b.kst with st := .locked } }
    let f : BootFacts := ⟨true, 0, 0, 0, true, true, true, 0, 0, true, false, true, true, false⟩
    off.boot.aonUp = false ∧ b.boot.aonUp = true ∧ f.rootValid = true ∧ off.bat.otpPending = 0 ∧ off.flt.sealed = false ∧ off.flt.sealing = false ∧
    off.otp.lifecycle = .factory ∧ b.bat.rootKey.isSome = true ∧ ({ b.bat with zeroised := true } : Battery).zeroised = true ∧ b.boot.pwrOk = true ∧
    ({ b.flt with sealed := true } : Faults).sealed = true ∧ ({ b.boot with jtagHeld := true } : Boot).jtagHeld = true ∧ b.boot.jtagHeld = false ∧
    (b.beforeReset true).flt.sealed = false ∧ b.flt.sealed = false ∧ b.boot.ready = true ∧ off.boot.coreUp = false ∧ b.boot.interrupted = false ∧
    boot.boot.coreUp = true ∧ boot.boot.ready = false ∧ boot.boot.recovery = false ∧ boot.boot.trial = .none ∧ off.boot.pwrOk = false ∧
    b.ddr.fitted[(0 : Fin 2)] = 0 ∧ ({ b.ddr with fitted := #v[1024, 0] } : Ddr).fitted[(0 : Fin 2)] ≠ 0 ∧ b.ddr.trained[(0 : Fin 2)] = false ∧
    b.kst.st ≠ .locked ∧ boot.kst.st = .locked ∧ boot.boot.rimUp = true ∧ boot.otp.lifecycle = .provisioned ∧ boot.bat.zeroised = false ∧ off.bat.rootKey = none ∧
    boot.bat.rootKey ≠ none ∧ boot.flash.written = false ∧ ({ boot.flash with written := true } : Flash).written = true ∧ (7 : W64).toNat ≠ boot.counter 0 ∧
    (0 : W64).toNat = boot.counter 0 ∧ boot.restoreStore.followEnables.wty.fzPolicy = boot.wty.fzPolicy ∧ boot.evaluate.startMet = false ∧
    ({ boot with kst := b.kst } : Block).evaluate.startMet = true ∧ (∃ x ∈ [((1 : Nat), ({ st := .wedged } : Slice))], x.2.st = .wedged) ∧ (∀ x ∈ b.slices, x.2.st ≠ .wedged) ∧
    b.pwr.dev ≠ .standby ∧ b.host.flrAt = none ∧ ({ b.host with flrAt := some 5 } : HostIf).flrAt = some 5 ∧ (∀ i : Fin 64, (b.wale i).st ≠ .wiping) ∧
    (∃ i : Fin 64, (({ up with wales := [(0, { st := .wiping })] } : State).toBlock.wale i).st = .wiping) ∧ (∀ k : Fin 32, (b.chan k).xfer = none) ∧
    (3 : Nat) ≤ ([1, 2, 3] : List W64).length ∧ ([1, 2] : List W64).length < 3 ∧ b.otp.lifecycle = .provisioned ∧ off.otp.lifecycle ≠ .provisioned ∧
    off.otp.lifecycle ≠ .deployed := by decide +kernel
/-- StartsAndResets: the further clauses at their bounds. -/
theorem meets_StartsAndResets_bounds :
    let off := State.reset.toBlock
    let b := up.toBlock
    let boot : Block := { b with boot := { b.boot with ready := false }, kst := { b.kst with st := .locked } }
    let f : BootFacts := ⟨true, 0, 0, 0, true, true, true, 0, 0, true, false, true, true, false⟩
    off.flt.sealed = false ∧ (b.checkRoot f).bat.otpPending = 0 ∧ ({ b.flt with sealing := true } : Faults).sealing = true ∧
    ({ b.boot with interrupted := true } : Boot).interrupted = true ∧ ({ boot.boot with trial := .pending 2 } : Boot).trial = .pending 2 ∧
    ({ boot.boot with trial := .pendingCommit } : Boot).trial = .pendingCommit ∧ (1 : W64).toNat ≠ boot.counter 0 ∧
    boot.restoreStore.followEnables.kst.policy = boot.kst.policy ∧ boot.restoreStore.followEnables.tam.policy = boot.tam.policy ∧
    (b.beforeReset true).flt.sealed = false ∧ b.pwr.dev = .idle := by decide +kernel
/-- OtpNeverRetreats: fuses blown, and a step from there. ResetValues: coreReset has no hypothesis. -/
theorem meets_OtpNeverRetreats :
    Kept 0xC0 3 254 0x0011 { up with otp := { up.otp with fwFloor := 3, zeroCount := 254, fused := 0x0013 }, pending := [.bypass] } ∧
    (match step { up with pending := [.bypass] } with
      | .next _ => true
      | _ => false) = true := by unfold Kept; decide +kernel

/-! ### Further clauses at their bounds -/

/-- EmptyQueueTicks: each state of the supplies; steering that gathers a whole nanosecond forward, back, and just none; a link up and none. -/
theorem meets_EmptyQueueTicks :
    let g (phase rate : Int) : Int := ({ up.wty with phase := phase, rate := rate } : Fabric).phase + ({ up.wty with phase := phase, rate := rate } : Fabric).rate
    State.reset.boot.coreUp = false ∧ State.reset.boot.aonUp = false ∧ State.reset.bat.supplied = false ∧
    ({ State.reset.bat with supplied := true } : Battery).supplied = true ∧ up.boot.coreUp = true ∧ up.flt.fencesDue = [] ∧
    (∀ p : PortId, (up.toBlock.port p).st ≠ .up) ∧ 1000000000 ≤ g 999900000 100000 ∧ ¬ 1000000000 ≤ g 999899999 100000 ∧
    g (-999900000) (-100000) ≤ -1000000000 ∧ ¬ g (-999899999) (-100000) ≤ -1000000000 := by decide +kernel
/-- LatticeUnary, HashEngines, BigNumberOperations, JobMicrowords: objects inside their spans; the permutations of SHAKE256 (rate 136) at 135 bytes and 136, padded
and squeezed past one rate, and of SHA-2; a job on one wale, and on two of which the other has drawn. -/
theorem meets_Engines_more :
    let e (mode : Nat) (n : Nat) (padded : Bool) (out : Nat) : HashEng :=
      { ({} : HashEng) with mode := mode, data := zeros n, padded := padded, out := out }
    let two : State := { micro (.snop 0) with
      jobs := [{ job 0x0F00 with wales := [0, 1] }], wales := [(0, engine), (1, { engine with micro := { engine.micro with drawn := zeros 8 } })] }
    (engine.inSpan (engine.micro.o[(1 : Fin 16)]) 0 2048).toOption = some () ∧
    (e 2 135 false 0).rate = 136 ∧ (e 2 135 false 0).permutations = 0 ∧ (e 2 136 false 0).permutations = 1 ∧ (e 2 136 true 136).permutations = 2 ∧
    (e 2 136 true 137).permutations = 3 ∧ (e 6 200 true 0).permutations = 0 ∧ (job 0x0F00).wales = [0] ∧ (job 0x0F00).width ≤ 1 ∧
    (micro (.snop 0)).toBlock.partWales 1 0 = [0] ∧ (two).toBlock.job 1 = some { job 0x0F00 with wales := [0, 1] } ∧ (1 : WaleId) ≠ 0 ∧
    engine.micro.drawn.length + 8 ≤ (two.toBlock.wale 1).micro.drawn.length := by decide +kernel
/-- DescriptorFetching, DmaCompletions: 767 host reads outstanding and 768; a halted ring whose read has failed; the mask of the unexpected completion. -/
theorem meets_Tags :
    let reads (n : Nat) : Xfer := { fetch with asked := List.replicate n (0x9000, 64) }
    let full (n : Nat) : Block := { up.toBlock with chans := (List.range 31).map (fun c => (c, { xfer := some (reads 24) })) ++ [(31, { xfer := some (reads n) })] }
    (full 23).readsOut = 767 ∧ (full 23).tagFree = true ∧ (full 24).readsOut = 768 ∧ (full 24).tagFree = false ∧
    ({ ring with halted := true } : Sq).busy = false ∧ ({ ring with halted := true } : Sq).halted = true ∧ ring.halted = false ∧
    (0x10000 : W32).getLsbD 16 = true ∧ up.host.aerMask.getLsbD 16 = false := by decide +kernel
/-- PromotionAndReservation: a job that some wale would fit but for a partner, engines or memory, and one that none would. SpillAndRestore: a part with one
wale left to copy and with none. -/
theorem meets_Reservation_more :
    let j : Job := { waiting with entry := { waiting.entry with wales := 2 } }
    let s : State := { up with dsp := { up.dsp with cfg := 0x40082500 }, jobs := [j], wales := (List.range 64).map (fun i => (i, if i = 0 then { st := .warm } else { st := .running, job := some 2 })) }
    s.toBlock.job 1 = some j ∧ s.toBlock.anyFit j = false ∧ (∃ w < 64, s.toBlock.fitsElse j w = true) ∧
    (∀ w < 64, s.toBlock.fitsElse { j with slice := 5 } w = false) ∧ s.toBlock.fenceDue (.quad 0) = false ∧
    ({ up with jobs := [{ job 0x0F00 with wales := [0, 1] }], wales := [(0, { engine with st := .spilling }), (1, { engine with st := .spilling })] } : State).toBlock.partWales 1 0
      = [0, 1] ∧ ({ job 0x0F00 with spare := 1 } : Job).spare ≠ 0 ∧ (job 0x0F00).spare = 0 := by decide +kernel
/-- WaleSleepsAndWakes: a PLL that runs, one that does not, one that locks; a quiet quadrant; a bin to reach. -/
theorem meets_Plls :
    let b := up.toBlock
    let quiet : Block := { b with dsp := { b.dsp with warm := Vector.replicate 4 0 } }
    (State.reset.toBlock.quad 0).pllRun = false ∧ (b.quad 0).pllRun = true ∧ quiet.quiet 0 = true ∧ b.quiet 0 = false ∧ (b.quad 0).binTo = none ∧
    ({ b.quad 0 with binTo := some 2 } : Quad).binTo = some 2 ∧ (b.quad 0).pllLocked = true ∧ (State.reset.toBlock.quad 0).pllLocked = false := by decide +kernel
/-- LinkAndTime: 31 invalidations outstanding and 32. ResultsArePresented: a job with pages and without, and with a message still to come. -/
theorem meets_Invalidations :
    (∃ b : Block, b.host.invalsOut < 32) ∧ up.host.invalsOut < 32 ∧
    (∃ h : HostIf, 32 ≤ h.invalsOut) ∧ ({ job 0x0F00 with pages := [1792] } : Job).pages ≠ [] ∧ (job 0x0F00).pages = [] := by
  refine ⟨⟨up.toBlock, by decide +kernel⟩, by decide +kernel, ?_, by decide, rfl⟩
  exact ⟨{ up.host with invals := (List.range 32).map (fun k => (1, BitVec.ofNat 52 k, 0)) }, by decide +kernel⟩

/-- PrimitiveAndRandomJobs: a quadrant with two conditioned blocks and one with none; MailboxAnswers: a wedged slice; MigrationCommands and
LifecycleAndKeyCommands: a seeder that delivers and none, the lowest-numbered first. -/
theorem meets_Draws :
    let none : Block := { up.toBlock with rng := {} }
    Tab.get 0 ({ up.rng with blocks := [(0, 2)] } : Rng).blocks 0 = 2 ∧ Tab.get 0 up.rng.blocks 0 = 0 ∧ ({ slice with st := .wedged } : Slice).st = .wedged ∧
    (∀ q < 4, none.delivers q = false) ∧ none.drawDevice 32 = Option.none ∧ (up.toBlock.drawDevice 32).isSome = true ∧ up.toBlock.delivers 0 = true ∧
    (∀ k < 0, up.toBlock.delivers k = false) ∧ up.toBlock.stateRefusal (le 4 2) [.free] = Option.none ∧
    up.toBlock.stateRefusal (le 4 1) [.free] = some (St.contextBusy, 2) ∧ statefulType 0x500 = true ∧ statefulType 0x100 = false ∧
    up.toBlock.freeCounter.isSome = true := by decide +kernel
/-- KeyManagementJobs: a counter that an evicted key is bound to, a resident key, a job that loads one, a job that is to load one; and a counter of none. -/
theorem meets_BoundCounters :
    let k : Key := { bound := true, ctr := 70 }
    let j : Job := { job 0x1031 with desc := { (job 0x1031).desc with inline := 70 } }
    70 ∈ ({ up.bat with evicted := [70] } : Battery).evicted ∧ (∃ p ∈ [(5, k)], p.2.bound = true ∧ p.2.ctr.toNat = 70 ∧ p.2.tombstone = false) ∧
    (∃ h x, Effect.loadKey h x ∈ ({ effects := [.loadKey 5 k] } : JobResult).effects ∧ x.bound = true ∧ x.ctr.toNat = 70) ∧ j.op = 0x1031 ∧ j.granted = true ∧
    up.toBlock.boundTo 70 = false := by
  refine ⟨by decide, ⟨_, .head _, by decide, by decide, by decide⟩, ⟨5, { bound := true, ctr := 70 }, .head _, rfl, by decide⟩, by decide, by decide, by decide +kernel⟩
/-- ControlStoreCommands: a reload whose fence the escalation holds, and one it does not. -/
theorem meets_Reload :
    let r (held : Bool) : FenceRec := ⟨(FUnit.wale 0).source, 1, 0x03, 1, 0, 1, 0, 0, held⟩
    let b (held : Bool) : Block := { up.toBlock with flt := { up.flt with recs := [((FUnit.wale 0).source.toNat, r held)], fence := { wale := 1 } } }
    (∀ h, ((b h).flt.recs.find? (fun p => p.1 == (FUnit.wale (0 : WaleId).val).source.toNat)).map (·.2) = some (r h) ∧ (r h).kind = 0x03 ∧
      (b h).flt.fence.has (.wale 0) = true ∧ (b h).storePort 0 = true) ∧ (r true).held = true ∧ (r false).held = false ∧ (up.toBlock.wale 0).st = .gated := by
  decide +kernel
/-- RandomnessEvents: a relayed seeder with a donor of two and of three blocks, and one whose donor has gone; a start-up test with no pattern; a quadrant whose own
source is HEALTHY again; a seeder that gives nothing. -/
theorem meets_Seeders :
    let s (n : Nat) : Block := { up.toBlock with rng := { up.rng with
      blocks := [(0, n)], seeders := [(0, { st := .seeded, seeded := true }), (2, { st := .relayed, donor := some 0, seeded := true })] } }
    let alone : Block := { up.toBlock with rng := { seeders := [(2, { st := .relayed, donor := some 0, seeded := true })] } }
    ((s 2).seeder 2).st = .relayed ∧ ((s 2).seeder 2).st ≠ .seeded ∧ (s 2).donorFor 2 = some 0 ∧ alone.donorFor 2 = none ∧ Tab.get 0 (s 2).rng.blocks 0 < 3 ∧
    3 ≤ Tab.get 0 (s 3).rng.blocks 0 ∧ (s 2).delivers 2 = true ∧ ((s 2).seeder 0).st = .seeded ∧ (s 2).healthy 0 ≠ 0 ∧ (s 2).seederState 0 = .seeded ∧
    (s 2).rng.pattern = none ∧ State.reset.toBlock.delivers 0 = false := by decide +kernel
/-- TamperAndBatteryEvents: main power, the cell, neither; the Lid's first pair driven high after a step and held low, bridged, and following; a loop of each row of
Table 12.4 and of none; a switch at each bound of Table 12.5; each limit of Table 12.3; a fall of VDD_AON. -/
theorem meets_Sensors :
    let cell : Block := { State.reset.toBlock with bat := { supplied := true, onVbat := true } }
    let x : Block := { up.toBlock with bat := { up.bat with lfsr := 1 } }
    let l : LoopDrive := { nA := 2000 }
    up.toBlock.watching = true ∧ up.toBlock.watched = true ∧ cell.watching = false ∧ cell.watched = true ∧ State.reset.toBlock.watched = false ∧
    x.watched = true ∧ LidLine.wrong true (.held false) = true ∧ LidLine.wrong false .follows = false ∧ Tjs.hottest up.pwr.tj = up.tam.lidTj ∧
    (loopResult { l with foreign := some 3 } l) = (4, 3) ∧ loopResult { l with low := true } l = (2, 0) ∧ loopResult { l with high := true } l = (3, 0) ∧
    loopResult { l with ohms := 999 } { l with ohms := 999 } = (6, 0) ∧ loopResult {} {} = (1, 0) ∧
    loopResult { l with inWindow := true } { l with nA := 1999 } = (0, 0) ∧ loopResult { l with nA := 1999 } { l with inWindow := true } = (5, 0) ∧
    l.inWindow = false ∧ 2000 ≤ l.nA ∧ switchResult false (.ohms 4465) = 1 ∧ switchResult true (.ohms 4935) = 0 ∧ switchResult false (.ohms 8930) = 0 ∧
    switchResult true (.ohms 9870) = 1 ∧ switchResult true (.ohms 999) = 3 ∧ switchResult true (.ohms 50001) = 2 ∧
    outside 2 (.supply 599 2) = true ∧ outside 2 (.supply 600 2) = false ∧ outside 3 (.supply 719 19999) = true ∧ outside 3 (.supply 719 20000) = false ∧
    outside 4 (.supply 2099 0) = true ∧ outside 5 (.clocks 100000 69 16000) = true ∧ outside 6 (.temperature 1501) = true ∧
    outside 7 (.light 40) = false ∧ outside 8 (.canaries [0]) = true ∧ Reading.falls (.supply 719 0) = true ∧
    ({ up.tam with falling := true } : Tamper).falling = true ∧ up.tam.falling = false ∧ up.bat.batch = 0 := by decide +kernel
/-- FaultEvents: a channel whose transfer is read, whose output has gone to the host in part, and whose has not; a job that has ended under an earlier and under a
later note. -/
theorem meets_Notes :
    let b (sent : Bool) : Block := { (moving store).toBlock with jobs := [{ job 0x0F00 with phase := .loading, sent := sent }] }
    let j (m : W64 × W16) : Job := { job 0x0F00 with phase := .waiting, ended := true, noted := some m }
    ((moving fetch).toBlock.chan 3).xfer = some fetch ∧ fetch.write = false ∧ ((b true).chan 3).xfer = some store ∧ store.write = true ∧ store.target = 0 ∧
    ((b true).job store.job).map (·.sent) = some true ∧ ((b false).job store.job).map (·.sent) = some false ∧
    (j (5, 1)).ended = true ∧ (j (5, 1)).phase ≠ .ready ∧ Note.before (4, 9) (5, 1) = true ∧ Note.before (5, 1) (5, 2) = true ∧ Note.before (5, 2) (5, 2) = false ∧
    ((6 : W64) - 5).toNat < 0x4000000000000000 := by decide +kernel
/-- FabricLinks, FabricMembers: a port in JOIN that was refused; one that is up toward a member and toward the master, with an UP link beside it and none; a standby
and none; a stamp with a round trip, behind, ahead and level; a member joined, lost, and neither; a member with a path and without. -/
theorem meets_Fabric_more :
    let down : Port := { st := .up, role := .down, peer := 4 }
    let w : Fabric := { up.wty with number := some 3, ports := (up.wty.ports.set 0 { st := .up, role := .up }).set 1 down, paths := [(5, 1)], standby := true }
    let b : Block := { up.toBlock with wty := w }
    let t (x : SyncStamp) : W64 := x.stamp + BitVec.ofNat 64 (x.roundTrip / 2)
    let x (n : Nat) : SyncStamp := ⟨up.now + BitVec.ofNat 64 n, 1000⟩
    ({ down with st := .join, refusedAt := some 5 } : Port).refusedAt ≠ none ∧ ({ down with st := .join } : Port).refusedAt = none ∧ b.upLink = some 0 ∧
    up.toBlock.upLink = none ∧ b.joined = true ∧ b.wty.master = false ∧ b.wty.standby = true ∧ up.wty.standby = false ∧ (b.port 1).role = .down ∧
    1000000 < (t (x 999501) - b.now).toNat ∧ (t (x 999500) - b.now).toNat ≤ 1000000 ∧ 2 < (t (x 0) - b.now).toNat ∧ 2 < (b.now - t (x 0)).toNat ∧
    2 ^ 63 ≤ (t ⟨b.now - 2000, 1000⟩ - b.now).toNat ∧ (t ⟨b.now - 500, 1000⟩ - b.now).toNat ≤ 2 ∧ b.pathTo 4 = some 1 ∧ b.pathTo 5 = some 1 ∧ b.pathTo 9 = none ∧
    (1 : PortId) ≠ 0 ∧ ({ lost := true } : Member).lost = true ∧ ({} : Member).joined = false ∧ ({} : Member).lost = false ∧
    (b.slice 1).st = .active ∧ ({ slice with st := .quiescing } : Slice).st ≠ .active ∧ (job 0x0F00).remote = none := by decide +kernel
/-- PowerAndAgeing: a Tj just inside the limits of Table 12.3 and just outside. StartsAndResets: a seal that waits when PWR_OK falls; a device that a reset
seals. -/
theorem meets_Seals :
    let hot : Tjs := { rim := 1501 }
    let ok : Tjs := { rim := 1500 }
    (1500 < hot.rim) ∧ (∀ k : Fin 64, ok.wales[k] ≤ 1500 ∧ -650 ≤ ok.wales[k]) ∧ ok.rim ≤ 1500 ∧ -650 ≤ ok.kst ∧
    ({ up.flt with sealing := true } : Faults).sealing = true ∧ up.flt.sealing = false ∧
    (({ up.toBlock with flt := { up.flt with sealing := true } } : Block).beforeReset true).flt.sealed = true := by decide +kernel

end Sys2Proof.Tests
end

/-! SUPPORT. The sequencer's registers, flags and return stack (R108), and the reserved values a microword's fetch finds. -/
namespace Sys2Proof.Machine

/-! ### Bits -/

/-- Setting or clearing a bit of a word reaches that bit alone. -/
theorem getLsbD_setBit {n : Nat} (v : BitVec n) (i j : Fin n) (on : Bool) : (setBit v i on).getLsbD j = if j = i then on else v.getLsbD j := by
  have hbit : (1#n <<< i.val).getLsbD j = decide (j = i) := by
    simp only [BitVec.getLsbD_shiftLeft, BitVec.getLsbD_one, Fin.ext_iff]
    grind
  unfold setBit
  cases on with
  | true =>
    simp only [if_true, BitVec.getLsbD_or, hbit]
    grind
  | false =>
    simp only [Bool.false_eq_true, if_false, BitVec.getLsbD_and, BitVec.getLsbD_not, hbit]
    grind

/-! ### Registers and flags -/

/-- Between microwords a write is read back at once, and no other register changes. -/
theorem reg_setReg {x : Wale} (h : x.micro.held = none) (d r : Reg) (v : W64) (t : Bool) :
    (x.setReg d v t).reg r = if r = d then v else x.reg r := by
  simp only [Wale.reg, Wale.seen, Wale.setReg, Micro.regs, h, Option.getD_none, Fin.getElem_fin, Vector.getElem_set, Fin.ext_iff, eq_comm]
/-- Its taint goes with it. -/
theorem regS_setReg {x : Wale} (h : x.micro.held = none) (d r : Reg) (v : W64) (t : Bool) :
    (x.setReg d v t).regS r = if r = d then t else x.regS r := by
  simp only [Wale.regS, Wale.seen, Wale.setReg, Micro.regs, h, Option.getD_none, getLsbD_setBit]
/-- A flag likewise, but for F0, which ignores the write. -/
theorem flag_setFlag {x : Wale} (h : x.micro.held = none) (f g : Reg) (v t : Bool) :
    (x.setFlag f v t).flag g = if g = f ∧ f ≠ 0 then v else x.flag g := by
  by_cases hf : f = 0
  · simp [Wale.setFlag, hf]
  · simp only [Wale.flag, Wale.seen, Wale.setFlag, Micro.regs, h, Option.getD_none, hf, if_false, getLsbD_setBit]
    grind
/-- Its taint goes with it. -/
theorem flagS_setFlag {x : Wale} (h : x.micro.held = none) (f g : Reg) (v t : Bool) :
    (x.setFlag f v t).flagS g = if g = f ∧ f ≠ 0 then t else x.flagS g := by
  by_cases hf : f = 0
  · simp [Wale.setFlag, hf]
  · simp only [Wale.flagS, Wale.seen, Wale.setFlag, Micro.regs, h, Option.getD_none, hf, if_false, getLsbD_setBit]
    grind
/-- A register write reaches no flag, within a microword or between two. -/
@[simp] theorem flag_setReg (x : Wale) (d : Reg) (v : W64) (t : Bool) (f : Reg) : (x.setReg d v t).flag f = x.flag f := by
  unfold Wale.flag Wale.seen
  cases h : x.micro.held <;> simp [Wale.setReg, Micro.regs, h]
/-- The operations of a microword in issue still read what stood when it began (R112). -/
@[simp] theorem reg_setReg_during (x : Wale) (d r : Reg) (v : W64) (t : Bool) : (x.during.setReg d v t).reg r = x.during.reg r := rfl

/-! ### Where the program goes on -/

/-- A program may continue where it may go. -/
theorem goto_ok {x : Wale} {t : BitVec 14} (h : x.mayGo t) : x.goto t = .ok (x.setPc t) := by
  unfold Wale.goto
  exact if_neg (fun ⟨hc, ht⟩ => absurd (h hc) (by omega))
/-- A stack with room takes the next address (R108). -/
theorem push_ok {x : Wale} (h : x.micro.stack.length < 8) :
    x.push = .ok { x with micro := { x.micro with stack := (x.micro.pc + 1) :: x.micro.stack } } := if_neg (by omega)
/-- A full stack takes none (R108). -/
theorem push_full {x : Wale} (h : 8 ≤ x.micro.stack.length) : x.push = .error 0x109 := if_pos h
/-- An empty stack has no address to continue at (R108). -/
theorem pop_empty {x : Wale} (h : x.micro.stack = []) : x.pop = .error 0x109 := by simp [Wale.pop, h]

/-! ### The microwords that run as `Block.micro` -/

/-- A microword of a wale, those with a statement of their own excepted, runs as one operation under the checks of `Block.micro`. -/
theorem exec_of_microword {c : Instr} {w : WaleId} (h : c.microword = some w) (s : State) :
    ∃ f, exec c s = done (s.toBlock.micro w c f) s := by
  unfold Instr.microword at h
  split at h <;> cases h <;> exact ⟨_, rfl⟩

/-! ### Reserved values -/

/-- A word of good parity, and of an EXEC word the nanoword too, is refused at its fetch for a reserved OP, NEXT or SYNC value. -/
theorem fetchFault_of_microReserved {x : Wale} (hp : microParityOk (x.uword x.micro.pc.toNat) = true)
    (hn : bit (x.uword x.micro.pc.toNat).toNat 23 = true ∨ nanoParityOk (x.nword (bits (x.uword x.micro.pc.toNat).toNat 22 12)) = true)
    (hr : microReserved (x.uword x.micro.pc.toNat).toNat = true) : x.fetchFault = some 0x10C := by
  unfold Wale.fetchFault
  obtain hn | hn := hn <;> simp [hp, hn, hr]
/-- The OP values of a SEQ word above 14 are reserved. -/
theorem microReserved_seq {v : Nat} (h : bit v 23 = true) (ho : 14 < bits v 22 18) : microReserved v = true := by
  simp [microReserved, h, ho]
/-- The SYNC values 2 and 3 and the NEXT value 3 of an EXEC word are reserved. -/
theorem microReserved_exec {v : Nat} (h : bit v 23 = false) (ho : 2 ≤ bits v 3 2 ∨ bits v 1 0 = 3) : microReserved v = true := by
  simp only [microReserved, h, Bool.or_eq_true, decide_eq_true_eq, beq_iff_eq, Bool.false_eq_true, if_false]
  exact ho
/-- A word refused at its fetch is a machine check, whatever the operation (R108, R121). -/
theorem exec_of_fetchFault {s : State} {w : WaleId} {c : Instr} {d : W32} (h : c.microword = some w) (hi : s.toBlock.issues w = true)
    (hf : (s.toBlock.wale w).fetchFault = some d) : exec c s = .next (s.to (s.toBlock.machineCheck w d)) := by
  obtain ⟨f, hc⟩ := exec_of_microword h s
  exact hc.trans (micro_bad s w c f d hi hf)

/-! ### CALL, RET and BT F0 -/

/-- BT F0 is an unconditional branch (R108). -/
theorem does_bt_zero {s : State} {w : WaleId} {t : BitVec 14} (h : (s.current w).mayGo t) : Does s w (.bt w 0 t) ((s.current w).setPc t) := by
  intro hi
  have hS : (s.current w).flagS 0 = false := rfl
  have hF : (s.current w).flag 0 = true := rfl
  refine micro_ok hi ?_
  simp [hS, hF, check, Wale.branch, goto_ok h, bind, Except.bind]
/-- A CALL with room pushes the next address and goes to its target. -/
theorem does_call {s : State} {w : WaleId} {t : BitVec 14} (h : (s.current w).mayGo t) (hs : (s.current w).micro.stack.length < 8) :
    let x := s.current w
    Does s w (.call w t) { x with micro := { x.micro with stack := (x.micro.pc + 1) :: x.micro.stack, pc := t } } := by
  intro x hi
  refine micro_ok hi ?_
  rw [push_ok hs]
  exact goto_ok (x := { x with micro := { x.micro with stack := (x.micro.pc + 1) :: x.micro.stack } }) h
/-- A ninth entry is a machine check. -/
theorem checks_call_full {s : State} {w : WaleId} (t : BitVec 14) (hs : 8 ≤ (s.current w).micro.stack.length) : Checks s w (.call w t) 0x109 := by
  intro hi
  refine micro_check hi ?_
  rw [push_full hs]
  rfl
/-- A RET without an entry is a machine check. -/
theorem checks_ret_empty {s : State} {w : WaleId} (hs : (s.current w).micro.stack = []) : Checks s w (.ret w) 0x109 :=
  fun hi => micro_check hi (pop_empty hs)

/-- Settles O4, a lemma for each of its registers: flags, general registers, the return stack, and the reserved values of a word. -/
theorem registersAndFlags : Obligations.RegistersAndFlags := by
  refine ⟨fun x f g v t => ⟨rfl, rfl, fun h => ⟨flag_setFlag h f g v t, flagS_setFlag h f g v t⟩⟩, fun x d r v t => ?_, fun s w t => ?_,
    fun s w c hc hi => ?_⟩
  · exact ⟨fun h => ⟨reg_setReg h d r v t, regS_setReg h d r v t⟩, reg_setReg_during x d r v t, flag_setReg x d v t, rfl, rfl⟩
  · exact ⟨does_bt_zero, does_call, checks_call_full t, checks_ret_empty⟩
  · intro x m bad hp
    exact ⟨fun hseq hop => exec_of_fetchFault hc hi (fetchFault_of_microReserved hp (.inl hseq) (microReserved_seq hseq hop)),
      fun hexec hn hv => exec_of_fetchFault hc hi (fetchFault_of_microReserved hp (.inr hn) (microReserved_exec hexec hv))⟩

end Sys2Proof.Machine

/-! SUPPORT. What a change of one ring leaves of its slice, and what a write to a ring's doorbell or configuration does, case by case (R171, R174, R178,
R182, R184). -/
namespace Sys2Proof.Machine

/-! ### A change of one ring -/

/-- The second of two entries put at one place stands. -/
@[simp] theorem Tab.put_put {α : Type} (t : Tab α) (i : Nat) (x y : α) : Tab.put (Tab.put t i x) i y = Tab.put t i y := by
  induction t with
  | nil => simp [Tab.put]
  | cons p r ih =>
    obtain ⟨k, v⟩ := p
    by_cases hk : k = i
    · simp [Tab.put, hk]
    · by_cases hi : i < k <;> simp [Tab.put, hk, hi, ih]
/-- Two changes of a slice are one. -/
@[simp] theorem Block.modSlice_modSlice (b : Block) (i : Nat) (f g : Slice → Slice) :
    (b.modSlice i f).modSlice i g = b.modSlice i (fun x => g (f x)) := by
  simp [Block.modSlice, Block.slice]
/-- Two changes of a submission ring are one. -/
theorem Block.modSq_modSq (b : Block) (s : Nat) (n : RingId) (f g : Sq → Sq) : (b.modSq s n f).modSq s n g = b.modSq s n (fun q => g (f q)) := by
  simp [Block.modSq]
/-- Two changes of a completion ring are one. -/
theorem Block.modCq_modCq (b : Block) (s : Nat) (n : RingId) (f g : Cq → Cq) : (b.modCq s n f).modCq s n g = b.modCq s n (fun c => g (f c)) := by
  simp [Block.modCq]
/-- A slice after a change of one of its submission rings. -/
@[simp] theorem Block.slice_modSq (b : Block) (s : Nat) (n : RingId) (f : Sq → Sq) :
    (b.modSq s n f).slice s = { b.slice s with sq := (b.slice s).sq.set n (f (b.slice s).sq[n]) } := by
  simp [Block.modSq]
/-- A slice after a change of one of its completion rings. -/
@[simp] theorem Block.slice_modCq (b : Block) (s : Nat) (n : RingId) (f : Cq → Cq) :
    (b.modCq s n f).slice s = { b.slice s with cq := (b.slice s).cq.set n (f (b.slice s).cq[n]) } := by
  simp [Block.modCq]
/-- Of eight rings, setting one leaves every other. -/
theorem getElem_set_other {α : Type} (r : Vector α 8) {n m : RingId} (x : α) (h : m ≠ n) : (r.set n x)[m] = r[m] :=
  Vector.getElem_set_ne _ _ (fun e => h (Fin.ext e.symm))

/-! ### The ring error latch (R184) -/

/-- A message, sent or pending, changes no slice. -/
@[simp] theorem Block.msix_slices (b : Block) (v : Nat) : (b.msix v).slices = b.slices := by
  unfold Block.msix; split <;> rfl
/-- Nor does a slice's vector. -/
@[simp] theorem Block.slice_sliceIrq (b : Block) (s i j : Nat) : (b.sliceIrq s i).slice j = b.slice j := by
  unfold Block.sliceIrq; split <;> simp [Block.slice]

/-- The first error since the latch was cleared is recorded with its time; the latch's interrupt settings stay. -/
theorem latchRing_first {b : Block} {s : Nat} (h : (b.slice s).err.valid = false) (code : Byte) (isCq : Bool) (n : RingId) (index : W16) (a : W64) :
    ((b.latchRing s code isCq n index a).slice s).err =
      { (b.slice s).err with valid := true, code := code, cq := isCq, ring := n, index := index, addr := a, time := b.now } := by
  simp only [Block.latchRing, h, Bool.false_eq_true, if_false]
  split <;> simp
/-- A further error sets OVF alone. -/
theorem latchRing_again {b : Block} {s : Nat} (h : (b.slice s).err.valid = true) (code : Byte) (isCq : Bool) (n : RingId) (index : W16) (a : W64) :
    b.latchRing s code isCq n index a = b.modSlice s (fun x => { x with err := { x.err with ovf := true } }) := if_pos h
/-- Writing 1 to VALID leaves the latch's interrupt settings and nothing else of it. -/
theorem clearLatch_open {b : Block} {s : SliceId} (h : b.pageOpen s = true) :
    b.clearLatch s = b.modSlice s (fun x => { x with err := { irqEn := x.err.irqEn, vector := x.err.vector, mute := x.err.mute } }) :=
  if_neg (by simp [h])

/-! ### Doorbells (R174, R178, log 175) -/

/-- An empty ring consumes nothing. -/
theorem consumes_empty {b : Block} {s : SliceId} {n : RingId} (h : ((b.slice s).sq[n]).head = ((b.slice s).sq[n]).tail) : b.consumes s n = false := by
  simp [Block.consumes, h, -Fin.getElem_fin]
/-- A tail doorbell is ignored in a slice that takes none, and by a ring that is disabled or halted. -/
theorem tailDoorbell_ignored {b : Block} {s : SliceId} {n : RingId} (v : W32)
    (h : b.doorbells s = false ∨ ((b.slice s).sq[n]).enable = false ∨ ((b.slice s).sq[n]).halted = true) : b.tailDoorbell s n v = b :=
  if_pos (by simpa [or_assoc] using h)
/-- An enabled, running ring judges the tail. -/
theorem tailDoorbell_judged {b : Block} {s : SliceId} {n : RingId} (v : W32) (hd : b.doorbells s = true) (he : ((b.slice s).sq[n]).enable = true)
    (hh : ((b.slice s).sq[n]).halted = false) :
    let q := (b.slice s).sq[n]
    let k := 2 ^ q.log2.toNat
    let t := v.toNat % 65536
    b.tailDoorbell s n v = if k ≤ t ∨ (t + k - q.head) % k < (q.tail + k - q.head) % k then b.haltSq s n 0x01 (BitVec.ofNat 16 t) 0
      else (b.modSq s n (fun q => { q with tail := t })).fetch s n :=
  if_neg (by simp [hd, he, hh, -Fin.getElem_fin])
/-- A head doorbell is ignored in a slice that takes none, and by a ring that is disabled or halted. -/
theorem headDoorbell_ignored {b : Block} {s : SliceId} {n : RingId} (v : W32)
    (h : b.doorbells s = false ∨ ((b.slice s).cq[n]).enable = false ∨ ((b.slice s).cq[n]).halted = true) : b.headDoorbell s n v = b :=
  if_pos (by simpa [or_assoc] using h)
/-- An enabled, running ring judges the head. -/
theorem headDoorbell_judged {b : Block} {s : SliceId} {n : RingId} (v : W32) (hd : b.doorbells s = true) (he : ((b.slice s).cq[n]).enable = true)
    (hh : ((b.slice s).cq[n]).halted = false) :
    let c := (b.slice s).cq[n]
    let k := 2 ^ c.log2.toNat
    let h := v.toNat % 65536
    b.headDoorbell s n v = if k ≤ h ∨ (c.tail + k - c.head) % k < (c.tail + k - h) % k then b.haltCq s n 0x05 (BitVec.ofNat 16 h) 0
      else (b.modCq s n (fun c => { c with head := h })).resumeRings s :=
  if_neg (by simp [hd, he, hh, -Fin.getElem_fin])

/-- A tail doorbell's outcome. -/
theorem exec_sqTailDoorbell (s : State) (sl : SliceId) (n : RingId) (v : W32) :
    exec (.sqTailDoorbell sl n v) s = .next (s.to (s.toBlock.tailDoorbell sl n v)) := rfl
/-- A head doorbell's outcome. -/
theorem exec_cqHeadDoorbell (s : State) (sl : SliceId) (n : RingId) (v : W32) :
    exec (.cqHeadDoorbell sl n v) s = .next (s.to (s.toBlock.headDoorbell sl n v)) := rfl

/-- Settles O17, by what each kind of ring does with a doorbell it ignores and with one it judges. That a disabled or halted ring ignores its doorbells
is log 175. -/
theorem doorbells : Obligations.Doorbells := by
  refine ⟨fun s sl n v => ⟨consumes_empty, fun h => ?_, fun hd he hh => ⟨fun hlt hfwd => ?_, fun hbad => ?_⟩⟩,
    fun s sl n v => ⟨fun h => ?_, fun hd he hh => ⟨fun hlt hfwd => ?_, fun hbad => ?_⟩⟩⟩
  · rw [exec_sqTailDoorbell, tailDoorbell_ignored v h]; rfl
  · rw [exec_sqTailDoorbell, tailDoorbell_judged v hd he hh, if_neg (by omega)]
  · rw [exec_sqTailDoorbell, tailDoorbell_judged v hd he hh, if_pos hbad]
  · rw [exec_cqHeadDoorbell, headDoorbell_ignored v h]; rfl
  · rw [exec_cqHeadDoorbell, headDoorbell_judged v hd he hh, if_neg (by omega)]
  · rw [exec_cqHeadDoorbell, headDoorbell_judged v hd he hh, if_pos hbad]

/-! ### Enabling and disabling rings (R171, R182) -/

/-- An enabled submission ring ignores a second enable. -/
theorem sqOn_enabled {b : Block} {s : SliceId} {n : RingId} (cfg : W32) (h : ((b.slice s).sq[n]).enable = true) : b.sqOn s n cfg = b :=
  if_pos (by simp [h, -Fin.getElem_fin])
/-- A submission ring without open entries starts empty, with a legal size and an enabled completion ring. -/
theorem sqOn_starts {b : Block} {s : SliceId} {n : RingId} {cfg : W32} (ho : b.pageOpen s = true) (he : ((b.slice s).sq[n]).enable = false)
    (hn : ((b.slice s).sq[n]).open_ = 0) (hlo : 4 ≤ bits cfg.toNat 20 16) (hhi : bits cfg.toNat 20 16 ≤ 16)
    (hc : ((b.slice s).cq[(Fin.ofNat 8 (bits cfg.toNat 2 0) : RingId)]).enable = true) :
    b.sqOn s n cfg = b.modSq s n (fun q => { q with
      log2 := BitVec.ofNat 5 (bits cfg.toNat 20 16), cq := Fin.ofNat 8 (bits cfg.toNat 2 0), enable := true, head := 0, tail := 0, halted := false,
      tries := 0, busy := false }) := by
  have hlegal : ¬ (bits cfg.toNat 20 16 < 4 ∨ 16 < bits cfg.toNat 20 16) := by omega
  simp only [Block.sqOn, ho, he, hn, Block.slice_modSq, hc, Block.modSq_modSq]
  simp [hlegal]
/-- A disabled submission ring forgets its fetch. -/
theorem sqOff_open {b : Block} {s : SliceId} (n : RingId) (h : b.pageOpen s = true) :
    b.sqOff s n = b.modSq s n (fun q => { q with enable := false, halted := false, tries := 0, busy := false }) := if_neg (by simp [h])
/-- An enabled completion ring takes IRQ_EN alone. -/
theorem cqOn_enabled {b : Block} {s : SliceId} {n : RingId} (cfg : W32) (ho : b.pageOpen s = true) (h : ((b.slice s).cq[n]).enable = true) :
    b.cqOn s n cfg = b.modCq s n (fun c => { c with irqEn := cfg.getLsbD 30 }) := by
  simp [Block.cqOn, ho, h, -Fin.getElem_fin]
/-- A completion ring that awaits no record starts empty, with a legal size and a vector of its slice. -/
theorem cqOn_starts {b : Block} {s : SliceId} {n : RingId} {cfg : W32} (ho : b.pageOpen s = true) (he : ((b.slice s).cq[n]).enable = false)
    (ha : ((b.slice s).cq[n]).a = 0) (hlo : 4 ≤ bits cfg.toNat 20 16) (hhi : bits cfg.toNat 20 16 ≤ 16)
    (hv : bits cfg.toNat 10 0 < (b.slice s).vecCount) :
    b.cqOn s n cfg = b.modCq s n (fun c => { c with
      irqEn := cfg.getLsbD 30, log2 := BitVec.ofNat 5 (bits cfg.toNat 20 16), vector := BitVec.ofNat 11 (bits cfg.toNat 10 0), mute := false,
      enable := true, head := 0, tail := 0, a := 0, halted := false, ann := 0 }) := by
  have hlegal : ¬ (bits cfg.toNat 20 16 < 4 ∨ 16 < bits cfg.toNat 20 16 ∨ (b.slice s).vecCount ≤ bits cfg.toNat 10 0) := by omega
  simp only [Block.cqOn, ho, he, ha, Block.slice_modCq, Block.modCq_modCq]
  simp [hlegal]
/-- A completion ring is disabled once every submission ring bound to it is disabled and idle. -/
theorem cqOff_unneeded {b : Block} {s : SliceId} {n : RingId} (ho : b.pageOpen s = true)
    (h : ∀ m : RingId, ((b.slice s).sq[m]).cq = n → ((b.slice s).sq[m]).enable = false ∧ ((b.slice s).sq[m]).open_ = 0) :
    b.cqOff s n = b.modCq s n (fun c => { c with enable := false, halted := false }) := by
  have hnone : (b.slice s).sq.toList.any (fun q => q.cq == n && (q.enable || q.open_ != 0)) = false := by
    rw [List.any_eq_false]
    intro q hq
    obtain ⟨i, hi, rfl⟩ := Vector.mem_iff_getElem.mp (Vector.mem_toList_iff.mp hq)
    by_cases hcq : ((b.slice s).sq[i]).cq = n
    · obtain ⟨henable, hopen⟩ : ((b.slice s).sq[i]).enable = false ∧ ((b.slice s).sq[i]).open_ = 0 := h ⟨i, hi⟩ hcq
      simp [henable, hopen]
    · simp [hcq]
  simp [Block.cqOff, ho, hnone]

/-- The outcome of an enable of a submission ring. -/
theorem exec_sqEnable (s : State) (sl : SliceId) (n : RingId) (cfg : W32) : exec (.sqEnable sl n cfg) s = .next (s.to (s.toBlock.sqOn sl n cfg)) := rfl
/-- The outcome of a disable of a submission ring. -/
theorem exec_sqDisable (s : State) (sl : SliceId) (n : RingId) : exec (.sqDisable sl n) s = .next (s.to (s.toBlock.sqOff sl n)) := rfl
/-- The outcome of an enable of a completion ring. -/
theorem exec_cqEnable (s : State) (sl : SliceId) (n : RingId) (cfg : W32) : exec (.cqEnable sl n cfg) s = .next (s.to (s.toBlock.cqOn sl n cfg)) := rfl
/-- The outcome of a disable of a completion ring. -/
theorem exec_cqDisable (s : State) (sl : SliceId) (n : RingId) : exec (.cqDisable sl n) s = .next (s.to (s.toBlock.cqOff sl n)) := rfl
/-- The outcome of a write of 1 to VALID. -/
theorem exec_dblErrClear (s : State) (sl : SliceId) : exec (.dblErrClear sl) s = .next (s.to (s.toBlock.clearLatch sl)) := rfl
/-- The block of a machine whose block was replaced. -/
@[simp] theorem State.toBlock_to (s : State) (b : Block) : (s.to b).toBlock = b := rfl

/-- Settles O19: an enable that starts a ring and a disable are one change of that ring, whose other fields and neighbours stay; the latch keeps its first
error. -/
theorem ringConfiguration : Obligations.RingConfiguration := by
  refine ⟨fun s sl n cfg ho => ⟨fun he => ?_, fun he hn hlo hhi hc => ?_, ?_, fun he => ?_, fun he ha hlo hhi hv => ?_, fun hfree => ?_, ?_⟩,
    fun b sl code isCq n index a => ⟨fun h => latchRing_first h .., fun h => latchRing_again h ..⟩⟩
  · rw [exec_sqEnable, sqOn_enabled cfg he]; rfl
  · refine ⟨_, exec_sqEnable s sl n cfg, rfl, ?_⟩
    rw [State.toBlock_to, sqOn_starts ho he hn hlo hhi hc, Block.slice_modSq]
    exact ⟨Vector.getElem_set_self _, fun m => getElem_set_other _ _, rfl, rfl, rfl, rfl⟩
  · rw [exec_sqDisable, sqOff_open n ho]
  · rw [exec_cqEnable, cqOn_enabled cfg ho he]
  · refine ⟨_, exec_cqEnable s sl n cfg, rfl, ?_⟩
    rw [State.toBlock_to, cqOn_starts ho he ha hlo hhi hv, Block.slice_modCq]
    exact ⟨Vector.getElem_set_self _, fun m => getElem_set_other _ _, rfl, rfl⟩
  · rw [exec_cqDisable, cqOff_unneeded ho hfree]
  · rw [exec_dblErrClear, clearLatch_open ho]

end Sys2Proof.Machine

/-! SUPPORT. Facts about conditionals and functions of several arguments that core Lean does not name. -/
namespace Sys2Proof.Machine

/-- Conditionals with equivalent conditions and equal branches are equal. -/
theorem if_congr {α : Sort _} {p q : Prop} [Decidable p] [Decidable q] {x y u v : α} (h : p ↔ q) (hx : x = u) (hy : y = v) :
    (if p then x else y) = if q then u else v :=
  ite_congr (propext h) (fun _ => hx) fun _ => hy
/-- A conditional is one of its branches. -/
theorem ite_eq_or_eq {α : Sort _} (p : Prop) [Decidable p] (x y : α) : (if p then x else y) = x ∨ (if p then x else y) = y := by
  by_cases h : p
  · exact .inl (if_pos h)
  · exact .inr (if_neg h)
/-- Functions of two and of three arguments that agree are equal. -/
theorem funext₂ {α β γ : Sort _} {f g : α → β → γ} (h : ∀ a b, f a b = g a b) : f = g := funext fun a => funext (h a)
theorem funext₃ {α β γ δ : Sort _} {f g : α → β → γ → δ} (h : ∀ a b c, f a b c = g a b c) : f = g := funext fun a => funext₂ (h a)

/-- A proposition that holds is not refuted. -/
theorem not_not_of {p : Prop} (h : p) : ¬ ¬ p := fun hn => hn h

/-! ### The best of a list

A search keeps the member it has until it meets a better one, where "not better" is transitive and two members are not each better than the other. -/

/-- Going through a list and keeping a strictly better one ends at a member that none is better than. -/
theorem foldl_least {α : Type} {better : α → α → Bool} (hasymm : ∀ a c, better a c = true → better c a = false)
    (htrans : ∀ a c d, better a c = false → better c d = false → better a d = false) (l : List α) : ∀ a,
    l.foldl (fun a c => if better a c then c else a) a ∈ a :: l ∧
      ∀ y ∈ a :: l, better (l.foldl (fun a c => if better a c then c else a) a) y = false := by
  have hrefl (a : α) : better a a = false := by
    cases h : better a a with
    | false => rfl
    | true => exact h.symm.trans (hasymm a a h)
  induction l with
  | nil => exact fun a => ⟨List.mem_cons_self, fun y hy => by rw [List.mem_singleton.mp hy]; exact hrefl a⟩
  | cons c r ih =>
    intro a
    rw [List.foldl_cons]
    have hkept : better (if better a c then c else a) a = false ∧ better (if better a c then c else a) c = false := by
      cases h : better a c with
      | true => exact ⟨hasymm a c h, hrefl c⟩
      | false => exact ⟨hrefl a, h⟩
    obtain ⟨hmem, hbest⟩ := ih (if better a c then c else a)
    refine ⟨?_, fun y hy => ?_⟩
    · rcases List.mem_cons.mp hmem with h | h
      · rw [h]
        split
        · exact List.mem_cons_of_mem _ List.mem_cons_self
        · exact List.mem_cons_self
      · exact List.mem_cons_of_mem _ (List.mem_cons_of_mem _ h)
    · have hfirst := hbest _ List.mem_cons_self
      rcases List.mem_cons.mp hy with rfl | hy
      · exact htrans _ _ _ hfirst hkept.1
      rcases List.mem_cons.mp hy with rfl | hy
      · exact htrans _ _ _ hfirst hkept.2
      · exact hbest y (List.mem_cons_of_mem _ hy)
/-- Where the members' places rise, it is the first among equals. -/
theorem foldl_first {α : Type} {better : α → α → Bool} (htrans : ∀ a c d, better a c = false → better c d = false → better a d = false)
    (place : α → Nat) (l : List α) : ∀ a, (a :: l).Pairwise (fun x y => place x < place y) →
    (∀ y ∈ a :: l, better (l.foldl (fun a c => if better a c then c else a) a) y = false) →
    ∀ y ∈ a :: l, better y (l.foldl (fun a c => if better a c then c else a) a) = true ∨
      place (l.foldl (fun a c => if better a c then c else a) a) ≤ place y := by
  induction l with
  | nil => exact fun a _ _ y hy => .inr (by rw [List.mem_singleton.mp hy]; exact Nat.le_refl _)
  | cons c r ih =>
    intro a hrise hbest y hy
    obtain ⟨hac, hcr⟩ := List.pairwise_cons.mp hrise
    rw [List.foldl_cons] at hbest ⊢
    cases h : better a c with
    | true =>
      simp only [h, if_true] at hbest ⊢
      rcases List.mem_cons.mp hy with rfl | hy
      · refine .inl (Bool.of_not_eq_false fun hworse => ?_)
        exact Bool.false_ne_true ((htrans _ _ _ hworse (hbest c (List.mem_cons_of_mem _ List.mem_cons_self))).symm.trans h)
      · exact ih c hcr (fun y hy => hbest y (List.mem_cons_of_mem _ hy)) y hy
    | false =>
      simp only [h, if_false, Bool.false_eq_true] at hbest ⊢
      have hkeep := ih a (List.pairwise_cons.mpr ⟨fun y hy => hac y (List.mem_cons_of_mem _ hy), (List.pairwise_cons.mp hcr).2⟩)
        (fun y hy => hbest y ((List.mem_cons.mp hy).elim (fun h => h ▸ List.mem_cons_self) fun h => List.mem_cons_of_mem _ (List.mem_cons_of_mem _ h)))
      rcases List.mem_cons.mp hy with rfl | hy
      · exact hkeep _ List.mem_cons_self
      rcases List.mem_cons.mp hy with rfl | hy
      · rcases hkeep a List.mem_cons_self with hworse | hle
        · refine .inl (Bool.of_not_eq_false fun hno => ?_)
          exact Bool.false_ne_true ((htrans _ _ _ h hno).symm.trans hworse)
        · exact .inr (Nat.le_trans hle (Nat.le_of_lt (hac y List.mem_cons_self)))
      · exact hkeep y (List.mem_cons_of_mem _ hy)

end Sys2Proof.Machine

/-! SUPPORT. The fused words only ever move one way (R129, R286, R300): what moves them on, and that no command of any part of the machine takes them
back. -/
namespace Sys2Proof.Machine

/-! ### Moving one way -/

/-- Fused words `v` are no step back from `u`: the stepping is the same, the floor has not fallen, a count of zeroisations that is within its byte has not
fallen and stays within it, and what was fused is fused. -/
def Advance (u v : Byte × Nat × Nat × BitVec 16) : Prop :=
  v.1 = u.1 ∧ u.2.1 ≤ v.2.1 ∧ (u.2.2.1 ≤ 255 → u.2.2.1 ≤ v.2.2.1 ∧ v.2.2.1 ≤ 255) ∧ ∀ m, u.2.2.2 &&& m = m → v.2.2.2 &&& m = m

@[simp] theorem Advance.refl (u : Byte × Nat × Nat × BitVec 16) : Advance u u := ⟨rfl, Nat.le_refl _, fun h => ⟨Nat.le_refl _, h⟩, fun _ => id⟩
theorem Advance.trans {u v w : Byte × Nat × Nat × BitVec 16} (h : Advance u v) (k : Advance v w) : Advance u w := by
  obtain ⟨hst, hfl, hz, hf⟩ := h
  obtain ⟨kst, kfl, kz, kf⟩ := k
  refine ⟨kst.trans hst, Nat.le_trans hfl kfl, fun hb => ?_, fun m => kf m ∘ hf m⟩
  obtain ⟨hup, hv⟩ := hz hb
  exact ⟨Nat.le_trans hup (kz hv).1, (kz hv).2⟩
/-- Blocks with the same words are no step back from each other. -/
theorem Advance.of_eq {u v : Byte × Nat × Nat × BitVec 16} (h : v = u) : Advance u v := h ▸ Advance.refl u
/-- A machine whose fused words have moved on keeps what it kept. -/
theorem Kept.advance {st : Byte} {n z : Nat} {f : BitVec 16} {s t : State} (h : Kept st n z f s) (k : Advance s.toBlock.words t.toBlock.words) :
    Kept st n z f t := by
  obtain ⟨hst, hn, hz, hb, hf⟩ := h
  obtain ⟨kst, kfl, kz, kf⟩ := k
  exact ⟨kst.trans hst, Nat.le_trans hn kfl, Nat.le_trans hz (kz hb).1, (kz hb).2, kf f hf⟩

/-- The count rises by `k`, to 255 at most (R303). -/
theorem advance_count (st : Byte) (n z : Nat) (f : BitVec 16) (k : Nat) : Advance (st, n, z, f) (st, n, min 255 (z + k), f) :=
  ⟨rfl, Nat.le_refl _, fun h => ⟨Nat.le_min.mpr ⟨h, Nat.le_add_right z k⟩, Nat.min_le_left _ _⟩, fun _ => id⟩
/-- The floor rises to a committed version (R385). -/
theorem advance_floor (st : Byte) (n z : Nat) (f : BitVec 16) (k : Nat) : Advance (st, n, z, f) (st, max n k, z, f) :=
  ⟨rfl, Nat.le_max_left _ _, fun h => ⟨Nat.le_refl _, h⟩, fun _ => id⟩
/-- Sources are fused beside those that are (R300). -/
theorem advance_fused (st : Byte) (n z : Nat) (f m : BitVec 16) : Advance (st, n, z, f) (st, n, z, f ||| m) := by
  refine ⟨rfl, Nat.le_refl _, fun h => ⟨Nat.le_refl _, h⟩, fun x (hx : f &&& x = x) => ?_⟩
  show (f ||| m) &&& x = x
  rw [← hx]
  ext i
  simp only [BitVec.getElem_and, BitVec.getElem_or]
  cases f[i] <;> simp

/-! ### Shared operations that leave the words -/

@[simp] theorem Block.takeEntries_words (sl : SliceId) (n : RingId) (l : List Bytes) (left : Nat) (b : Block) :
    (Block.takeEntries sl n l left b).words = b.words := by
  induction l generalizing left b with
  | nil => rfl
  | cons e r ih =>
    cases left with
    | zero => rfl
    | succ left => unfold Block.takeEntries; dsimp only; (repeat' split) <;> simp [ih]
@[simp] theorem Block.assignMany_words (b : Block) (scope n : Nat) : (b.assignMany scope n).1.words = b.words := by
  induction n generalizing b with
  | zero => rfl
  | succ n ih => exact (ih _).trans (b.assign_words scope)
@[simp] theorem Block.spdmNegotiate_words {b c : Block} {v : SpdmVia} {sec : Bool} {m : SpdmMsg} (h : b.spdmNegotiate v sec m = some c) :
    c.words = b.words := by
  unfold Block.spdmNegotiate at h
  split at h <;> cases h <;> (repeat' split) <;> simp
/-- What the device-scope job that a DEV_KEY_CREATE makes, or its refusal, leaves. -/
theorem Block.createDevice_words (b : Block) (r : Req) :
    (∀ x, b.createDevice r = .inl x → x.words = b.words) ∧ ∀ y, b.createDevice r = .inr y → y.1.words = b.words := by
  unfold Block.createDevice
  dsimp only
  constructor <;> intro x h <;> split at h <;> cases h
  · split <;> simp
  · rfl

/-- The block a command leaves. -/
theorem done_inj {b : Block} {s t : State} (h : done b s = .next t) : t.toBlock = b := by cases h; rfl

/-! ### What moves them on -/

/-- Pending steps are written at a start (R303). -/
@[simp] theorem advance_writePending {u : Byte × Nat × Nat × BitVec 16} {b : Block} (ok : Bool) (h : Advance u b.words) :
    Advance u (b.writePending ok).words := by
  refine h.trans ?_
  unfold Block.writePending
  (repeat' split) <;> simp
  exact advance_count ..
/-- And before the core domain is reset (R380). -/
@[simp] theorem advance_beforeReset {u : Byte × Nat × Nat × BitVec 16} {b : Block} (commit : Bool) (h : Advance u b.words) :
    Advance u (b.beforeReset commit).words := by
  refine h.trans ?_
  have hcount : Advance b.words ({ b.sweepEnd with
      otp := { b.sweepEnd.otp with zeroCount := min 255 (b.sweepEnd.otp.zeroCount + b.sweepEnd.otp.stepDue), stepDue := 0, tries := 0 } } : Block).spend.words := by
    rw [← b.sweepEnd_words, Block.spend_words]
    exact advance_count ..
  unfold Block.beforeReset
  split
  · rw [foldl_words _ (fun b _ => b.commitOne_words)]; exact hcount
  · exact hcount
@[simp] theorem advance_fullReset {u : Byte × Nat × Nat × BitVec 16} {b : Block} (f : BootFacts) (commit : Bool) (h : Advance u b.words) :
    Advance u (b.fullReset f commit).words := by
  unfold Block.fullReset
  dsimp only
  (repeat' split) <;> simp [h]
@[simp] theorem advance_jtagHold {u : Byte × Nat × Nat × BitVec 16} {b : Block} (ir : JtagIr) (h : Advance u b.words) :
    Advance u (b.jtagHold ir).words := by
  unfold Block.jtagHold
  dsimp only
  (repeat' split) <;> simp [h]
/-- A frame whose command, where it is served, moves the words on moves them on. -/
theorem advance_taken {b : Block} {c : Cmd} {r : Req} {go : Block → Block} (h : ∀ b, Advance b.words (go b).words) :
    Advance b.words (b.taken c r go).words := by
  unfold Block.taken
  dsimp only
  split
  · exact .refl _
  · split
    · split
      · simpa using h (Block.boxReads r.box (r.declared + 1) r.reqAddr r.declared b).1
      · simp
    · exact h b
theorem advance_command {b : Block} {c : Cmd} {r : Req} {body : Block → Block × Reply} (h : ∀ b, Advance b.words (body b).1.words) :
    Advance b.words (b.command c r body).words := by
  unfold Block.command Block.commandIn
  refine advance_taken (fun b => ?_)
  dsimp only
  split
  · simp
  · unfold Block.answer
    (repeat' split) <;> simp [h]

/-! ### The parts of the machine -/

/-- The parts of the machine whose commands are looked at together. -/
inductive Area where
  | rings | wales | jobs | transfers | device | fabric | window | reports | settings | sliceFrames | migration | fabricFrames | lifecycle | waits | fuses
  | starts | microwords

/-- The part a command belongs to. -/
def areaOf : Instr → Area
  | .sqTailDoorbell .. | .cqHeadDoorbell .. | .sqEnable .. | .sqDisable .. | .cqEnable .. | .cqDisable .. | .dblErrClear .. | .descriptorFetch .. |
    .ownRetry .. | .gatherEntryRead .. => .rings
  | .grant .. | .promotion .. | .reservation .. | .preemption .. | .microTrap .. | .spillEnd .. | .wipeEnd .. | .waleWakeEnd .. | .gateDelay .. |
    .coldDelay .. | .pllStop .. | .pllLock .. | .pllLockLoss .. | .compareEnd .. | .cycleLimit .. | .levellerOutOfBand .. | .lockRequest .. |
    .lockTimeout .. | .csScrub .. | .csReloadEnd .. | .arbitrationRound .. | .restoreEnd .. => .wales
  | .mlKemKeygen .. | .mlKemKeygenSeed .. | .mlKemEncaps .. | .mlKemDecaps .. | .mlDsaKeygen .. | .mlDsaKeygenSeed .. | .mlDsaSign .. |
    .mlDsaVerify .. | .mlDsaSignPrehash .. | .mlDsaVerifyPrehash .. | .mlDsaSignMu .. | .mlDsaVerifyMu .. | .fnDsaKeygen .. | .fnDsaSign .. |
    .fnDsaVerify .. | .fnDsaSignPrehash .. | .fnDsaVerifyPrehash .. | .slhDsaKeygen .. | .slhDsaKeygenSeed .. | .slhDsaSign .. | .slhDsaVerify .. |
    .slhDsaSignPrehash .. | .slhDsaVerifyPrehash .. | .hssKeygen .. | .hssSign .. | .hssVerify .. | .lmsVerify .. | .hssState .. | .xmssKeygen .. |
    .xmssmtKeygen .. | .xmssSign .. | .xmssmtSign .. | .xmssVerify .. | .xmssmtVerify .. | .xmssState .. | .hqcKeygen .. | .hqcEncaps .. |
    .hqcDecaps .. | .mcelieceKeygen .. | .mcelieceEncaps .. | .mcelieceDecaps .. | .pkExport .. | .rsaKeygen .. | .rsaSign .. | .rsaVerify .. |
    .encryptOaep .. | .decryptOaep .. | .publicRaw .. | .eccKeygen .. | .ecdsaSign .. | .ecdsaVerify .. | .ecdh .. | .pointValidate .. |
    .keygenEd .. | .keygenX .. | .eddsaSign .. | .eddsaVerify .. | .signCtx .. | .verifyCtx .. | .signPh .. | .verifyPh .. | .xDh .. |
    .combineConcat .. | .combineKdf .. | .kdf108 .. | .hkdfExtract .. | .hkdfExpand .. | .kdf56c .. | .wrapKw .. | .wrapKwp .. | .unwrapKw .. |
    .unwrapKwp .. | .gcmSeal .. | .gcmOpen .. | .ccpSeal .. | .ccpOpen .. | .dealerKeygen .. | .commit .. | .signShare .. | .aggregate .. |
    .frostVerify .. | .fabricSign .. | .shareSend .. | .modAdd .. | .modSub .. | .modMul .. | .modRed .. | .modInv .. | .modExp .. | .ptAdd .. |
    .ptMul .. | .digest .. | .random .. | .fullEntropy .. | .customerEntry .. | .keyGenerate .. | .keyImport .. | .keyImportPublic .. |
    .keyDelete .. | .keyGetAttr .. | .keyExportPublic .. | .keyRestrict .. | .keySeal .. | .keyEvict .. | .keyLoad .. | .ctrAlloc .. | .ctrRead .. |
    .ctrFree .. | .keySync .. | .keySetDefaults .. => .jobs
  | .counterWriteEnd .. | .backgroundTreeGeneration .. | .journalCommit | .journalReadEnd .. | .sweepEnd | .dmaReadCompletion .. |
    .hostReadTimeout .. | .ddr5Timeout .. | .dmaRecordConsume .. | .interruptModeration .. | .msixUnmask .. | .atsTranslation .. |
    .atsInvalidation .. | .timNowLoRead | .timeBaseWrap | .dmaWriteAck .. => .transfers
  | .quiesceBound .. | .wedgeTimer .. | .spdmGetMeasurements .. | .spdmMessage .. | .servoBlock .. | .repetitionCount .. | .proportionWindowEnd .. |
    .startupTestEnd .. | .settlingTimeout .. | .conditionerBlock .. | .seederReseed .. | .seederKat .. | .seederRequest .. | .drbgReseedRequest .. |
    .drbgIntervalReached .. | .drbgReseed .. | .lidASweep .. | .lidBMeasure .. | .loopSample .. | .switchSample .. | .sensorAlarm .. |
    .shadowCompare .. | .haltRecordDeadline | .zeroiseOutputTimeout .. | .tamZeroPulseEnd | .batterySwitch | .batteryReturn | .batteryAlarm .. |
    .xtalFail | .faultNote .. | .mergeWindow | .heartbeat .. | .fenceFlashCopy | .selfTestEnd .. | .sensorAlarmEnd .. => .device
  | .linkStageEnd .. | .linkStageRetry .. | .joinRetry .. | .frameReceive .. | .linkSilence .. | .linkKeyRenewal .. | .linkErrors .. | .syncFrame ..
    | .holdLimit | .keepAlive .. | .memberLost .. | .masterLost | .takeover .. | .quorumLoss .. | .replicationChange .. | .leaseRequest .. |
    .replGrace | .zeroiseNotice .. | .advertisement .. | .spreadWait .. | .forwardedJob .. | .forwardedResult .. | .forwardAbort .. | .pmbusPoll ..
    | .railStep .. | .targetSettle .. | .binChange .. | .thermalSample .. | .derateEnd | .ioutLimit | .calibrationEnd .. | .ageingRunDue .. |
    .ringOscRead .. | .ageingRunEnd .. => .fabric
  | .tokenBucketRefill .. | .registerWrite .. => .window
  | .getVersion .. | .catQuery .. | .walCfgRead .. | .walStatRead .. | .walCsbRead .. | .kstStatus .. | .kstPolicyGet .. | .measRead .. |
    .attestQuote .. | .attestKey .. | .certChain .. | .digInit .. | .digUpdate .. | .digFinal .. | .digSave .. | .digRestore .. | .rngStatus .. |
    .rngCfgGet .. | .tamPolicyGet .. | .tamLogRead .. | .tamLidRead .. | .fltLogRead .. | .fltFenceRead .. | .pwrStatus .. | .pwrCfgGet .. |
    .ageStatus .. | .ageCfgGet .. | .fwStatus .. => .reports
  | .walCfgWrite .. | .kstPolicySet .. | .devKeyGrant .. | .devKeyDelete .. | .measExtend .. | .rngCfgSet .. | .rngRetest .. | .rngRawCapture .. |
    .rngTestPattern .. | .tamPolicySet .. | .tamStickyClear .. | .tamAck .. | .tamLidCal .. | .fltLogClear .. | .pwrCfgSet .. | .pwrStandby .. |
    .pwrBinSet .. | .ageCfgSet .. | .ageRun .. | .fwWrite .. | .fwActivate .. | .fwRevert .. => .settings
  | .sliceCreate .. | .sliceDestroy .. | .sliceQuery .. | .sliceSetQuota .. | .sliceSetSched .. | .sliceSetVectors .. | .sliceBindPasid .. |
    .sliceQuiesce .. | .sliceResume .. | .sliceCounters .. | .migPolicySet .. | .migPolicyGet .. | .sliceState .. => .sliceFrames
  | .migPrepare .. | .migSave .. | .migRestore .. | .migAbandon .. | .migCommit .. | .migUnfreeze .. | .migCancel .. => .migration
  | .wtyStatus .. | .wtyPlanSet .. | .wtyPortCfg .. | .wtyTimeCfg .. | .wtyMemberAdmit .. | .wtyFzPolicySet .. | .wtyFzPolicyGet .. |
    .wtySliceJoin .. | .wtySliceLeave .. | .wtyTakeover .. => .fabricFrames
  | .lcState .. | .lcProvision .. | .lcChallenge .. | .lcTransition .. => .lifecycle
  | .csLoad .. | .csUnload .. | .devKeyCreate .. | .fltUnfence .. | .fltFence .. | .pwrWake .. => .waits
  | .tamFuseDisable .. | .otpStepWrite .. | .fwCommit .. | .devReset .. => .fuses
  | .powerUp .. | .ddr5TrainingEnd .. | .readyIndication | .bootWatchdog .. | .pwrOkFall | .pwrOkRise .. | .sysResetN .. | .perstN .. | .flr .. |
    .flrTimeout .. | .rimRestart .. | .bypass | .idcode | .samplePreload | .extest | .highz | .trstN .. | .perstNRelease .. | .batteryDomainLoss =>
    .starts
  | _ => .microwords

/-! ### The parts whose commands leave the words

Each command's outcome is read off its meaning; what its steps do to the words is said by the lemmas on the shared operations. -/

theorem rings_words {c : Instr} {s t : State} (h : areaOf c = .rings) (he : exec c s = .next t) : t.toBlock.words = s.toBlock.words := by
  cases c <;> cases h <;> cases he <;> dsimp only
  all_goals (repeat' split) <;> simp
theorem wales_words {c : Instr} {s t : State} (h : areaOf c = .wales) (he : exec c s = .next t) : t.toBlock.words = s.toBlock.words := by
  cases c <;> cases h <;> cases he <;> dsimp only
  case arbitrationRound =>
    (repeat' split) <;> simp
    all_goals exact foldl_words _ (fun b x => by (repeat' split) <;> simp) _ _
  all_goals (repeat' split) <;> simp
theorem microwords_words {c : Instr} {s t : State} (h : areaOf c = .microwords) (he : exec c s = .next t) : t.toBlock.words = s.toBlock.words := by
  cases c <;> cases h <;> cases he <;> dsimp only
  all_goals (repeat' split) <;> simp
theorem jobs_words {c : Instr} {s t : State} (h : areaOf c = .jobs) (he : exec c s = .next t) : t.toBlock.words = s.toBlock.words := by
  cases c <;> cases h <;> cases he <;> dsimp only
  case mcelieceEncaps | pkExport | dealerKeygen | keyEvict | keyLoad =>
    refine Block.workWith_words _ _ _ _ _ _ (fun b j d => ?_)
    (repeat' split) <;> simp
  all_goals (repeat' split) <;> simp [foldl_words]
theorem transfers_words {c : Instr} {s t : State} (h : areaOf c = .transfers) (he : exec c s = .next t) : t.toBlock.words = s.toBlock.words := by
  cases c <;> cases h <;> cases he <;> dsimp only
  case atsInvalidation =>
    (repeat' split) <;> simp
    all_goals exact foldl_words _ (fun b x => by (repeat' split) <;> simp) _ _
  all_goals (repeat' split) <;> simp [foldl_words]
theorem device_words {c : Instr} {s t : State} (h : areaOf c = .device) (he : exec c s = .next t) : t.toBlock.words = s.toBlock.words := by
  cases c <;> cases h <;> cases he <;> dsimp only
  case spdmGetMeasurements =>
    (repeat' split) <;> simp
    all_goals rename_i hdraw; exact Block.drawDevice_words hdraw
  case spdmMessage =>
    split
    · rfl
    · split
      · rename_i hneg; exact Block.spdmNegotiate_words hneg
      · (repeat' split) <;> simp
  all_goals (repeat' split) <;> simp [foldl_words]
theorem fabric_words {c : Instr} {s t : State} (h : areaOf c = .fabric) (he : exec c s = .next t) : t.toBlock.words = s.toBlock.words := by
  cases c <;> cases h <;> cases he <;> dsimp only
  all_goals (repeat' split) <;> simp [foldl_words]

/-! ### The mailbox -/

theorem reports_words {c : Instr} {s t : State} (h : areaOf c = .reports) (he : exec c s = .next t) : t.toBlock.words = s.toBlock.words := by
  cases c <;> cases h <;> cases he <;> dsimp only
  case walCfgRead | walStatRead | walCsbRead => exact Block.walRead_words ..
  case digInit | digUpdate | digFinal | digSave | digRestore => exact Block.digCmd_words ..
  all_goals
    refine Block.command_words _ _ _ _ (fun b => ?_)
    (repeat' split) <;> rfl
theorem settings_words {c : Instr} {s t : State} (h : areaOf c = .settings) (he : exec c s = .next t) : t.toBlock.words = s.toBlock.words := by
  cases c <;> cases h <;> cases he <;> dsimp only
  all_goals
    refine Block.command_words _ _ _ _ (fun b => ?_)
    (repeat' split) <;> simp [foldl_words]
theorem sliceFrames_words {c : Instr} {s t : State} (h : areaOf c = .sliceFrames) (he : exec c s = .next t) : t.toBlock.words = s.toBlock.words := by
  cases c <;> cases h <;> cases he <;> dsimp only
  case sliceCreate =>
    refine Block.commandIn_words _ _ _ _ _ (fun b => ?_)
    (repeat' split) <;> simp
  case migPolicySet | migPolicyGet | sliceState =>
    refine Block.ownCmd_words _ _ _ _ _ _ (fun b sl => ?_)
    (repeat' split) <;> simp
  all_goals
    refine Block.sliceCmd_words _ _ _ _ _ _ (fun b sl => ?_)
    (repeat' split) <;> simp [foldl_words]
theorem migration_words {c : Instr} {s t : State} (h : areaOf c = .migration) (he : exec c s = .next t) : t.toBlock.words = s.toBlock.words := by
  cases c <;> cases h <;> cases he <;> dsimp only
  case migPrepare =>
    refine Block.commandIn_words _ _ _ _ _ (fun b => ?_)
    (repeat' split) <;> simp
    rename_i hdraw; exact Block.drawDevice_words hdraw
  case migSave =>
    refine Block.migCmd_words _ _ _ _ _ _ (fun b sl p => ?_)
    (repeat' split) <;> simp
    all_goals rename_i hdraw _; exact Block.drawDevice_words hdraw
  all_goals
    refine Block.migCmd_words _ _ _ _ _ _ (fun b sl p => ?_)
    (repeat' split) <;> simp
theorem fabricFrames_words {c : Instr} {s t : State} (h : areaOf c = .fabricFrames) (he : exec c s = .next t) : t.toBlock.words = s.toBlock.words := by
  cases c <;> cases h <;> cases he <;> dsimp only
  all_goals
    refine Block.wtyCmd_words _ _ _ _ _ (fun b => ?_)
    (repeat' split) <;> simp [foldl_words]
theorem lifecycle_words {c : Instr} {s t : State} (h : areaOf c = .lifecycle) (he : exec c s = .next t) : t.toBlock.words = s.toBlock.words := by
  cases c <;> cases h <;> cases he <;> dsimp only
  all_goals refine Block.lcCmd_words _ _ _ _ (fun b _ => ?_)
  case lcState => rfl
  case lcProvision =>
    (repeat' split) <;> simp
    rename_i hdraw _; exact Block.drawDevice_words hdraw
  case lcChallenge =>
    (repeat' split) <;> simp
    rename_i hdraw; exact Block.drawDevice_words hdraw
  case lcTransition =>
    (repeat' split) <;> simp
theorem waits_words {c : Instr} {s t : State} (h : areaOf c = .waits) (he : exec c s = .next t) : t.toBlock.words = s.toBlock.words := by
  cases c <;> cases h <;> cases he <;> dsimp only
  case devKeyCreate =>
    exact Block.commandWait_words _ _ _ _ _ (fun b => (b.createDevice_words _).1) (fun b => (b.createDevice_words _).2)
  all_goals
    refine Block.commandWait_words _ _ _ _ _ ?_ ?_
    all_goals
      intro b x hx
      (repeat' split at hx) <;> cases hx <;> simp [foldl_words]

/-! ### The commands that move them on -/

theorem fuses_advance {c : Instr} {s t : State} (h : areaOf c = .fuses) (he : exec c s = .next t) : Advance s.toBlock.words t.toBlock.words := by
  cases c <;> cases h <;> cases he <;> dsimp only
  case otpStepWrite =>
    (repeat' split) <;> simp
    exact advance_count ..
  case tamFuseDisable =>
    refine advance_command (fun b => ?_)
    rw [Block.measurePolicies_words]
    exact advance_fused ..
  case fwCommit =>
    refine advance_command (fun b => ?_)
    split
    · exact advance_floor ..
    · exact .refl _
  case devReset =>
    refine advance_taken (fun b => ?_)
    split <;> simp
theorem starts_advance {c : Instr} {s t : State} (h : areaOf c = .starts) (he : exec c s = .next t) : Advance s.toBlock.words t.toBlock.words := by
  cases c <;> cases h <;> cases he <;> dsimp only
  case readyIndication =>
    (repeat' split) <;> simp
    rename_i hdraw
    exact .of_eq ((Block.drawDevice_words hdraw).trans (by simp))
  all_goals (repeat' split) <;> simp

/-! ### A frame written into a window -/

/-- A frame's code is served as its command (R185, R187). -/
theorem served_eq_exec {code : Nat} {r : Req} {s : State} {o : Host.Outcome State Fault Refusal} (h : served code r s = some o) :
    ∃ c, areaOf c ≠ .window ∧ exec c s = o := by
  unfold served at h
  split at h <;> cases h
  · exact ⟨.getVersion r, nofun, rfl⟩
  · exact ⟨.catQuery r, nofun, rfl⟩
  · exact ⟨.walCfgRead r, nofun, rfl⟩
  · exact ⟨.walCfgWrite r, nofun, rfl⟩
  · exact ⟨.walStatRead r, nofun, rfl⟩
  · exact ⟨.walCsbRead r, nofun, rfl⟩
  · exact ⟨.csLoad r 0, nofun, rfl⟩
  · exact ⟨.csUnload r, nofun, rfl⟩
  · exact ⟨.sliceCreate r, nofun, rfl⟩
  · exact ⟨.sliceDestroy r, nofun, rfl⟩
  · exact ⟨.sliceQuery r, nofun, rfl⟩
  · exact ⟨.sliceSetQuota r, nofun, rfl⟩
  · exact ⟨.sliceSetSched r, nofun, rfl⟩
  · exact ⟨.sliceSetVectors r, nofun, rfl⟩
  · exact ⟨.sliceBindPasid r, nofun, rfl⟩
  · exact ⟨.sliceQuiesce r, nofun, rfl⟩
  · exact ⟨.sliceResume r, nofun, rfl⟩
  · exact ⟨.sliceCounters r, nofun, rfl⟩
  · exact ⟨.migPrepare r, nofun, rfl⟩
  · exact ⟨.migSave r, nofun, rfl⟩
  · exact ⟨.migRestore r, nofun, rfl⟩
  · exact ⟨.migAbandon r, nofun, rfl⟩
  · exact ⟨.migCommit r, nofun, rfl⟩
  · exact ⟨.migUnfreeze r, nofun, rfl⟩
  · exact ⟨.migCancel r, nofun, rfl⟩
  · exact ⟨.lcState r, nofun, rfl⟩
  · exact ⟨.lcProvision r, nofun, rfl⟩
  · exact ⟨.lcChallenge r, nofun, rfl⟩
  · exact ⟨.lcTransition r, nofun, rfl⟩
  · exact ⟨.kstStatus r, nofun, rfl⟩
  · exact ⟨.kstPolicySet r, nofun, rfl⟩
  · exact ⟨.kstPolicyGet r, nofun, rfl⟩
  · exact ⟨.devKeyCreate r, nofun, rfl⟩
  · exact ⟨.devKeyGrant r, nofun, rfl⟩
  · exact ⟨.devKeyDelete r, nofun, rfl⟩
  · exact ⟨.measExtend r, nofun, rfl⟩
  · exact ⟨.rngStatus r, nofun, rfl⟩
  · exact ⟨.rngCfgSet r, nofun, rfl⟩
  · exact ⟨.rngCfgGet r, nofun, rfl⟩
  · exact ⟨.rngRetest r, nofun, rfl⟩
  · exact ⟨.rngRawCapture r (s.toBlock.draw 8192), nofun, rfl⟩
  · exact ⟨.rngTestPattern r, nofun, rfl⟩
  · exact ⟨.tamPolicyGet r, nofun, rfl⟩
  · exact ⟨.tamPolicySet r, nofun, rfl⟩
  · exact ⟨.tamFuseDisable r, nofun, rfl⟩
  · exact ⟨.tamStickyClear r, nofun, rfl⟩
  · exact ⟨.tamLogRead r, nofun, rfl⟩
  · exact ⟨.tamLidRead r, nofun, rfl⟩
  · exact ⟨.tamAck r, nofun, rfl⟩
  · exact ⟨.tamLidCal r, nofun, rfl⟩
  · exact ⟨.fltLogRead r, nofun, rfl⟩
  · exact ⟨.fltLogClear r, nofun, rfl⟩
  · exact ⟨.fltFenceRead r, nofun, rfl⟩
  · exact ⟨.fltUnfence r, nofun, rfl⟩
  · exact ⟨.fltFence r, nofun, rfl⟩
  · exact ⟨.wtyStatus r, nofun, rfl⟩
  · exact ⟨.wtyPlanSet r, nofun, rfl⟩
  · exact ⟨.wtyPortCfg r, nofun, rfl⟩
  · exact ⟨.wtyTimeCfg r, nofun, rfl⟩
  · exact ⟨.wtyMemberAdmit r, nofun, rfl⟩
  · exact ⟨.wtyFzPolicySet r, nofun, rfl⟩
  · exact ⟨.wtyFzPolicyGet r, nofun, rfl⟩
  · exact ⟨.wtySliceJoin r, nofun, rfl⟩
  · exact ⟨.wtySliceLeave r, nofun, rfl⟩
  · exact ⟨.wtyTakeover r, nofun, rfl⟩
  · exact ⟨.pwrStatus r, nofun, rfl⟩
  · exact ⟨.pwrCfgSet r, nofun, rfl⟩
  · exact ⟨.pwrCfgGet r, nofun, rfl⟩
  · exact ⟨.pwrStandby r, nofun, rfl⟩
  · exact ⟨.pwrWake r, nofun, rfl⟩
  · exact ⟨.pwrBinSet r, nofun, rfl⟩
  · exact ⟨.ageStatus r, nofun, rfl⟩
  · exact ⟨.ageCfgSet r, nofun, rfl⟩
  · exact ⟨.ageCfgGet r, nofun, rfl⟩
  · exact ⟨.ageRun r, nofun, rfl⟩
  · exact ⟨.fwStatus r, nofun, rfl⟩
  · exact ⟨.fwWrite r, nofun, rfl⟩
  · exact ⟨.fwActivate r, nofun, rfl⟩
  · exact ⟨.fwCommit r, nofun, rfl⟩
  · exact ⟨.fwRevert r, nofun, rfl⟩
  · exact ⟨.devReset r (freeBoot s.rng.draws), nofun, rfl⟩
  · exact ⟨.measRead r, nofun, rfl⟩
  · exact ⟨.attestQuote r, nofun, rfl⟩
  · exact ⟨.attestKey r, nofun, rfl⟩
  · exact ⟨.certChain r, nofun, rfl⟩
  · exact ⟨.digInit r, nofun, rfl⟩
  · exact ⟨.digUpdate r, nofun, rfl⟩
  · exact ⟨.digFinal r, nofun, rfl⟩
  · exact ⟨.digSave r, nofun, rfl⟩
  · exact ⟨.digRestore r, nofun, rfl⟩
  · exact ⟨.migPolicySet r, nofun, rfl⟩
  · exact ⟨.migPolicyGet r, nofun, rfl⟩
  · exact ⟨.sliceState r, nofun, rfl⟩
theorem exec_advance_of_ne_window {c : Instr} {s t : State} (h : areaOf c ≠ .window) (he : exec c s = .next t) :
    Advance s.toBlock.words t.toBlock.words := by
  cases ha : areaOf c with
  | window => exact absurd ha h
  | fuses => exact fuses_advance ha he
  | starts => exact starts_advance ha he
  | rings => exact .of_eq (rings_words ha he)
  | wales => exact .of_eq (wales_words ha he)
  | jobs => exact .of_eq (jobs_words ha he)
  | transfers => exact .of_eq (transfers_words ha he)
  | device => exact .of_eq (device_words ha he)
  | fabric => exact .of_eq (fabric_words ha he)
  | reports => exact .of_eq (reports_words ha he)
  | settings => exact .of_eq (settings_words ha he)
  | sliceFrames => exact .of_eq (sliceFrames_words ha he)
  | migration => exact .of_eq (migration_words ha he)
  | fabricFrames => exact .of_eq (fabricFrames_words ha he)
  | lifecycle => exact .of_eq (lifecycle_words ha he)
  | waits => exact .of_eq (waits_words ha he)
  | microwords => exact .of_eq (microwords_words ha he)
theorem advance_serveFrame {u : Byte × Nat × Nat × BitVec 16} {b : Block} (code : W16) (r : Req) (h : Advance u b.words) :
    Advance u (b.serveFrame code r).words := by
  refine h.trans ?_
  unfold Block.serveFrame
  split
  · rename_i t ht
    obtain ⟨c, hc, he⟩ := served_eq_exec ht
    exact exec_advance_of_ne_window hc he
  · exact advance_command (fun b => .refl _)
theorem advance_go {u : Byte × Nat × Nat × BitVec 16} {b : Block} (x : Option SliceId) (h : Advance u b.words) : Advance u (b.go x).words := by
  unfold Block.go
  split
  · exact h
  · refine advance_serveFrame _ _ ?_
    split
    · simpa using h
    · exact h
theorem advance_writeBar0Go {u : Byte × Nat × Nat × BitVec 16} {b : Block} (o : Nat) (v : W32) (h : Advance u b.words) :
    Advance u (b.writeBar0Go o v).words := by
  unfold Block.writeBar0Go
  (repeat' split)
  · exact advance_go none h
  · exact h
  · exact h.trans (.of_eq (b.writeBar0_words o v))
theorem advance_writePageGo {u : Byte × Nat × Nat × BitVec 16} {b : Block} (sl : SliceId) (o : Nat) (v : W32) (h : Advance u b.words) :
    Advance u (b.writePageGo sl o v).words := by
  unfold Block.writePageGo
  (repeat' split)
  · exact advance_go _ h
  · exact h
  · simpa using h
theorem advance_resumeBox {u : Byte × Nat × Nat × BitVec 16} {b : Block} (sl : SliceId) (h : Advance u b.words) :
    Advance u (b.resumeBox sl).words := by
  unfold Block.resumeBox
  dsimp only
  split
  · exact h
  · split
    · split
      · simpa using h
      · exact advance_serveFrame _ _ (by simpa using h)
    · simpa using h
    · exact h
theorem window_advance {c : Instr} {s t : State} (h : areaOf c = .window) (he : exec c s = .next t) : Advance s.toBlock.words t.toBlock.words := by
  cases c <;> cases h <;> rw [done_inj he]
  case registerWrite =>
    dsimp only
    (repeat' split) <;> simp [advance_writePageGo, advance_writeBar0Go]
  case tokenBucketRefill sl =>
    refine advance_resumeBox sl (.of_eq ?_)
    refine (foldl_words _ (fun b j => b.askEntry_words j) _ _).trans ?_
    refine (foldl_words _ (fun b c => ?_) _ _).trans (by simp)
    (repeat' split) <;> simp

/-! ### Every step -/

/-- No command takes a fused word back. -/
theorem exec_advance {c : Instr} {s t : State} (he : exec c s = .next t) : Advance s.toBlock.words t.toBlock.words := by
  by_cases h : areaOf c = .window
  · exact window_advance h he
  · exact exec_advance_of_ne_window h he

/-- Settles O59: no command of any part of the machine takes a fused word back, and a tick changes none. -/
theorem otpNeverRetreats : Obligations.OtpNeverRetreats := by
  intro st n z f s t hk hs
  refine hk.advance ?_
  unfold steps step at hs
  split at hs
  · cases hs
    exact .of_eq (Block.tick_words _)
  · rename_i c r _
    exact exec_advance (s := { s with pending := r }) hs

end Sys2Proof.Machine

/-! SUPPORT. Byte strings of numbers read back (R7), and the polynomials the lattice engine stores. -/
namespace Sys2Proof.Machine

/-! ### Byte strings -/

@[simp] theorem length_le (n v : Nat) : (le n v).length = n := by
  induction n generalizing v with
  | zero => rfl
  | succ n ih => simp [le, ih]
@[simp] theorem length_be (n v : Nat) : (be n v).length = n := by simp [be]
/-- A little-endian string holds its number, cut to its bytes. -/
theorem ofLe_le (n v : Nat) : ofLe (le n v) = v % 256 ^ n := by
  induction n generalizing v with
  | zero => simp [le, ofLe, Nat.mod_one]
  | succ n ih =>
    simp only [le, ofLe, ih, BitVec.toNat_ofNat]
    rw [show 256 ^ (n + 1) = 256 * 256 ^ n from Nat.pow_succ', Nat.mod_mul]
/-- A big-endian one likewise. -/
theorem ofBe_be (n v : Nat) : ofBe (be n v) = v % 256 ^ n := by simp [ofBe, be, ofLe_le]

/-! ### Polynomials (R83) -/

@[simp] theorem length_coeffs (n : Nat) (b : Bytes) : (coeffs n b).length = n := by
  induction n generalizing b with
  | zero => rfl
  | succ n ih => simp [coeffs, ih]
/-- The coefficients of stored coefficients, when four bytes hold the modulus. -/
theorem coeffs_polyBytes {q : Nat} (hq : 0 < q) (hw : q ≤ 256 ^ 4) (c : List Nat) : coeffs c.length (polyBytes q c) = c.map (· % q) := by
  induction c with
  | nil => rfl
  | cons x r ih =>
    have hx : x % q % 256 ^ 4 = x % q := Nat.mod_eq_of_lt (Nat.lt_of_lt_of_le (Nat.mod_lt x hq) hw)
    have htake : (polyBytes q (x :: r)).take 4 = le 4 (x % q) := List.take_left' (length_le 4 _)
    have hdrop : (polyBytes q (x :: r)).drop 4 = polyBytes q r := List.drop_left' (length_le 4 _)
    simp only [List.length_cons, coeffs, htake, hdrop, ofLe_le, hx, ih, List.map_cons]
@[simp] theorem length_polyBytes (q : Nat) (c : List Nat) : (polyBytes q c).length = 4 * c.length := by
  induction c with
  | nil => rfl
  | cons x r ih =>
    have hcons : polyBytes q (x :: r) = le 4 (x % q) ++ polyBytes q r := rfl
    simp only [hcons, List.length_append, length_le, ih, List.length_cons]
    omega
/-- The moduli are positive and fit a coefficient's four bytes. -/
theorem latModOf_pos_le (l : LatF) : 0 < latModOf l ∧ latModOf l ≤ 256 ^ 4 := by
  unfold latModOf latMod
  split <;> decide
/-- What is stored of an operation coefficient by coefficient. -/
theorem coeffs_latZip (l : LatF) (f : Nat → Nat → Nat) (a b : Bytes) :
    coeffs (latDeg l) (latZip l f a b) =
      List.zipWith (fun u v => f (u % latModOf l) (v % latModOf l) % latModOf l) (coeffs (latDeg l) a) (coeffs (latDeg l) b) := by
  obtain ⟨hpos, hfits⟩ := latModOf_pos_le l
  have hstored := coeffs_polyBytes hpos hfits
    (List.zipWith (fun x y => f (x % latModOf l) (y % latModOf l)) (coeffs (latDeg l) a) (coeffs (latDeg l) b))
  rw [List.length_zipWith, length_coeffs, length_coeffs, Nat.min_self, List.map_zipWith] at hstored
  exact hstored

/-- Settles O12: what `latZip` stores of each pair of coefficients, with the operation under the modulus. -/
theorem latticeArithmeticIsModular : Obligations.LatticeArithmeticIsModular := by
  intro l a b _ _ q n
  refine ⟨?_, ?_, ?_, by simp [latZip, n], ?_⟩
  · exact (coeffs_latZip ..).trans (by simp [q, n, Nat.add_mod])
  · exact (coeffs_latZip ..).trans (by simp [q, n, Nat.mul_mod])
  · exact (coeffs_latZip ..).trans (by simp [q, n])
  · intro c hc
    rw [coeffs_latZip, List.mem_iff_getElem] at hc
    obtain ⟨i, hi, rfl⟩ := hc
    rw [List.getElem_zipWith]
    exact Nat.mod_lt _ (latModOf_pos_le l).1

end Sys2Proof.Machine

/-! SUPPORT. How a command's outcome follows from the block it leaves. -/
namespace Sys2Proof.Machine

/-- A command whose block is `c` leaves that block. -/
theorem done_to {s : State} {b c : Block} (h : b = c) : done b s = .next (s.to c) := h ▸ rfl
/-- One whose block is the machine's own leaves the machine as it is. -/
theorem done_same {s : State} {b : Block} (h : b = s.toBlock) : done b s = .next s := h ▸ rfl
/-- An outcome with another name for its block. -/
theorem next_to {s : State} {b c : Block} {o : Host.Outcome State Fault Refusal} (h : o = .next (s.to b)) (k : b = c) : o = .next (s.to c) := k ▸ h

end Sys2Proof.Machine

/-! SUPPORT. The queue, and what the flow, scalar and object operations of a microword do to their wale (chapter 05). -/
namespace Sys2Proof.Machine

/-! ### The queue -/

/-- Settles O1: a step is the command at the front of the queue. -/
theorem stepRunsFrontCommand : Obligations.StepRunsFrontCommand := by
  intro s c r h
  simp only [step, h]

/-- Every command completes with a next block. -/
theorem exec_eq_done (c : Instr) (s : State) : ∃ b, exec c s = done b s := by
  cases c <;> exact ⟨_, rfl⟩

/-- Settles O3: every command completes with a next block beside the same queue. -/
theorem everyCommandAnswers : Obligations.EveryCommandAnswers := by
  intro c s
  obtain ⟨b, hb⟩ := exec_eq_done c s
  exact ⟨{ s with toBlock := b }, hb, rfl⟩

/-! ### What an operation may do -/

/-- The program may go on to the next address. -/
theorem next_ok {x : Wale} (h : x.roomFor .inc) : x.next = .ok (x.setPc (x.micro.pc + 1)) := if_neg h
/-- What an operation does is what its function gives on its wale as the microword finds it. -/
theorem does_of {s : State} {w : WaleId} {c : Instr} {y : Wale} (f : Wale → Except W32 Wale) (hc : exec c s = done (s.toBlock.micro w c f) s)
    (h : f (s.current w) = .ok y) : Does s w c y := fun hi => hc.trans (micro_ok hi h)
/-- And a machine check where the function fails. -/
theorem checks_of {s : State} {w : WaleId} {c : Instr} {d : W32} (f : Wale → Except W32 Wale) (hc : exec c s = done (s.toBlock.micro w c f) s)
    (h : f (s.current w) = .error d) : Checks s w c d := fun hi => hc.trans (micro_check hi h)

/-- Settles O7: an operation of a microword runs under the checks of `Block.micro`. -/
theorem onlyIssuingWalesExecute : Obligations.OnlyIssuingWalesExecute := by
  intro s w c hc
  obtain ⟨f, hf⟩ := exec_of_microword hc s
  exact ⟨fun h => hf.trans (micro_idle s w c f h), fun h k m => hf.trans (micro_other s w c f h k m), fun d h k => exec_of_fetchFault hc h k⟩

/-- A check that passes. -/
theorem check_bind_ok {α : Type} {bad : Bool} {d : W32} {f : Unit → Except W32 α} (h : bad = false) : (check bad d >>= f) = f () := by
  subst h; rfl
/-- A check that fails. -/
theorem check_bind_error {α : Type} {bad : Bool} {d : W32} {f : Unit → Except W32 α} (h : bad = true) : (check bad d >>= f) = .error d := by
  subst h; rfl
/-- A part that succeeds gives its value to the rest. -/
theorem bind_ok {α β : Type} {m : Except W32 α} {a : α} {f : α → Except W32 β} (h : m = .ok a) : (m >>= f) = f a := by
  subst h; rfl
/-- A part that fails fails the whole. -/
theorem bind_error {α β : Type} {m : Except W32 α} {d : W32} {f : α → Except W32 β} (h : m = .error d) : (m >>= f) = .error d := by
  subst h; rfl
/-- What a wale may go on to depends on its address and its program alone. -/
theorem roomFor_of_eq {x y : Wale} {nx : Nx} (h : x.roomFor nx) (hp : y.micro.pc = x.micro.pc) (hc : y.micro.customer = x.micro.customer) :
    y.roomFor nx := by
  cases nx with
  | stay => trivial
  | inc => simpa only [Wale.roomFor, hp, hc] using h
/-- A wale that has changed and goes on. -/
theorem after_changed {x y : Wale} {nx : Nx} (h : x.roomFor nx) (hp : y.micro.pc = x.micro.pc) (hc : y.micro.customer = x.micro.customer) :
    y.after nx = .ok (y.past nx) := after_ok (roomFor_of_eq h hp hc)

/-! ### The flow of a microprogram (R107 to R109) -/

/-- A branch that is not taken goes on. -/
theorem branch_false {x : Wale} {t : BitVec 14} (h : x.roomFor .inc) : x.branch false t = .ok (x.setPc (x.micro.pc + 1)) := next_ok h
/-- A branch that is taken goes to its target. -/
theorem branch_true {x : Wale} {t : BitVec 14} (h : x.mayGo t) : x.branch true t = .ok (x.setPc t) := goto_ok h
/-- A loop counter written leaves the program where it is. -/
theorem next_setLoop {x : Wale} {l : Fin 4} {v : BitVec 16} (h : x.roomFor .inc) :
    (x.setLoop l v).next = .ok ((x.setLoop l v).setPc (x.micro.pc + 1)) := next_ok (x := x.setLoop l v) h
/-- A RET goes to the last address pushed. -/
theorem pop_cons {x : Wale} {t : BitVec 14} {r : List (BitVec 14)} (h : x.mayGo t) (hs : x.micro.stack = t :: r) :
    x.pop = .ok { x with micro := { x.micro with stack := r, pc := t } } := by
  simp only [Wale.pop, hs]
  exact goto_ok (x := { x with micro := { x.micro with stack := r } }) h

/-- DJNZ on a counter above 1 counts down and branches. -/
theorem djnz_taken {s : State} {w : WaleId} {l : Fin 4} {t : BitVec 14} (h : (s.current w).mayGo t) (hl : 1 < ((s.current w).loop l).toNat) :
    let x := s.current w
    Does s w (.djnz w l t) ((x.setLoop l (x.loop l - 1)).setPc t) := by
  refine does_of _ rfl ?_
  have hzero : (s.current w).loop l ≠ 0 := by rintro h0; simp [h0] at hl
  have hmore : ((s.current w).loop l - 1 != 0) = true := by
    simp only [bne_iff_ne, ne_eq, BitVec.sub_eq_iff_eq_add]
    bv_omega
  rw [if_neg hzero, hmore]
  exact branch_true (x := (s.current w).setLoop l _) h
/-- Settles O5, an operation at a time. -/
theorem flowOperations : Obligations.FlowOperations := by
  intro s w x
  refine ⟨fun h => ⟨?_, ?_, fun l imm => ?_, fun l t hl => ?_, fun l t hl => ?_, fun hl => ?_⟩, fun hl => ?_, fun t h => ⟨?_, ?_, ?_, ?_⟩⟩
  · exact does_of _ rfl (next_ok h)
  · exact does_of _ rfl (next_ok h)
  · exact does_of _ rfl (next_setLoop h)
  · exact does_of _ rfl ((if_pos hl).trans (next_ok h))
  · refine does_of _ rfl ?_
    change (if x.loop l = 0 then _ else _) = _
    rw [hl, if_neg (by decide)]
    exact next_setLoop h
  · exact does_of _ rfl ((if_pos hl).trans (next_setLoop h))
  · exact does_of _ rfl (if_neg (Nat.not_le.mpr hl))
  · exact does_of _ rfl (goto_ok h)
  · exact fun l hl => djnz_taken h hl
  · exact does_call h
  · exact fun r hs => does_of _ rfl (pop_cons h hs)

/-- Settles O6: the value is checked to be P, then the branch is taken or the counter loaded. -/
theorem branchOperations : Obligations.BranchOperations := by
  intro s w x
  refine ⟨fun f t hS hF h => ?_, fun f t hS hF h => ?_, fun f t hS hF h => ?_, fun f t hS hF h => ?_, fun g t hS hin h => ?_, fun l g hS h => ?_,
    fun f t hS => ⟨?_, ?_⟩, fun g t l hS => ⟨?_, ?_⟩⟩
  · refine does_of _ rfl ((check_bind_ok hS).trans ?_)
    rw [hF]; exact branch_true h
  · refine does_of _ rfl ((check_bind_ok hS).trans ?_)
    rw [hF]; exact branch_false h
  · refine does_of _ rfl ((check_bind_ok hS).trans ?_)
    rw [hF]; exact branch_true h
  · refine does_of _ rfl ((check_bind_ok hS).trans ?_)
    rw [hF]; exact branch_false h
  · refine does_of _ rfl ((check_bind_ok hS).trans ((check_bind_ok (decide_eq_false (Nat.not_lt.mpr hin))).trans ?_))
    have hlow : ((x.reg g).setWidth 6).setWidth 14 = BitVec.ofNat 14 ((x.reg g).toNat % 64) := by
      apply BitVec.eq_of_toNat_eq
      simp
    change x.goto (t + ((x.reg g).setWidth 6).setWidth 14) = _
    rw [hlow]
    exact goto_ok h
  · exact does_of _ rfl ((check_bind_ok hS).trans (next_setLoop h))
  · exact checks_of _ rfl (check_bind_error hS)
  · exact checks_of _ rfl (check_bind_error hS)
  · exact checks_of _ rfl (check_bind_error hS)
  · exact checks_of _ rfl (check_bind_error hS)

/-! ### The scalar unit (Table 5.8) -/

@[simp] theorem setFlag_pc (x : Wale) (f : Reg) (v t : Bool) : (x.setFlag f v t).micro.pc = x.micro.pc := by unfold Wale.setFlag; split <;> rfl
@[simp] theorem setFlag_customer (x : Wale) (f : Reg) (v t : Bool) : (x.setFlag f v t).micro.customer = x.micro.customer := by
  unfold Wale.setFlag; split <;> rfl
/-- An operation whose result goes to a register. -/
theorem does_setReg {s : State} {w : WaleId} {c : Instr} {nx : Nx} {d : Reg} (v : Wale → W64) (t : Wale → Bool) (h : (s.current w).roomFor nx)
    (hc : exec c s = done (s.toBlock.micro w c (fun x => (x.setReg d (v x) (t x)).after nx)) s) :
    Does s w c (((s.current w).setReg d (v (s.current w)) (t (s.current w))).past nx) := does_of _ hc (after_changed h rfl rfl)
/-- An operation whose result goes to a flag. -/
theorem does_setFlag {s : State} {w : WaleId} {c : Instr} {nx : Nx} {f : Reg} (v t : Wale → Bool) (h : (s.current w).roomFor nx)
    (hc : exec c s = done (s.toBlock.micro w c (fun x => (x.setFlag f (v x) (t x)).after nx)) s) :
    Does s w c (((s.current w).setFlag f (v (s.current w)) (t (s.current w))).past nx) :=
  does_of _ hc (after_changed h (setFlag_pc ..) (setFlag_customer ..))

/-- Settles O8: each operation writes its register or its flag and goes on. -/
theorem scalarOperations : Obligations.ScalarOperations := by
  refine ⟨?_, ?_⟩ <;> intro s w nx h x
  · intro sets
    refine ⟨?_, ?_, ?_, ?_, ?_, ?_, ?_, ?_, ?_, ?_, ?_, ?_⟩
    · exact fun d a => does_setReg (fun x => x.reg a) (fun x => x.regS a) h rfl
    · exact fun d imm => does_setReg (fun _ => imm.setWidth 64) (fun _ => false) h rfl
    · intro d imm
      have hshift : x.reg d * (1024 : W64) = x.reg d <<< 10 := by
        apply BitVec.eq_of_toNat_eq
        simp [Nat.shiftLeft_eq]
      have hmovs := does_setReg (nx := nx) (d := d) (fun x => x.reg d <<< 10 ||| imm.setWidth 64) (fun x => x.regS d) h (c := .movs w d imm nx) rfl
      rw [hshift]
      exact hmovs
    · exact fun d a b => does_setReg (fun x => x.reg a + x.reg b) (fun x => x.regS a || x.regS b) h rfl
    · exact fun d a b => does_setReg (fun x => x.reg a - x.reg b) (fun x => x.regS a || x.regS b) h rfl
    · exact fun d a b => does_setReg (fun x => x.reg a &&& x.reg b) (fun x => x.regS a || x.regS b) h rfl
    · exact fun d a b => does_setReg (fun x => x.reg a ||| x.reg b) (fun x => x.regS a || x.regS b) h rfl
    · exact fun d a b => does_setReg (fun x => x.reg a ^^^ x.reg b) (fun x => x.regS a || x.regS b) h rfl
    · exact fun d a b => does_setReg (fun x => x.reg a <<< ((x.reg b).toNat % 64)) (fun x => x.regS a || x.regS b) h rfl
    · exact fun d a b => does_setReg (fun x => x.reg a >>> ((x.reg b).toNat % 64)) (fun x => x.regS a || x.regS b) h rfl
    · exact fun d a imm => does_setReg (fun x => x.reg a + imm.setWidth 64) (fun x => x.regS a) h rfl
    · exact fun d f a b => does_setReg (fun x => if x.flag f then x.reg a else x.reg b) (fun x => x.flagS f || x.regS a || x.regS b) h rfl
  · refine ⟨?_, ?_, fun d o ho => ?_, fun d o ho => ?_⟩
    · exact fun f a b => does_setFlag (fun x => decide (x.reg a = x.reg b)) (fun x => x.regS a || x.regS b) h rfl
    · exact fun f a b => does_setFlag (fun x => decide ((x.reg a).toNat < (x.reg b).toNat)) (fun x => x.regS a || x.regS b) h rfl
    · exact does_of _ rfl ((bind_ok (named_ok ho)).trans (after_changed h rfl rfl))
    · exact checks_of _ rfl (bind_error (named_bad ho))

/-! ### Words of objects (R77, R80, R81) -/

/-- An access outside its object or the memory is a machine check. -/
theorem span_bad {x : Wale} {o : Reg} {a n : Nat} (hv : (x.micro.o[o]).valid = true) (h : ¬ x.inObj o a n) :
    x.inSpan (x.micro.o[o]) a n = .error 0x106 := by
  refine if_pos ?_
  simp only [Wale.inObj, hv, true_and] at h
  simp only [Bool.or_eq_true, decide_eq_true_eq]
  omega
/-- A byte outside those written is read as before. -/
theorem read_writeAll_outside {m : Mem} {a b : Nat} {d : Bytes} (hwf : m.wf = true) (h : b < a ∨ a + d.length ≤ b) :
    (m.writeAll a d).read b = m.read b := by
  induction d generalizing m a with
  | nil => rfl
  | cons v r ih =>
    simp only [List.length_cons] at h
    simp only [Mem.writeAll]
    rw [ih (Mem.wf_write m a v hwf) (by omega), Mem.read_write m a b v hwf, if_neg (by omega)]
/-- Settles O9: the object is named, its index is P, the access lies in its span, and then the word is moved. -/
theorem wordAccesses : Obligations.WordAccesses := by
  intro s w nx o b h x ob off
  refine ⟨fun hb hin => ⟨fun d => ?_, fun a => ⟨?_, fun k hk hwf => ?_⟩⟩, fun hv hb a => ⟨?_, ?_⟩, fun hv hb hout a => ⟨?_, ?_⟩⟩
  · exact does_of _ rfl ((bind_ok (named_ok hin.1)).trans ((check_bind_ok hb).trans ((bind_ok (span_ok hin)).trans (after_changed h rfl rfl))))
  · exact does_of _ rfl ((bind_ok (named_ok hin.1)).trans ((check_bind_ok hb).trans ((bind_ok (span_ok hin)).trans (after_changed h rfl rfl))))
  · exact read_writeAll_outside hwf (by simpa using hk)
  · exact checks_of _ rfl ((bind_ok (named_ok hv)).trans (check_bind_error hb))
  · exact checks_of _ rfl ((bind_ok (named_ok hv)).trans (check_bind_error hb))
  · exact checks_of _ rfl ((bind_ok (named_ok hv)).trans ((check_bind_ok hb).trans (bind_error (span_bad hv hout))))
  · exact checks_of _ rfl ((bind_ok (named_ok hv)).trans ((check_bind_ok hb).trans (bind_error (span_bad hv hout))))

end Sys2Proof.Machine

/-! SUPPORT. What the lattice, hash and big-number operations of a microword do to their wale (chapters 04 and 05). -/
namespace Sys2Proof.Machine

/-! ### The lattice engine (R83, R84, R112) -/

/-- A lattice operation of one source whose parameter is in range. -/
theorem does_latUnary {s : State} {w : WaleId} {c : Instr} {nx : Nx} {l : LatF} {f : Bytes → Bytes} (hnx : (s.current w).roomFor nx) (hl : Legal l)
    (ha : (s.current w).readable (latPoly l l.a l.ia)) (hd : (s.current w).writable (latPoly l l.d l.id))
    (g : Wale → Except W32 Wale) (hc : exec c s = done (s.toBlock.micro w c g) s) (hg : g (s.current w) = latUnary l nx f (s.current w)) :
    Does s w c (((s.current w).result (latPoly l l.d l.id) (f ((s.current w).operand (latPoly l l.a l.ia)))
      ((s.current w).secretAt (latPoly l l.a l.ia))).past nx) := does_of g hc (hg.trans (latUnary_ok hl ha hd hnx))
/-- COMPRESS and DECOMPRESS take d from 1 to one less than the bits of a coefficient (log 12). -/
theorem latParam_compress {x : Wale} {l : LatF} (h : x.param l (fun k => 1 ≤ k ∧ k < latWidth l)) :
    x.latParam l (fun d => decide (1 ≤ d) && decide (d < latWidth l)) = .ok (x.reg l.ib).toNat :=
  latParam_ok h (fun n hn => by simpa using hn)

/-- Settles O10: each operation reads A, computes, and writes D with A's tag. -/
theorem latticeUnary : Obligations.LatticeUnary := by
  intro s w nx l hnx hl x a d stores ha
  refine ⟨?_, fun hd => ⟨?_, ?_, ?_, ?_, fun hk => ⟨?_, ?_⟩⟩⟩
  · exact does_of _ rfl ((bind_ok (latLegal_ok hl)).trans ((bind_ok (latRead_ok ha)).trans (after_ok hnx)))
  · exact does_latUnary (f := fun v => latFree l 1 0 [v]) hnx hl ha hd _ rfl rfl
  · exact does_latUnary (f := fun v => latFree l 2 0 [v]) hnx hl ha hd _ rfl rfl
  · exact does_latUnary (f := fun v => v) hnx hl ha hd _ rfl rfl
  · exact does_latUnary (f := fun v => v) hnx hl ha hd _ rfl rfl
  · exact does_latUnary (f := fun v => latFree l 0x0A (x.reg l.ib).toNat [v]) hnx hl ha hd _ rfl (bind_ok (latParam_compress hk))
  · exact does_latUnary (f := fun v => latFree l 0x0B (x.reg l.ib).toNat [v]) hnx hl ha hd _ rfl (bind_ok (latParam_compress hk))

/-- Settles O11: each operation reads A and B and writes D; BASEMUL first checks its modulus. -/
theorem latticeBinary : Obligations.LatticeBinary := by
  intro s w nx l hnx hl x a b d stores ha hb hd
  refine ⟨?_, ?_, ?_, ?_, fun hq => ?_, fun hq => ?_⟩
  · exact does_of _ rfl (latBinary_ok hl ha hb hd hnx)
  · exact does_of _ rfl (latBinary_ok hl ha hb hd hnx)
  · exact does_of _ rfl (latBinary_ok hl ha hb hd hnx)
  · exact does_of _ rfl (latBinary_ok hl ha hb hd hnx)
  · exact does_of _ rfl ((bind_ok (latLegal_ok hl)).trans ((check_bind_ok (by simp [hq])).trans (latBinary_ok hl ha hb hd hnx)))
  · exact checks_of _ rfl ((bind_ok (latLegal_ok hl)).trans (check_bind_error (by simpa using hq)))

/-- Settles O13: the parameter is read, then A at its length, and D or the flag written. -/
theorem latticeSampling : Obligations.LatticeSampling := by
  intro s w nx l hnx hl x k n d poly packed noise out stores
  refine ⟨fun hk ha hd => ?_, fun hk => ⟨fun ha hd => ?_, fun ha hd => ?_⟩, fun hk ha => ?_, fun hin hS hd => ?_, fun h2 h3 hS => ?_⟩
  · have hpar : x.latParam l (fun e => e == 2 || e == 3) = .ok k := latParam_ok hk (fun e he => by simpa using he)
    exact does_of _ rfl ((bind_ok (latLegal_ok hl)).trans ((bind_ok hpar).trans ((bind_ok (latRead_ok ha)).trans
      ((bind_ok (latWrite_ok _ _ hd)).trans (after_ok (room_result hnx))))))
  · have hpar : x.latParam l (fun k => decide (1 ≤ k) && decide (k ≤ latWidth l)) = .ok k := latParam_ok hk (fun e he => by simpa using he)
    exact does_of _ rfl ((bind_ok (latLegal_ok hl)).trans ((bind_ok hpar).trans ((bind_ok (latRead_ok ha)).trans
      ((bind_ok (latWrite_ok _ _ hd)).trans (after_ok (room_result hnx))))))
  · have hpar : x.latParam l (fun k => decide (1 ≤ k) && decide (k ≤ latWidth l)) = .ok k := latParam_ok hk (fun e he => by simpa using he)
    exact does_of _ rfl ((bind_ok (latLegal_ok hl)).trans ((bind_ok hpar).trans ((bind_ok (latRead_ok ha)).trans
      ((bind_ok (latWrite_ok _ _ hd)).trans (after_ok (room_result hnx))))))
  · have hpar : x.latParam l (fun k => decide (k ≤ latModOf l)) = .ok k := latParam_ok hk (fun e he => by simpa using he)
    exact does_of _ rfl ((bind_ok (latLegal_ok hl)).trans ((bind_ok hpar).trans ((bind_ok (latRead_ok ha)).trans
      (after_changed hnx (setFlag_pc ..) (setFlag_customer ..)))))
  · have hmasked : (x.order == 0 && x.objS (x.micro.o[l.a])) = false := by
      cases h0 : (x.order == 0)
      · rfl
      · exact hS (by simpa using h0)
    exact does_of _ rfl ((bind_ok (latLegal_ok hl)).trans ((bind_ok (named_ok hin.1)).trans ((check_bind_ok hmasked).trans
      ((bind_ok (span_ok hin)).trans ((bind_ok (latWrite_ok _ _ hd)).trans (after_ok (room_result hnx)))))))
  · exact checks_of _ rfl ((bind_ok (latLegal_ok hl)).trans (bind_error (latParam_bad hS (by simpa using ⟨h2, h3⟩))))

/-! ### The hash engines (R85) -/

/-- A change of the engines of a mask reaches those engines alone. -/
theorem hash_eachHash (x : Wale) (m : BitVec 4) (f : HashEng → HashEng) (i : Fin 4) :
    (x.eachHash m f).micro.hash[i] = if m.getLsbD i then f x.micro.hash[i] else x.micro.hash[i] := by
  simp [Wale.eachHash]
/-- A sum over the engines of a mask, engine by engine. -/
theorem sum_engines (m : BitVec 4) (p : Fin 4 → Nat) : ((engines m).map p).sum =
    (if m.getLsbD 0 then p 0 else 0) + ((if m.getLsbD 1 then p 1 else 0) + ((if m.getLsbD 2 then p 2 else 0) + if m.getLsbD 3 then p 3 else 0)) := by
  have hmask (l : List (Fin 4)) : ((l.filter (fun i => m.getLsbD i.val)).map p).sum = (l.map fun i => if m.getLsbD i.val then p i else 0).sum := by
    induction l with
    | nil => rfl
    | cons i r ih =>
      rw [List.map_cons, List.sum_cons, ← ih, List.filter_cons]
      split
      · rfl
      · exact (Nat.zero_add _).symm
  exact hmask (List.finRange 4)
/-- The bits drawn are those of the permutations of the engines of the mask. -/
theorem drbgOut_runHash (x : Wale) (m : BitVec 4) (f : HashEng → HashEng) :
    (x.runHash m f).drbgOut =
      x.drbgOut + 8 * ((engines m).map (fun i => (f x.micro.hash[i]).permutations - (x.micro.hash[i]).permutations)).sum := by
  have hadd (on : Bool) (a g : Nat) : (if on = true then a + g else a) = a + if on = true then g else 0 := by
    cases on <;> rfl
  refine congrArg (fun n => x.drbgOut + 8 * n) ((?_ : _ = _).trans (sum_engines m _).symm)
  rw [show List.finRange 4 = [0, 1, 2, 3] from rfl]
  simp only [List.map_cons, List.map_nil, List.zipIdx_cons, List.zipIdx_nil, List.foldl_cons, List.foldl_nil, hadd, Nat.zero_add, Nat.reduceAdd,
    Nat.add_assoc]
/-- The engines run beside the program. -/
theorem runHash_pc (x : Wale) (m : BitVec 4) (f : HashEng → HashEng) : (x.runHash m f).micro.pc = x.micro.pc := rfl
/-- And do not change whose program it is. -/
theorem runHash_customer (x : Wale) (m : BitVec 4) (f : HashEng → HashEng) : (x.runHash m f).micro.customer = x.micro.customer := rfl
/-- Stores into an object leave the program where it is. -/
theorem foldl_store_micro (l : List (Fin 4)) (o : Obj) (d : Fin 4 → Bytes) (t : Fin 4 → Bool) (x : Wale) :
    (l.foldl (fun (y : Wale) i => y.store o 0 (d i) (t i)) x).micro = x.micro := by
  induction l generalizing x with
  | nil => rfl
  | cons i r ih => rw [List.foldl_cons, ih]; rfl

/-- Settles O14: each operation names its object, reads its length, and changes the engines of its mask. -/
theorem hashEngines : Obligations.HashEngines := by
  refine ⟨?_, fun x m f i => ⟨hash_eachHash x m f i, rfl, rfl, rfl⟩, fun x m f => ⟨rfl, drbgOut_runHash x m f⟩, fun h => rfl⟩
  intro s w nx h hnx x n i o
  refine ⟨fun m => ?_, ?_, fun hS hin hlen => ?_, fun hS hin hlen => ?_, fun hS hv hlen => ?_, fun hS hv hlen => ?_⟩
  · exact does_of _ rfl (after_changed hnx rfl rfl)
  · exact does_of _ rfl (after_changed hnx rfl rfl)
  · exact does_of _ rfl ((bind_ok (named_ok hin.1)).trans ((bind_ok (hashLen_ok hS hlen)).trans ((bind_ok (span_ok hin)).trans
      (after_changed hnx rfl rfl))))
  · have hkept := foldl_store_micro (engines h.mask) o (fun e => (x.micro.hash[e]).output n) (fun e => (x.micro.hash[e]).taint) x
    exact does_of _ rfl ((bind_ok (named_ok hin.1)).trans ((bind_ok (hashLen_ok hS hlen)).trans ((bind_ok (span_ok hin)).trans
      (after_changed hnx ((runHash_pc ..).trans (congrArg Micro.pc hkept)) ((runHash_customer ..).trans (congrArg Micro.customer hkept))))))
  · exact checks_of _ rfl ((bind_ok (named_ok hv)).trans (bind_error (hashLen_bad hS hlen)))
  · exact checks_of _ rfl ((bind_ok (named_ok hv)).trans (bind_error (hashLen_bad hS hlen)))

/-! ### The big-number engine (R117) -/

/-- What a primitive operation stores: its result, or zeros where a check fails. -/
def primOut (o : Prim) (len : Nat) : Except (W16 × W32) Bytes → Bytes
  | .ok v => v
  | .error _ => zeros (o.outLen len)
/-- Its flag: whether a check failed. -/
def primBad : Except (W16 × W32) Bytes → Bool
  | .ok _ => false
  | .error _ => true
/-- A primitive operation whose parameter is legal and whose operands are held runs, and stores its result and its flag. -/
theorem bnPrim_ok {x : Wale} {o : Prim} {f : BnF} {nx : Nx} (hnx : x.roomFor nx) (h : x.bnReady o f) :
    let p := primPar (x.reg f.par)
    let n := o.lens p.len p.elen
    let r := primRun o (p.form == 1) p.elen p.len (x.bnBytes f.a n.1) (x.bnBytes f.b n.2.1) (x.bnBytes f.m n.2.2)
    bnPrim o f nx x = .ok (((x.store (x.micro.o[f.d]) 0 (primOut o p.len r) false).setFlag f.flag (primBad r) false).past nx) := by
  intro p n r
  obtain ⟨hS, hlegal, ha, hb, hm, hd, hfit⟩ := h
  have hnot : (!p.legal o) = false := by simpa using hlegal
  have hroom : decide ((x.micro.o[f.d]).len < o.outLen p.len) = false := decide_eq_false (Nat.not_lt.mpr hfit)
  have hfin : ((x.store (x.micro.o[f.d]) 0 (primOut o p.len r) false).setFlag f.flag (primBad r) false).after nx = .ok _ :=
    after_changed hnx (setFlag_pc ..) (setFlag_customer ..)
  exact (check_bind_ok hS).trans ((check_bind_ok hnot).trans ((bind_ok (bnOperand_ok ha)).trans ((bind_ok (bnOperand_ok hb)).trans
    ((bind_ok (bnOperand_ok hm)).trans ((bind_ok (named_ok hd.1)).trans ((check_bind_ok hroom).trans ((bind_ok (span_ok hd)).trans hfin)))))))
/-- Each of the eight primitive instructions runs its primitive operation. -/
theorem exec_of_prim {o : Prim} {c : Instr} {w : WaleId} {f : BnF} {nx : Nx}
    (h : (o, c) ∈ [(Prim.modAdd, Instr.bnModAdd w f nx), (.modSub, .bnModSub w f nx), (.modMul, .bnModMul w f nx), (.modRed, .bnModRed w f nx),
      (.modInv, .bnModInv w f nx), (.modExp, .bnModExp w f nx), (.ptAdd, .bnPtAdd w f nx), (.ptMul, .bnPtMul w f nx)]) (s : State) :
    exec c s = done (s.toBlock.micro w c (bnPrim o f nx)) s := by
  simp only [List.mem_cons, Prod.mk.injEq, List.not_mem_nil, or_false] at h
  rcases h with ⟨rfl, rfl⟩ | ⟨rfl, rfl⟩ | ⟨rfl, rfl⟩ | ⟨rfl, rfl⟩ | ⟨rfl, rfl⟩ | ⟨rfl, rfl⟩ | ⟨rfl, rfl⟩ | ⟨rfl, rfl⟩ <;> rfl

/-- Settles O15: a primitive operation stores what `primRun` gives; a secret-level one stores free values with the operands' tag. -/
theorem bigNumberOperations : Obligations.BigNumberOperations := by
  intro s w nx f hnx x p d
  refine ⟨fun o c hc hready => ?_, ?_⟩
  · have hrun := bnPrim_ok hnx hready
    exact ⟨fun v hv => does_of _ (exec_of_prim hc s) (by rw [hrun, hv]; rfl), fun e he => does_of _ (exec_of_prim hc s) (by rw [hrun, he]; rfl)⟩
  · intro op hS ha hb hm hd sec hcust hin
    have hsec : (x.micro.customer && sec) = false := by
      rcases hcust with h | h
      · rw [h]; rfl
      · rw [h, Bool.and_false]
    let args := [x.load (x.micro.o[f.a]) 0 (x.micro.o[f.a]).len, x.load (x.micro.o[f.b]) 0 (x.micro.o[f.b]).len,
      x.load (x.micro.o[f.m]) 0 (x.micro.o[f.m]).len, le 8 (x.reg f.par).toNat]
    refine ⟨algBytes .secretBn op.toNat args d.len, Config.ask .samplerDone op.toNat args, by simp [algBytes], does_of _ rfl ?_⟩
    have hspan : ∀ r ∈ [f.a, f.b, f.m, f.d], x.inSpan (x.micro.o[r]) 0 (x.micro.o[r]).len = .ok () := fun r hr => span_ok (hin r hr)
    exact (check_bind_ok hS).trans ((bind_ok (named_ok ha)).trans ((bind_ok (named_ok hb)).trans ((bind_ok (named_ok hm)).trans
      ((bind_ok (named_ok hd)).trans ((check_bind_ok hsec).trans ((bind_ok (hspan f.a (by simp))).trans ((bind_ok (hspan f.b (by simp))).trans
      ((bind_ok (hspan f.m (by simp))).trans ((bind_ok (hspan f.d (by simp))).trans (after_changed hnx (setFlag_pc ..) (setFlag_customer ..)))))))))))

end Sys2Proof.Machine

/-! SUPPORT. The microwords that act on a job: WAIT_WORK, DBT, KSTORE, EMIT, DRAW, DSLOT and RELEASE (Tables 5.6 and 5.9). -/
namespace Sys2Proof.Machine

/-! ### The operand registers of a field -/

/-- A P register gives its value. -/
theorem addrReg_ok {x : Wale} {r : Reg} (h : x.regS r = false) : x.addrReg r = .ok (x.reg r).toNat := check_bind_ok h
/-- An object that lies in the memory is within it. -/
theorem short_false {n m : Nat} (h : n ≤ m) : decide (m < n) = false := decide_eq_false (Nat.not_lt.mpr h)

/-! ### Declassification (R94, R111) -/

/-- The wale after its decision: the flag is P, the decision is recorded, and the program branches. -/
def Wale.decided (x : Wale) (f : Reg) (t : BitVec 14) (d : Bool) : Wale :=
  let z := x.setFlag f d false
  { z with micro := { z.micro with decisions := z.micro.decisions ++ [d], presented := none, pc := if d then t else x.micro.pc + 1 } }
/-- A wale that may go both ways takes its decision. -/
theorem takeDecision_ok {x : Wale} {f : Reg} {t : BitVec 14} (d : Bool) (ht : x.mayGo t) (hn : x.roomFor .inc) :
    x.takeDecision f t d = .ok (x.decided f t d) := by
  have hcust := setFlag_customer x f d false
  have hpc := setFlag_pc x f d false
  unfold Wale.takeDecision Wale.decided
  cases d with
  | true => exact branch_true (fun h => ht (hcust ▸ h))
  | false =>
    have hgo : Wale.next _ = .ok _ := next_ok (x := { x.setFlag f false false with micro := { (x.setFlag f false false).micro with
      decisions := (x.setFlag f false false).micro.decisions ++ [false], presented := none } }) (roomFor_of_eq hn hpc hcust)
    refine hgo.trans ?_
    simp only [Wale.setPc, hpc, Bool.false_eq_true, if_false]
/-- What a decision leaves of a wale that holds nothing back: its flag is P. -/
theorem flagS_decided (x : Wale) (f : Reg) (t : BitVec 14) (d : Bool) (k : Nat) :
    ({ x.decided f t d with micro := { (x.decided f t d).micro with field := k, held := none } } : Wale).flagS f = false := by
  by_cases hf : f = 0
  · subst hf; rfl
  · have hbit : (setBit x.micro.fTaint f false).getLsbD f = false := by rw [getLsbD_setBit, if_pos rfl]
    simpa [Wale.flagS, Wale.seen, Micro.regs, Wale.decided, Wale.setFlag, hf] using hbit
/-- A decision is added to those before. -/
theorem decisions_decided (x : Wale) (f : Reg) (t : BitVec 14) (d : Bool) : (x.decided f t d).micro.decisions = x.micro.decisions ++ [d] := by
  unfold Wale.decided Wale.setFlag; split <;> rfl

/-- A DBT on one wale branches at once. -/
theorem does_dbt {s : State} {w : WaleId} {f : Reg} {t : BitVec 14} {agree : Bool} {j : Job} (hj : (s.current w).job.bind s.toBlock.job = some j)
    (hc : (s.current w).micro.customer = false) (ht : (s.current w).mayGo t) (hn : (s.current w).roomFor .inc)
    (hp : (s.current w).paired = false) (h2 : (s.current w).second = false) :
    Does s w (.dbt w f t agree) ((s.current w).decided f t ((s.current w).flag f)) := by
  intro hi
  have hj' : (s.toBlock.wale w).job.bind s.toBlock.job = some j := hj
  have hc' : (s.toBlock.wale w).micro.customer = false := hc
  have h2' : (s.toBlock.wale w).second = false := h2
  have hnone : s.toBlock.partnerOf w = none := by
    simp only [Block.partnerOf, show (s.toBlock.wale w).paired = false from hp]; rfl
  have helse : (s.toBlock.wale w).decidesElse ((s.toBlock.wale w).flag f) = false := by simp [Wale.decidesElse, h2']
  refine Eq.trans ?_ (micro_ok hi (f := fun y => y.takeDecision f t ((s.toBlock.wale w).flag f)) (takeDecision_ok _ ht hn))
  simp [exec, execDbt, hi.1, hi.2.1, hi.2.2, hj', hc', hnone, helse, h2']
/-- A DBT on a wale of a pair: the lead presents its decision and holds; its partner's, behind it, is compared. -/
theorem exec_dbt_pair {s : State} {w p : WaleId} {f : Reg} {t : BitVec 14} {agree : Bool} {j : Job} (hi : Issues s w (.dbt w f t agree))
    (hj : (s.current w).job.bind s.toBlock.job = some j) (hc : (s.current w).micro.customer = false) (hp : s.toBlock.partnerOf w = some p) :
    exec (.dbt w f t agree) s = done (
      if (s.toBlock.wale w).lead then s.toBlock.modWale w (fun y => { y with micro := { y.micro with
        presented := some ((s.toBlock.wale w).flag f), count := y.micro.count + 1 } })
      else match (s.toBlock.wale p).micro.presented with
        | none => s.toBlock
        | some e => if agree && e == (s.toBlock.wale w).flag f then s.toBlock.decideBoth p w f t ((s.toBlock.wale w).flag f)
            else s.toBlock.redundancy j [p, w] 2) s := by
  have hj' : (s.toBlock.wale w).job.bind s.toBlock.job = some j := hj
  have hc' : (s.toBlock.wale w).micro.customer = false := hc
  simp only [exec, execDbt, hi.1, hi.2.1, hi.2.2, hj', hc', hp]
  rfl
/-- Both wales of a pair past the decision they agreed on. -/
def Block.branchBoth (b : Block) (p w : WaleId) (f : Reg) (t : BitVec 14) (d : Bool) : Block :=
  let x := (b.wale p).decided f t d
  (b.modWale p (fun _ => { x with micro := { x.micro with field := 0, held := none } })).modWale w (fun _ => ((b.wale w).decided f t d).issued true)
/-- Wales that may go both ways branch together. -/
theorem decideBoth_ok {b : Block} {p w : WaleId} {f : Reg} {t : BitVec 14} (d : Bool) (hp : (b.wale p).mayGo t) (hpn : (b.wale p).roomFor .inc)
    (hw : (b.wale w).mayGo t) (hwn : (b.wale w).roomFor .inc) : b.decideBoth p w f t d = b.branchBoth p w f t d := by
  simp only [Block.decideBoth, takeDecision_ok d hp hpn, takeDecision_ok d hw hwn, Block.branchBoth]
/-- The partner's wale after it. -/
theorem wale_branchBoth_partner {b : Block} {p w : WaleId} {f : Reg} {t : BitVec 14} {d : Bool} (h : p ≠ w) :
    (b.branchBoth p w f t d).wale p =
      { (b.wale p).decided f t d with micro := { ((b.wale p).decided f t d).micro with field := 0, held := none } } := by
  have hvals : p.val ≠ w.val := fun k => h (Fin.ext k)
  rw [Block.branchBoth, Block.wale_modWale, if_neg (Ne.symm hvals), Block.wale_modWale, if_pos rfl]
/-- The wale of the DBT after it. -/
theorem wale_branchBoth_own {b : Block} {p w : WaleId} {f : Reg} {t : BitVec 14} {d : Bool} :
    (b.branchBoth p w f t d).wale w = ((b.wale w).decided f t d).issued true := by rw [Block.branchBoth, Block.wale_modWale, if_pos rfl]

/-- A draw gives as many bytes as were asked for. -/
theorem length_draw (b : Block) (n : Nat) : (b.draw n).length = n := by
  unfold Block.draw
  split <;> simp [Block.anyBytes]
/-! ### The bytes a DRAW gets (R34, R48) -/

/-- A wale beside one other of its job repeats what that one has drawn at the same place. -/
theorem drawFor_mate {b : Block} {w v : WaleId} {j : Job} {n : Nat} (hj : (b.wale w).job.bind b.job = some j) (hv : v ≠ w)
    (hw : j.wales = [w, v] ∨ j.wales = [v, w]) (h2 : (b.wale w).second = false) (hn : (b.wale w).micro.drawn.length + n ≤ (b.wale v).micro.drawn.length) :
    b.drawFor w n = (sub (b.wale v).micro.drawn (b.wale w).micro.drawn.length n, false) := by
  have hmates : (((b.wale w).job.bind b.job).map (fun j => j.wales.filter (fun i : WaleId => i != w))).getD [] = [v] := by
    rcases hw with h | h <;> simp [hj, h, hv]
  simp only [Block.drawFor, hmates, h2]
  simp [hn]
/-- A wale alone in its job takes the next bytes of the stream. -/
theorem drawFor_alone {b : Block} {w : WaleId} {n : Nat} (hj : ∀ j, (b.wale w).job.bind b.job = some j → j.wales = [w])
    (h2 : (b.wale w).second = false) (hn : 0 < n) : b.drawFor w n = (b.draw n, true) := by
  have hmates : (((b.wale w).job.bind b.job).map (fun j => j.wales.filter (fun i : WaleId => i != w))).getD [] = [] := by
    cases hb : (b.wale w).job.bind b.job with
    | none => rfl
    | some j => simp [hj j hb]
  have hlong : ¬ (b.wale w).micro.drawn.length + n ≤ 0 := by omega
  simp only [Block.drawFor, hmates, h2]
  simp [hlong]

/-! ### RELEASE (R119) -/

/-- The release of the one wale of a job presents its result. -/
theorem settleRelease_alone {c : Block} {j : Job} {w : WaleId} (hw : j.wales = [w]) (ht : j.timeRed = false) (hn : j.width ≤ 1)
    (hp : c.partWales j.id 0 = [w]) (hr : (c.wale w).micro.released.isSome = true) :
    c.settleRelease j = c.present j.id (c.runResult j (c.wale w).presents) := by
  have hone : max 1 j.width = 1 := by omega
  have hrel : c.partReleased j 0 = true := by simp [Block.partReleased, hp, hr]
  have hpres : c.partPresents j 0 = some (c.wale w).presents := by simp [Block.partPresents, hp]
  simp only [Block.settleRelease, hw, ht, hone]
  by_cases hs : (c.wale w).presents.2.2.1 = St.success <;> simp [hrel, hpres, hs]
/-- A microword leaves each part its wales. -/
theorem partWales_modWale (b : Block) (w : Nat) (f : Wale → Wale) (hj : (f (b.wale w)).job = (b.wale w).job) (hp : (f (b.wale w)).part = (b.wale w).part)
    (id k : Nat) : (b.modWale w f).partWales id k = b.partWales id k := by
  unfold Block.partWales
  congr 1
  funext i
  rw [Block.wale_modWale]
  split
  · next h => rw [hj, hp, h]
  · rfl

/-- RELEASE of the one wale of a job: the run's result is presented. -/
theorem exec_release_alone {s : State} {w : WaleId} {g : Reg} {j : Job} (hi : Issues s w (.release w g)) (hS : (s.current w).regS g = false)
    (hj : (s.current w).job.bind s.toBlock.job = some j) (hw : j.wales = [w]) (ht : j.timeRed = false)
    (hr : (s.current w).micro.released = none) (hn : j.width ≤ 1) (hp : s.toBlock.partWales j.id 0 = [w]) :
    let x := s.current w
    let y : Wale := { x with micro := { x.micro with issuing := false, released := some ((x.reg g).setWidth 16, ((x.reg g) >>> 16).setWidth 32) } }
    let c := (s.issued w y).toBlock
    exec (.release w g) s = .next (s.to (c.present j.id (c.runResult j y.presents))) := by
  intro x y c
  have hrun : s.toBlock.micro w (.release w g) (fun x => do
      check (x.regS g) 0x103
      .ok { x with micro := { x.micro with issuing := false, released := some ((x.reg g).setWidth 16, ((x.reg g) >>> 16).setWidth 32) } }) = c :=
    (done_inj (micro_ok hi (check_bind_ok hS))).symm
  have hat : c.wale w = y.issued ((s.toBlock.wale w).atLast w) := (Block.wale_modWale s.toBlock w w (fun _ => _)).trans (if_pos rfl)
  have hjob : (c.wale w).job.bind c.job = some j := by rw [hat]; exact hj
  have hwas : (s.toBlock.wale w).micro.released.isNone = true := by rw [show (s.toBlock.wale w).micro.released = none from hr]; rfl
  have hnow : (c.wale w).micro.released.isSome = true := by rw [hat]; rfl
  have hparts : c.partWales j.id 0 = [w] := (partWales_modWale s.toBlock w (fun _ => y.issued _) rfl rfl j.id 0).trans hp
  have hend : c.settleRelease j = c.present j.id (c.runResult j y.presents) :=
    (settleRelease_alone hw ht hn hparts hnow).trans (by rw [hat]; rfl)
  simp only [exec, execRelease, hrun, hjob, hwas, hnow, Bool.and_self, if_true, hend]
  rfl

/-! ### DRAW (R34, R275) -/

/-- What a DRAW of given bytes does to its wale. -/
def Wale.drawInto (d : Bytes) (o off len : Reg) (nx : Nx) (x : Wale) : Except W32 Wale := do
  let ob ← x.named o
  let a ← x.addrReg off
  let l ← x.addrReg len
  check (decide (ob.len < a + l)) 0x10E
  x.inSpan ob a l
  let x := x.store ob a d true
  Wale.after nx { x with micro := { x.micro with drawn := x.micro.drawn ++ d } }
/-- The wale after it. -/
def Wale.drew (x : Wale) (d : Bytes) (o off : Reg) : Wale :=
  let y := x.store (x.micro.o[o]) (x.reg off).toNat d true
  { y with micro := { y.micro with drawn := y.micro.drawn ++ d } }
/-- A DRAW into an object that holds its bytes goes through. -/
theorem drawInto_ok {x : Wale} {o off len : Reg} {nx : Nx} (d : Bytes) (hnx : x.roomFor nx) (hoff : x.regS off = false) (hlen : x.regS len = false)
    (hin : x.inObj o (x.reg off).toNat (x.reg len).toNat) (hfit : (x.reg off).toNat + (x.reg len).toNat ≤ (x.micro.o[o]).len) :
    x.drawInto d o off len nx = .ok ((x.drew d o off).past nx) :=
  (bind_ok (named_ok hin.1)).trans ((bind_ok (addrReg_ok hoff)).trans ((bind_ok (addrReg_ok hlen)).trans ((check_bind_ok (short_false hfit)).trans
    ((bind_ok (span_ok hin)).trans (after_changed hnx rfl rfl)))))
/-- A DRAW whose length is below 2^20 draws as many bytes. -/
theorem exec_draw {s : State} {w : WaleId} {o off len : Reg} {nx : Nx} {d : Bytes} {fresh : Bool} (hn : ((s.current w).reg len).toNat < 1048576)
    (hd : s.toBlock.drawFor w ((s.current w).reg len).toNat = (d, fresh)) :
    exec (.draw w o off len nx) s =
      let b' := s.toBlock.micro w (.draw w o off len nx) (Wale.drawInto d o off len nx)
      let ran := s.toBlock.issues w && decide ((s.toBlock.wale w).micro.drawn.length < (b'.wale w).micro.drawn.length)
      done (if s.toBlock.issues w && fresh && !s.toBlock.serves (w.val / 16) then s.toBlock
        else if ran && fresh then b'.seedDraw (w.val / 16) ((s.current w).reg len).toNat else b') s := by
  have hmod : ((s.toBlock.wale w).during.reg len).toNat % 2 ^ 20 = ((s.current w).reg len).toNat := Nat.mod_eq_of_lt hn
  simp only [exec, execDraw, hmod, hd]
  rfl
/-- Settles O16: each clause reads off the instruction's function, whose job, partner or seeder the hypotheses name. -/
theorem jobMicrowords : Obligations.JobMicrowords := by
  intro s w nx b x
  refine ⟨?_, fun j hj hnx => ⟨fun o ho => ⟨fun hk hin => ?_, fun hk => ?_⟩, ?_⟩, fun hn hc o ho => ?_, ?_, ?_, ?_, ?_⟩
  · intro j hj hst hph hi hr hsp
    have hgo : s.toBlock.startWork w = b.modWale w (fun y => y.begin j b.now none [] []) := by
      have hj' : (s.toBlock.wale w).job.bind s.toBlock.job = some j := hj
      have hst' : (s.toBlock.wale w).st = .running := hst
      have hi' : (s.toBlock.wale w).micro.issuing = false := hi
      have hr' : (s.toBlock.wale w).micro.released = none := hr
      have hsp' : (s.toBlock.wale w).spells w (.waitWork w) = true := hsp
      simp only [Block.startWork, hj', hst', hph, hi', hr', hsp']
      rfl
    exact congrArg (fun c => done c s) hgo
  · have hok : (match (s.toBlock.wale w).job.bind s.toBlock.job with | some j => j.permitsKey | none => false) = true := by
      rw [show (s.toBlock.wale w).job.bind s.toBlock.job = some j from hj]; exact hk
    exact does_of _ rfl ((bind_ok (named_ok ho)).trans ((check_bind_ok (congrArg not hok)).trans ((bind_ok (span_ok hin)).trans (after_changed hnx rfl rfl))))
  · have hno : (match (s.toBlock.wale w).job.bind s.toBlock.job with | some j => j.permitsKey | none => false) = false := by
      rw [show (s.toBlock.wale w).job.bind s.toBlock.job = some j from hj]; exact hk
    exact checks_of _ rfl ((bind_ok (named_ok ho)).trans (check_bind_error (congrArg not hno)))
  · intro o off len hoff hlen a n hin hfit hcap
    have hfits : (decide ((x.micro.o[o]).len < a + n) ||
        decide (((((s.toBlock.wale w).job.bind s.toBlock.job).map (·.desc.outCap)).getD 0) < x.micro.emitted.length + n)) = false := by
      rw [show (s.toBlock.wale w).job.bind s.toBlock.job = some j from hj, short_false hfit]
      exact short_false hcap
    exact does_of _ rfl ((bind_ok (named_ok hin.1)).trans ((bind_ok (addrReg_ok hoff)).trans ((bind_ok (addrReg_ok hlen)).trans
      ((check_bind_ok hfits).trans ((bind_ok (span_ok hin)).trans (after_changed hnx rfl rfl))))))
  · refine does_of _ rfl ?_
    have hown : ¬ (s.current w).micro.customer = true := by rw [show (s.current w).micro.customer = false from hc]; decide
    exact (if_neg hown).trans ((bind_ok (named_ok ho)).trans (next_ok (roomFor_of_eq hn rfl rfl)))
  · intro j f t agree hj hc ht hn y
    refine ⟨fun hpair h2 => does_dbt hj hc ht hn hpair h2, fun p hp => ⟨fun hlead hi => ?_, fun hlead hi d hd => ⟨fun hbad => ?_, fun heq hagree hne hpt hpn => ?_⟩⟩⟩
    · refine (exec_dbt_pair hi hj hc hp).trans ?_
      rw [if_pos (show (s.toBlock.wale w).lead = true from hlead)]
      rfl
    · have hno : (agree && d == (s.toBlock.wale w).flag f) = false := by
        rcases hbad with h | h
        · have : (d == (s.toBlock.wale w).flag f) = false := beq_false_of_ne h
          rw [this, Bool.and_false]
        · rw [h]; rfl
      refine (exec_dbt_pair hi hj hc hp).trans ?_
      rw [if_neg (by rw [show (s.toBlock.wale w).lead = false from hlead]; decide), show (s.toBlock.wale p).micro.presented = some d from hd]
      dsimp only
      rw [hno]
      rfl
    · have hyes : (agree && d == (s.toBlock.wale w).flag f) = true := by
        rw [hagree, heq]; exact beq_self_eq_true _
      have hflag : (s.toBlock.wale w).flag f = d := heq.symm
      refine ⟨s.to (s.toBlock.branchBoth p w f t d), (exec_dbt_pair hi hj hc hp).trans ?_, ?_, ?_, ?_, ?_, rfl⟩
      · rw [if_neg (by rw [show (s.toBlock.wale w).lead = false from hlead]; decide), show (s.toBlock.wale p).micro.presented = some d from hd]
        dsimp only
        rw [hyes, if_pos rfl, hflag, decideBoth_ok d hpt hpn ht hn]
        rfl
      · exact congrArg (fun z : Wale => z.micro.pc) (wale_branchBoth_partner hne)
      · exact congrArg (fun z : Wale => z.micro.pc) wale_branchBoth_own
      · exact (congrArg (fun z : Wale => z.flagS f) (wale_branchBoth_partner hne)).trans (flagS_decided ..)
      · exact (congrArg (fun z : Wale => z.micro.decisions) wale_branchBoth_own).trans (decisions_decided (s.toBlock.wale w) f t d)
  · intro g j hi hS hj hw ht hr hn hp
    exact exec_release_alone hi hS hj hw ht hr hn hp
  · intro j v hj hv hw h2 hnx o off len hoff hlen a n hn hin hfit hdrawn d y hi
    have hd : s.toBlock.drawFor w n = (d, false) := drawFor_mate hj hv hw h2 hdrawn
    refine (exec_draw hn hd).trans ?_
    simp only [Bool.and_false, Bool.false_and, Bool.false_eq_true, if_false]
    exact micro_ok hi (drawInto_ok d hnx hoff hlen hin hfit)
  · intro hj h2 hnx hs o off len hoff hlen a n hpos hn hin hfit hi d y
    have hd : s.toBlock.drawFor w n = (d, true) := drawFor_alone hj h2 hpos
    have hb : s.toBlock.micro w (.draw w o off len nx) (Wale.drawInto d o off len nx) = (s.issued w ((x.drew d o off).past nx)).toBlock :=
      (done_inj (micro_ok hi (drawInto_ok d hnx hoff hlen hin hfit))).symm
    have hran : (s.toBlock.wale w).micro.drawn.length < ((s.issued w ((x.drew d o off).past nx)).toBlock.wale w).micro.drawn.length := by
      have hat : (s.issued w ((x.drew d o off).past nx)).toBlock.wale w = ((x.drew d o off).past nx).issued ((s.toBlock.wale w).atLast w) :=
        (Block.wale_modWale s.toBlock w w (fun _ => _)).trans (if_pos rfl)
      have hdr : (((x.drew d o off).past nx).issued ((s.toBlock.wale w).atLast w)).micro.drawn = (s.toBlock.wale w).micro.drawn ++ d := by
        cases nx <;> rfl
      rw [hat, hdr, List.length_append, length_draw]
      omega
    have hserve : s.toBlock.serves (w.val / 16) = true := hs
    refine (exec_draw hn hd).trans ?_
    simp only [hb, hi.1, hserve, hran, Bool.and_true, decide_true, Bool.not_true, Bool.and_false, Bool.false_eq_true, if_false, if_true]
    rfl

end Sys2Proof.Machine

/-! SUPPORT. The dispatcher: what a level serves, what GRANT starts, PROMOTION, RESERVATION and PREEMPTION (chapter 06). -/
namespace Sys2Proof.Machine

/-! ### The pass over the slices of a level (R135 to R137) -/

/-- Blocks that differ in deficits and round-robin pointers alone. -/
def SamePass (b b' : Block) : Prop := { b' with dsp := { b'.dsp with deficit := b.dsp.deficit, pointer := b.dsp.pointer } } = b
theorem SamePass.refl (b : Block) : SamePass b b := rfl
theorem SamePass.trans {b c d : Block} (h : SamePass b c) (k : SamePass c d) : SamePass b d := by
  unfold SamePass at h k ⊢
  rw [← h, ← k]
theorem SamePass.arrive {b c : Block} (h : SamePass b c) (lvl s : Nat) : SamePass b (c.arrive lvl s) := h
theorem SamePass.jobs {b c : Block} (h : SamePass b c) : c.jobs = b.jobs := by
  unfold SamePass at h
  rw [← h]
/-- The lists are the same. -/
theorem SamePass.listAt {b c : Block} (h : SamePass b c) (lvl s : Nat) : c.listAt lvl s = b.listAt lvl s := by unfold Block.listAt; rw [h.jobs]

/-- Only these two fields are other. -/
theorem SamePass.exists_eq {b c : Block} (h : SamePass b c) : ∃ d p, c = { b with dsp := { b.dsp with deficit := d, pointer := p } } :=
  ⟨c.dsp.deficit, c.dsp.pointer, by unfold SamePass at h; rw [← h]⟩

/-- What a level's list holds: jobs that wait on it. -/
theorem mem_listAt {b : Block} {lvl s : Nat} {j : Job} (h : j ∈ b.listAt lvl s) : j ∈ b.jobs ∧ j.listed = true ∧ j.level.val = lvl ∧ j.list = s := by
  simp only [Block.listAt, List.mem_append, List.mem_filter, Bool.and_eq_true, beq_iff_eq] at h
  rcases h with ⟨⟨hm, ⟨hl, hv⟩, hs⟩, _⟩ | ⟨⟨hm, ⟨hl, hv⟩, hs⟩, _⟩ <;> exact ⟨hm, hl, hv, hs⟩
/-- Job `id` is the first that fits among the first eight of its list at a level. -/
def FirstFit (fit : Job → Bool) (lvl id : Nat) (b : Block) : Prop :=
  ∃ j ∈ b.jobs, j.id = id ∧ fit j = true ∧ j.listed = true ∧ j.level.val = lvl ∧ ((b.listAt lvl j.list).take 8).find? fit = some j
/-- The one found first in a list is such a job. -/
theorem firstFit_of_find {fit : Job → Bool} {lvl s : Nat} {b c : Block} {j : Job} (hc : SamePass b c)
    (h : ((c.listAt lvl s).take 8).find? fit = some j) : FirstFit fit lvl j.id b := by
  rw [hc.listAt] at h
  obtain ⟨hm, hl, hv, hs⟩ := mem_listAt (List.mem_of_mem_take (List.mem_of_find?_eq_some h))
  exact ⟨j, hm, rfl, List.find?_some h, hl, hv, hs ▸ h⟩
/-- Serving a level picks such a job, if any, and moves deficits and the pointer alone. -/
theorem serve_spec (fit : Job → Bool) (lvl : Nat) (b : Block) (l : List Nat) : ∀ c, SamePass b c →
    SamePass b (Block.serve fit lvl l c).1 ∧ ∀ id, (Block.serve fit lvl l c).2 = some id → FirstFit fit lvl id b := by
  induction l with
  | nil => exact fun c hc => ⟨hc, fun id h => nomatch h⟩
  | cons s r ih =>
    intro c hc
    have hd : SamePass b (if c.pointer lvl = { slice := s, rests := true } then c else c.arrive lvl s) := by split <;> exact hc
    revert hd
    rw [Block.serve]
    generalize (if c.pointer lvl = { slice := s, rests := true } then c else c.arrive lvl s) = d
    intro hd
    dsimp only
    split
    · next j hj =>
      split
      · exact ⟨hd, fun id h => by cases h; exact firstFit_of_find hd hj⟩
      · exact ih d hd
    · split
      · next j hj =>
        refine ⟨hd, fun id h => ?_⟩
        cases h
        obtain ⟨t, _, ht⟩ := List.exists_of_findSome?_eq_some hj
        exact firstFit_of_find hd (Option.filter_eq_some_iff.mp ht).1
      · exact ⟨hd, fun id h => nomatch h⟩

/-- Settles O21, by the induction over the slices that a level's pass visits. -/
theorem servedJobFits : Obligations.ServedJobFits := by
  intro fit lvl id l b b' h
  obtain ⟨hsame, hfit⟩ := serve_spec fit lvl b l b (SamePass.refl b)
  rw [h] at hsame hfit
  exact ⟨hfit id rfl, hsame⟩

/-! ### GRANT (R137, R144, R145, R217) -/

/-- A job that needs no new DDR5 object starts as planned. -/
theorem give_start {b : Block} {w id : Nat} {j : Job} {p : Plan} (hj : b.job id = some j) (hd : j.ddrNeed = 0) (hp : b.plan j w = some p) :
    b.give w id = b.startJob j p := by
  simp only [Block.give, hj, hd, hp]
  rw [if_neg (fun h => h.2.1 rfl)]
/-- One whose DDR5 object its slice has no room for fails. -/
theorem give_quota {b : Block} {w id : Nat} {j : Job} (hj : b.job id = some j) (hr : j.phase = .ready) (hd : j.ddrNeed ≠ 0)
    (hq : (b.slice j.slice).quota.ddr5 * 256 < b.ddrOf j.slice + b.ddrDue j.slice + j.ddrNeed) : b.give w id = b.failJob id St.quota 5 := by
  simp only [Block.give, hj]
  rw [if_pos ⟨hr, hd, hq⟩]
/-- The reserved job that fits is given. -/
theorem grantWale_reserved {b : Block} {w : WaleId} {r : Job} (ha : b.asks w = true) (hd : b.dropWithdrawn = b) (hr : b.reservedJob (w.val / 16) = some r)
    (hf : (b.plan r w).isSome = true) : b.grantWale w = b.give w r.id := by
  simp only [Block.grantWale, ha, hd, hr, Option.filter_some, hf]
  rfl
/-- Where none is reserved, or it does not fit, a level serves. -/
theorem grantWale_served {b b' : Block} {w : WaleId} {lo : Nat} {id : Option Nat} (ha : b.asks w = true) (hd : b.dropWithdrawn = b)
    (hr : match b.reservedJob (w.val / 16) with | some r => (b.plan r w).isSome = false ∧ lo = r.level.val + 1 | none => lo = 0)
    (hs : Block.serveFrom (fun j => (b.plan j w).isSome) lo 8 b = (b', id)) :
    let c := b'.passedBy (b.examined lo (id.bind b.job)) (fun j => (b.plan j w).isSome) (fun j => b.fitsElse j w)
    b.grantWale w = id.elim c (c.give w) := by
  intro c
  have hnone : (b.reservedJob (w.val / 16)).filter (fun j => (b.plan j w).isSome) = none := by
    cases h : b.reservedJob (w.val / 16) with
    | none => rfl
    | some r =>
      rw [h] at hr
      exact (Option.filter_eq_none_iff.mpr (by simpa using hr.1))
  have hlo : ((b.reservedJob (w.val / 16)).map (fun r => r.level.val + 1)).getD 0 = lo := by
    cases h : b.reservedJob (w.val / 16) with
    | none => rw [h] at hr; exact hr.symm
    | some r => rw [h] at hr; exact hr.2.symm
  simp only [Block.grantWale, ha, hd, hnone, hlo, hs]
  cases id <;> rfl
/-- The dispatcher's own request, for a job that needs no wale. -/
theorem grantEmpty_served {b b' : Block} {id : Option Nat} (hd : b.dispatches = true) (hi : b.pwr.ioutHold = false) (hw : b.dropWithdrawn = b)
    (hs : Block.serveFrom b.startsEmpty 0 8 b = (b', id)) :
    let c := b'.passedBy (b.examined 0 (id.bind b.job)) b.startsEmpty (fun _ => false)
    b.grantEmpty = (id.bind c.job).elim c c.startEmpty := by
  intro c
  simp only [Block.grantEmpty, hd, hi, hw, hs]
  cases id.bind c.job <;> rfl

/-- Settles O22, by the cases of the dispatcher's answer. -/
theorem grantServes : Obligations.GrantServes := by
  intro s w b fit
  refine ⟨fun ha => ?_, fun ha hd => ⟨?_, ?_⟩, fun hdis hi hw b' id hs => ?_, fun hno => ?_⟩
  · have h : s.toBlock.grantWale w = s.toBlock := by rw [Block.grantWale, show s.toBlock.asks w = false from ha]; rfl
    exact congrArg (fun c => done c s) h
  · intro r p hr hjob hneed hp
    have hgrant := (grantWale_reserved ha hd hr (by rw [hp]; rfl)).trans (give_start hjob hneed hp)
    exact congrArg (fun c => done c s) hgrant
  · intro lo hlo b' id hs c
    have hgrant : s.toBlock.grantWale w = id.elim c (c.give w) := grantWale_served ha hd hlo hs
    refine ⟨fun hid => ?_, fun n j hid hj => ⟨fun p hneed hp => ?_, fun hph hneed hq => ?_⟩⟩
    · subst hid; exact congrArg (fun c => done c s) hgrant
    · subst hid; exact congrArg (fun c => done c s) (hgrant.trans (give_start hj hneed hp))
    · subst hid; exact congrArg (fun c => done c s) (hgrant.trans (give_quota hj hph hneed hq))
  · intro c
    have hgrant : s.toBlock.grantEmpty = (id.bind c.job).elim c c.startEmpty := grantEmpty_served hdis hi hw hs
    refine ⟨fun hid => ?_, fun n j hid hj => ?_⟩
    · subst hid; exact congrArg (fun c => done c s) hgrant
    · subst hid
      have hstart : s.toBlock.grantEmpty = c.startEmpty j := by rw [hgrant, Option.bind_some, hj]; rfl
      refine ⟨fun he => ?_, fun he => ?_⟩
      · exact congrArg (fun c => done c s) (hstart.trans (by rw [Block.startEmpty, he]; rfl))
      · exact congrArg (fun c => done c s) (hstart.trans (by rw [Block.startEmpty, he]; rfl))
  · have h : s.toBlock.grantEmpty = s.toBlock := by
      rcases hno with h | h
      · rw [Block.grantEmpty, show s.toBlock.dispatches = false from h]; rfl
      · rw [Block.grantEmpty, show s.toBlock.pwr.ioutHold = true from h, Bool.or_true]; rfl
    exact congrArg (fun c => done c s) h

/-! ### PROMOTION and RESERVATION (R134, R139) -/

/-- The pass moves on from an empty list, deficits and the pointer alone. -/
theorem dryDeficit_same (b : Block) (lvl s : Nat) : SamePass b (b.dryDeficit lvl s) := by
  unfold Block.dryDeficit
  dsimp only
  split
  · rfl
  · split <;> rfl
/-- The block with a job one level up. -/
def promoted (b : Block) (id : Nat) (j : Job) : Block :=
  let b' := (b.advanceTo j.levelAt b.promoteNs).dryDeficit (j.level + 1 : Fin 8) j.list
  let b' := b'.modJob id (fun k => { k with level := j.level + 1, levelAt := b'.now })
  { b' with dsp := { b'.dsp with promotions := b'.dsp.promotions.add 1 } }
/-- PROMOTION of a job below its slice's ceiling, as its function writes it. -/
theorem exec_promotion {s : State} {id : Nat} {j : Job} (hj : s.toBlock.job id = some j) (hl : j.listed = true) (hp : s.toBlock.promoteNs ≠ 0)
    (hc : j.level < (s.toBlock.slice j.slice).ceiling) :
    exec (.promotion id) s = done ((promoted s.toBlock id j).dryDeficit j.level j.list) s := by
  have hp' : (s.toBlock.promoteNs == 0) = false := by simpa using hp
  simp only [exec, execPromotion, hj, hl, hp', hc]
  rfl

/-- What PROMOTION says of the jobs, and what it leaves. -/
theorem promotion_spec (s : State) (id : Nat) (j : Job) (hj : s.toBlock.job id = some j) (hl : j.listed = true) (hp : s.toBlock.promoteNs ≠ 0)
    (hc : j.level < (s.toBlock.slice j.slice).ceiling) :
    let b := s.toBlock
    ∃ t, exec (.promotion id) s = .next t ∧ t.pending = s.pending ∧
      t.now = (if b.elapsed j.levelAt < b.promoteNs then j.levelAt + BitVec.ofNat 64 b.promoteNs else b.now) ∧
      t.jobs = b.jobs.map (fun k => if k.id = id then { k with level := j.level + 1, levelAt := t.now } else k) ∧
      t.dsp.promotions = b.dsp.promotions.add 1 ∧ t.kst = b.kst ∧ t.slices = b.slices ∧ t.quads = b.quads ∧ t.chans = b.chans ∧ t.link = b.link := by
  intro b
  refine ⟨_, exec_promotion hj hl hp hc, rfl, ?_⟩
  obtain ⟨d2, p2, h2⟩ := (dryDeficit_same (promoted s.toBlock id j) j.level j.list).exists_eq
  obtain ⟨d1, p1, h1⟩ := (dryDeficit_same (s.toBlock.advanceTo j.levelAt s.toBlock.promoteNs) (j.level + 1 : Fin 8) j.list).exists_eq
  dsimp only
  rw [h2]
  unfold promoted
  rw [h1]
  unfold Block.advanceTo Block.setTime
  split <;> exact ⟨rfl, rfl, rfl, rfl, rfl, rfl, rfl, rfl⟩

/-! #### RESERVATION -/

/-- RESERVATION's candidate quadrants, as its function filters them. -/
def Block.mayReserve (b : Block) (j : Job) : List Nat :=
  (List.range 4).filter (fun q => b.quadAvail q && (b.reservedJob q).isNone && (j.phase != .spilled || q == j.quad) &&
    (j.phase == .spilled || (!b.fenceDue (.quad q) && (!j.entry.draws || b.delivers q))))
/-- They are those that may hold the job. -/
theorem mem_mayReserve {b : Block} {j : Job} {q : Nat} : q ∈ b.mayReserve j ↔ q < 4 ∧ b.quadAvail q = true ∧ b.reservedJob q = none ∧
    (j.phase = .spilled → q = j.quad) ∧ (j.phase ≠ .spilled → b.fenceDue (.quad q) = false ∧ (j.entry.draws = true → b.delivers q = true)) := by
  simp only [Block.mayReserve, List.mem_filter, List.mem_range, Bool.and_eq_true, Bool.or_eq_true, Option.isNone_iff_eq_none, bne_iff_ne, beq_iff_eq,
    Bool.not_eq_true', and_assoc]
  by_cases hs : j.phase = .spilled <;> cases hd : j.entry.draws <;> simp [hs]
/-- Their numbers rise. -/
theorem mayReserve_rises (b : Block) (j : Job) : (b.mayReserve j).Pairwise (· < ·) := (List.pairwise_lt_range).filter _
/-- The quadrant chosen among them. -/
def Block.bestQuad (b : Block) (j : Job) (q0 : Nat) (r : List Nat) : Nat :=
  r.foldl (fun a q => if b.missingFree j a < b.missingFree j q then q else a) q0
/-- It is one of them, has the most of what the job misses, and is the first among equals. -/
theorem bestQuad_spec (b : Block) (j : Job) (q0 : Nat) (r : List Nat) (h : (q0 :: r).Pairwise (· < ·)) :
    b.bestQuad j q0 r ∈ q0 :: r ∧ ∀ p ∈ q0 :: r, b.missingFree j p < b.missingFree j (b.bestQuad j q0 r) ∨
      (b.missingFree j p = b.missingFree j (b.bestQuad j q0 r) ∧ b.bestQuad j q0 r ≤ p) := by
  have hasymm (a c : Nat) : decide (b.missingFree j a < b.missingFree j c) = true → decide (b.missingFree j c < b.missingFree j a) = false := by
    rw [decide_eq_true_eq, decide_eq_false_iff_not]
    omega
  have htrans (a c d : Nat) : decide (b.missingFree j a < b.missingFree j c) = false → decide (b.missingFree j c < b.missingFree j d) = false →
      decide (b.missingFree j a < b.missingFree j d) = false := by
    simp only [decide_eq_false_iff_not]
    omega
  have hbest := foldl_least hasymm htrans r q0
  have hfirst := foldl_first htrans id r q0 h hbest.2
  simp only [decide_eq_true_eq, decide_eq_false_iff_not, id] at hbest hfirst
  obtain ⟨hmem, hall⟩ := hbest
  refine ⟨hmem, fun p hp => ?_⟩
  have hmost := hall p hp
  have hlow := hfirst p hp
  unfold Block.bestQuad
  omega
/-- RESERVATION, as its function writes it. -/
theorem exec_reservation {s : State} {id : Nat} {j : Job} (hj : s.toBlock.job id = some j) :
    let b := s.toBlock
    exec (.reservation id) s = done (
      if !j.listed ∨ j.ended ∨ j.entry.wales = 0 ∨ b.anyFit j ∨ !(List.range 64).any (b.fitsElse j) ∨
         (List.range 4).any (fun q => (b.reservedJob q).any (fun r => r.id == id)) then b
      else match j.passedOver, b.mayReserve j with
        | some t, q0 :: r =>
          let b' := b.advanceTo t b.reserveNs
          { b' with dsp := { b'.dsp with reserved := Tab.put b'.dsp.reserved (b.bestQuad j q0 r) id } }
        | _, _ => b) s := by
  simp only [exec, execReservation, hj]
  rfl

/-- A job that is reserved already, that fits, or that nothing but these kept, is not reserved. -/
theorem exec_reservation_idle {s : State} {id : Nat} {j : Job} (hj : s.toBlock.job id = some j)
    (h : (∀ w < 64, s.toBlock.fitsElse j w = false) ∨ j.passedOver = none) : exec (.reservation id) s = .next s := by
  refine (exec_reservation hj).trans (congrArg (fun c => done c s) ?_)
  rcases h with h | h
  · have hno : (List.range 64).any (s.toBlock.fitsElse j) = false := by
      rw [List.any_eq_false]
      intro w hw
      rw [h w (List.mem_range.mp hw)]
      decide
    rw [if_pos (by rw [hno]; exact .inr (.inr (.inr (.inr (.inl rfl)))))]
  · rw [h]
    split <;> rfl

/-- Settles O23: PROMOTION's effects, and RESERVATION's choice as the best of the rising candidate quadrants. -/
theorem promotionAndReservation : Obligations.PromotionAndReservation := by
  refine ⟨fun s id j hj => ⟨fun hno => ?_, fun hl hp hc => promotion_spec s id j hj hl hp hc⟩, ?_⟩
  · have hcond : (!j.listed || s.toBlock.promoteNs == 0 || !decide (j.level < (s.toBlock.slice j.slice).ceiling)) = true := by
      rcases hno with h | h | h
      · simp [h]
      · simp [h]
      · simp [Fin.not_lt.mpr h]
    have hstay : exec (.promotion id) s = done s.toBlock s := by
      simp only [exec, execPromotion, hj]
      rw [if_pos hcond]
    exact hstay
  · intro s id j hj hl he hw b mayHold
    refine ⟨fun h => exec_reservation_idle hj (.inl h), fun hfit helse hres => ⟨fun h => exec_reservation_idle hj (.inr h), fun at_ hat hhold => ?_⟩⟩
    have hany : (List.range 64).any (s.toBlock.fitsElse j) = true := by
      obtain ⟨w, hw, h⟩ := helse
      exact List.any_eq_true.mpr ⟨w, List.mem_range.mpr hw, h⟩
    have hfree : (List.range 4).any (fun q => (s.toBlock.reservedJob q).any (fun r => r.id == id)) = false := by
      rw [List.any_eq_false]
      intro q hq
      rw [hres q (List.mem_range.mp hq)]
      decide
    have hgo := exec_reservation hj
    have hcond : ¬ ((!j.listed) = true ∨ j.ended = true ∨ j.entry.wales = 0 ∨ s.toBlock.anyFit j = true ∨ (!(List.range 64).any (s.toBlock.fitsElse j)) = true ∨
        (List.range 4).any (fun q => (s.toBlock.reservedJob q).any (fun r => r.id == id)) = true) := by
      rw [hl, he, hany, hfree, show s.toBlock.anyFit j = false from hfit]
      simp [hw]
    dsimp only at hgo
    rw [if_neg hcond, hat] at hgo
    have hrise := mayReserve_rises s.toBlock j
    have hcand : ∀ q, q ∈ s.toBlock.mayReserve j ↔ q < 4 ∧ mayHold q := fun q => mem_mayReserve
    cases hl : s.toBlock.mayReserve j with
    | nil =>
      obtain ⟨q, hq, hm⟩ := hhold
      have := (hcand q).mpr ⟨hq, hm⟩
      rw [hl] at this
      exact nomatch this
    | cons q0 r =>
      rw [hl] at hgo hrise hcand
      obtain ⟨hmem, hbest⟩ := bestQuad_spec s.toBlock j q0 r hrise
      obtain ⟨hlt, hm⟩ := (hcand _).mp hmem
      exact ⟨_, hlt, hm, fun p hp hmp => hbest p ((hcand p).mpr ⟨hp, hmp⟩), hgo⟩

/-! ### PREEMPTION (R151) -/

/-- The rank of a wale among the victims: the level of its job, then the bytes touched. -/
def Block.victimKey (b : Block) (j : Job) (w : WaleId) : Nat × Nat := (((b.victim j w).map (·.level.val)).getD 8, (b.wale w).touched)
/-- The wales that lead a victim part. -/
def Block.victims (b : Block) (j : Job) : List WaleId := (List.finRange 64).filter (fun w => (b.victim j w).isSome)
/-- The order that PREEMPTION compares by. -/
def Block.lesser (b : Block) (j : Job) (a c : WaleId) : Bool :=
  let key (w : WaleId) : Nat × Nat := (((b.victim j w).map (·.level.val)).getD 8, (b.wale w).touched)
  decide ((key c).1 < (key a).1) || ((key c).1 == (key a).1 && decide ((key c).2 < (key a).2))
theorem lesser_iff (b : Block) (j : Job) (a c : WaleId) : b.lesser j a c = true ↔ (b.victimKey j c).1 < (b.victimKey j a).1 ∨
    ((b.victimKey j c).1 = (b.victimKey j a).1 ∧ (b.victimKey j c).2 < (b.victimKey j a).2) := by
  simp [Block.lesser, Block.victimKey]
/-- Of two wales not both are the lesser, and what is not lesser than one that is not lesser than a third is not lesser than the third. -/
theorem lesser_asymm (b : Block) (j : Job) (a c : WaleId) (h : b.lesser j a c = true) : b.lesser j c a = false := by
  rw [← Bool.not_eq_true, lesser_iff]
  rw [lesser_iff] at h
  omega
theorem lesser_trans (b : Block) (j : Job) (a c d : WaleId) (h : b.lesser j a c = false) (k : b.lesser j c d = false) : b.lesser j a d = false := by
  rw [← Bool.not_eq_true, lesser_iff] at h k ⊢
  omega
/-- PREEMPTION, as its function writes it. -/
theorem exec_preemption {s : State} {id : Nat} {j : Job} (hj : s.toBlock.job id = some j) (hl : j.listed = true) (he : j.ended = false)
    (hw : j.entry.wales ≠ 0) (hd : s.toBlock.preemptDelta ≠ 0) (hf : s.toBlock.anyFit j = false) (hdis : s.toBlock.dispatches = true) :
    let b := s.toBlock.advanceTo j.readySince s.toBlock.preemptNs
    exec (.preemption id) s = done (match b.victims j with
      | [] => b
      | w :: r => ({ b with dsp := { b.dsp with preempts := b.dsp.preempts.add 1 } } : Block).modWale (r.foldl (fun (a c : WaleId) => if b.lesser j a c then c else a) w : WaleId)
          (fun x => { x with trapWanted := true })) s := by
  have hw' : (j.entry.wales == 0) = false := by simpa using hw
  have hd' : (s.toBlock.preemptDelta == 0) = false := by simpa using hd
  simp only [exec, execPreemption, hj, hl, he, hw', hd', hf, hdis]
  rfl

/-- Settles O24: the least victim is the best of the rising list of victims. -/
theorem preemptionPicksTheLeastVictim : Obligations.PreemptionPicksTheLeastVictim := by
  intro s id j hj hl he hw hd hf hdis b lvl
  have hgo := exec_preemption hj hl he hw hd hf hdis
  dsimp only at hgo
  have hmem : ∀ w, w ∈ b.victims j ↔ (b.victim j w).isSome = true := fun w => by simp [Block.victims]
  have hrise : (b.victims j).Pairwise (· < ·) := (List.pairwise_lt_finRange 64).filter _
  refine ⟨fun hno => ?_, fun ⟨w, hw⟩ => ?_⟩
  · have hnil : b.victims j = [] := List.eq_nil_iff_forall_not_mem.mpr (fun w hw => by have := (hmem w).mp hw; rw [hno w] at this; exact nomatch this)
    rw [show (s.toBlock.advanceTo j.readySince s.toBlock.preemptNs).victims j = [] from hnil] at hgo
    exact hgo
  · cases hl : b.victims j with
    | nil =>
      have := (hmem w).mpr hw
      rw [hl] at this
      exact nomatch this
    | cons w0 r =>
      rw [show (s.toBlock.advanceTo j.readySince s.toBlock.preemptNs).victims j = w0 :: r from hl] at hgo
      rw [hl] at hmem hrise
      obtain ⟨hin, hleast⟩ := foldl_least (lesser_asymm b j) (lesser_trans b j) r w0
      have hfirst := foldl_first (lesser_trans b j) Fin.val r w0 hrise hleast
      refine ⟨_, (hmem _).mp hin, fun v hv => ?_, hgo⟩
      have hno := hleast v ((hmem v).mpr hv)
      have hlow := hfirst v ((hmem v).mpr hv)
      generalize r.foldl (fun a c => if b.lesser j a c then c else a) w0 = m at hno hlow ⊢
      rw [← Bool.not_eq_true, lesser_iff] at hno
      rw [lesser_iff] at hlow
      have hrank : ∀ x : WaleId, (lvl x, (b.wale x).touched) = b.victimKey j x := fun x => rfl
      simp only [Prod.ext_iff] at hrank
      have hm := hrank m
      have hv := hrank v
      rw [Fin.le_def]
      omega

end Sys2Proof.Machine

/-! SUPPORT. What a draw from a seeder leaves alone: all but the state of the entropy units (chapter 11). -/
namespace Sys2Proof.Machine

/-- Blocks that differ in the state of the entropy units alone. -/
def SameButRng (b c : Block) : Prop := { c with rng := b.rng } = b
theorem SameButRng.refl (b : Block) : SameButRng b b := rfl
theorem SameButRng.trans {b c d : Block} (h : SameButRng b c) (k : SameButRng c d) : SameButRng b d := by
  unfold SameButRng at h k ⊢
  rw [← h, ← k]
/-- The wales are as they were. -/
theorem SameButRng.wale {b c : Block} (h : SameButRng b c) (w : Nat) : c.wale w = b.wale w := by unfold SameButRng at h; rw [← h]; rfl
/-- Steps over a list that each change the entropy units alone do so together. -/
theorem SameButRng.foldl {α : Type} {f : Block → α → Block} (h : ∀ b x, SameButRng b (f b x)) (l : List α) (b : Block) : SameButRng b (l.foldl f b) := by
  induction l generalizing b with
  | nil => exact .refl b
  | cons x r ih => exact (h b x).trans (ih (f b x))

theorem sameButRng_modSeeder (b : Block) (q : Nat) (f : Seeder → Seeder) : SameButRng b (b.modSeeder q f) := rfl
theorem sameButRng_takeBlocks (b : Block) (q n : Nat) : SameButRng b (b.takeBlocks q n) := rfl
theorem sameButRng_reseeded (b : Block) (q : Nat) : SameButRng b (b.reseeded q) := rfl
theorem sameButRng_relaySeed (b : Block) (q : Nat) (d : Fin 4) : SameButRng b (b.relaySeed q d) := by
  unfold Block.relaySeed
  dsimp only
  have hdonor := ((sameButRng_takeBlocks b d 3).trans (sameButRng_reseeded _ d)).trans
    (sameButRng_modSeeder _ d (fun x => { x with bytes := x.bytes + 48, since := 48 }))
  split
  · exact .refl b
  · refine hdonor.trans (.trans ?_ (sameButRng_modSeeder ..))
    split
    · exact sameButRng_reseeded ..
    · split <;> exact sameButRng_modSeeder ..
theorem sameButRng_reseedSeeder (b : Block) (q : Nat) : SameButRng b (b.reseedSeeder q) := by
  unfold Block.reseedSeeder
  split
  · exact sameButRng_relaySeed ..
  · split
    · exact (sameButRng_takeBlocks b q 3).trans (sameButRng_reseeded _ q)
    · exact .refl b
theorem sameButRng_seedRequest (b : Block) (q n : Nat) : SameButRng b (b.seedRequest q n) := by
  unfold Block.seedRequest
  dsimp only
  split
  · exact (sameButRng_reseedSeeder b q).trans rfl
  · rfl
/-- A draw changes the entropy units alone. -/
theorem sameButRng_seedDraw (b : Block) (q n : Nat) : SameButRng b (b.seedDraw q n) := .foldl (fun b _ => sameButRng_seedRequest b q _) _ b
/-- Serving the wale DRBGs that wait leaves each wale its job. -/
theorem job_serveSeeds (q : Nat) (w : Nat) (n : Nat) : ∀ b : Block, ((Block.serveSeeds q n b).wale w).job = (b.wale w).job := by
  induction n with
  | zero => exact fun b => rfl
  | succ n ih =>
    intro b
    rw [Block.serveSeeds]
    split
    · rfl
    · split
      · rfl
      · next v _ =>
        rw [ih, Block.wale_modWale]
        have hsame : ∀ i, (((b.modSeeder q (fun z => { z with queue := ((b.seeder q).queue.filter (fun (w : WaleId) => (b.wale w).drbgWant)).filter (· != v) })).seedDraw q 48).wale i) = b.wale i :=
          (sameButRng_seedDraw (b.modSeeder q _) q 48).wale
        split
        · next h => rw [hsame, ← h]
        · rw [hsame]
/-- And so does serving them all. -/
theorem job_serveRanks (b : Block) (q w : Nat) : ((b.serveRanks q).wale w).job = (b.wale w).job := job_serveSeeds ..

end Sys2Proof.Machine

/-! SUPPORT. The idle life of a wale, the comparators and monitors, and the crossbar's arbiters (chapters 04, 06 and 15). -/
namespace Sys2Proof.Machine

/-! ### Wipes, wakes and sleeps (R98, R99, R153, R276) -/

/-- A wake that cannot end does not. -/
theorem exec_waleWakeEnd_idle {s : State} {w : WaleId} (h : (s.toBlock.wale w).waking = false ∨ (s.toBlock.quad (w.val / 16)).pllLocked = false ∨
    ((s.toBlock.wale w).st ≠ .gated ∧ (s.toBlock.wale w).st ≠ .clockGated)) : exec (.waleWakeEnd w) s = .next s := by
  refine congrArg (fun c => done c s) (if_pos ?_)
  simpa [or_assoc] using h
/-- A woken wale without a job takes part in none. -/
theorem wokenJob_none {b : Block} {w : WaleId} (h : (b.wale w).job = none) : b.wokenJob w = b := by simp only [Block.wokenJob, h]

/-- What a wake that ends does. -/
theorem exec_wake {s : State} {w : WaleId} (hk : (s.toBlock.wale w).waking = true) (hp : (s.toBlock.quad (w.val / 16)).pllLocked = true)
    (hs : (s.toBlock.wale w).st = .gated ∨ (s.toBlock.wale w).st = .clockGated) :
    exec (.waleWakeEnd w) s = done (
      let b := s.toBlock
      let q := w.val / 16
      let seed := (b.wale w).st == .gated && b.delivers q
      let c := b.modWale w (fun y => { y with
        st := .warm, waking := false, idleSince := b.now, opmem := [], sTags := [],
        drbgSeeded := if y.st == .gated then seed else y.drbgSeeded,
        drbgLog := if seed then 6 else y.drbgLog, drbgWant := if seed then false else y.drbgWant, drbgUrgent := if seed then false else y.drbgUrgent,
        drbgSent := if seed then false else y.drbgSent })
      (if seed then (c.serveRanks q).seedDraw q 48 else c).wokenJob w) s := by
  refine congrArg (fun c => done c s) (if_neg ?_)
  rcases hs with h | h <;> simp [hk, hp, h]
/-- A wale that keeps its seed, or has none to take, wakes alone. -/
theorem exec_wake_unseeded {s : State} {w : WaleId} (hk : (s.toBlock.wale w).waking = true) (hp : (s.toBlock.quad (w.val / 16)).pllLocked = true)
    (hj : (s.toBlock.wale w).job = none)
    (h : (s.toBlock.wale w).st = .clockGated ∨ ((s.toBlock.wale w).st = .gated ∧ s.toBlock.delivers (w.val / 16) = false)) :
    let x := s.toBlock.wale w
    exec (.waleWakeEnd w) s = .next (s.toWale w { x with
      st := .warm, waking := false, idleSince := s.toBlock.now, opmem := [], sTags := [], drbgSeeded := x.drbgSeeded && decide (x.st ≠ .gated) }) := by
  intro x
  have hseed : ((s.toBlock.wale w).st == .gated && s.toBlock.delivers (w.val / 16)) = false := by
    rcases h with h | ⟨h, hd⟩
    · rw [h]; rfl
    · rw [hd, Bool.and_false]
  have hkeeps : (if (s.toBlock.wale w).st == .gated then false else (s.toBlock.wale w).drbgSeeded) =
      ((s.toBlock.wale w).drbgSeeded && decide ((s.toBlock.wale w).st ≠ .gated)) := by
    rcases h with h | ⟨h, _⟩ <;> rw [h] <;> cases (s.toBlock.wale w).drbgSeeded <;> rfl
  refine (exec_wake hk hp (h.symm.imp_left And.left)).trans (congrArg (fun c => done c s) ?_)
  simp only [hseed, Bool.false_eq_true, if_false]
  rw [wokenJob_none (by rw [Block.wale_modWale, if_pos rfl]; exact hj)]
  unfold Block.modWale
  dsimp only
  rw [hkeeps]
/-- A cold wale takes a seed where its seeder delivers. -/
theorem exec_wake_seeded {s : State} {w : WaleId} (hk : (s.toBlock.wale w).waking = true) (hp : (s.toBlock.quad (w.val / 16)).pllLocked = true)
    (hj : (s.toBlock.wale w).job = none) (hst : (s.toBlock.wale w).st = .gated) (hd : s.toBlock.delivers (w.val / 16) = true) :
    exec (.waleWakeEnd w) s = .next (s.to (((s.toWale w { s.toBlock.wale w with
      st := .warm, waking := false, idleSince := s.toBlock.now, opmem := [], sTags := [], drbgSeeded := true, drbgLog := 6, drbgWant := false,
      drbgUrgent := false, drbgSent := false }).toBlock.serveRanks (w.val / 16)).seedDraw (w.val / 16) 48)) := by
  have hseed : ((s.toBlock.wale w).st == .gated && s.toBlock.delivers (w.val / 16)) = true := by rw [hst, hd]; rfl
  refine (exec_wake hk hp (.inl hst)).trans (congrArg (fun c => done c s) ?_)
  simp only [hseed, if_true]
  rw [wokenJob_none]
  · unfold Block.modWale
    simp only [hst]
    rfl
  · rw [(sameButRng_seedDraw _ _ _).wale, job_serveRanks, Block.wale_modWale, if_pos rfl]
    exact hj

/-- Settles O26, by the cases of each event's function. -/
theorem waleSleepsAndWakes : Obligations.WaleSleepsAndWakes := by
  intro s w b x q run
  refine ⟨fun z hx => ?_, fun hx => ⟨?_, ?_⟩, fun h => exec_waleWakeEnd_idle h, fun hk hp hj => ⟨?_, ?_⟩, ?_, ?_, ?_, ?_, ?_⟩
  · have h : s.toBlock.wipeEnd w z = s.toBlock := by rw [Block.wipeEnd]; exact if_pos hx
    exact congrArg (fun c : Block => done c.csContinue.takeFences s) h
  · have h : s.toBlock.wipeEnd w true = (run.idleWale w).startRuns.refill := by
      rw [Block.wipeEnd]
      exact if_neg (not_not_of hx)
    exact congrArg (fun c : Block => done c.csContinue.takeFences s) h
  · have h : s.toBlock.wipeEnd w false =
        (((run.idleWale w).modWale w (fun y => { y with drbgSeeded := false })).note (Src.waleUnit w 8) 0x06 1 (openDetail 0x06)).startRuns.refill := by
      rw [Block.wipeEnd]
      exact if_neg (not_not_of hx)
    exact congrArg (fun c : Block => done c.csContinue.takeFences s) h
  · exact fun h => exec_wake_unseeded hk hp hj h
  · exact fun hst hd => exec_wake_seeded hk hp hj hst hd
  · exact fun h => congrArg (fun c => done c s) (if_pos (by simpa using h))
  · intro h1 h2 h3
    exact congrArg (fun c => done c s) (if_neg (by simp [show (s.toBlock.wale w).st = .warm from h1, show s.toBlock.freeWale w = true from h2, show s.toBlock.beyond w = true from h3]))
  · exact fun h1 h2 => congrArg (fun c => done c s) (if_pos (.inr (.inr (.inr ⟨h1, h2⟩))))
  · intro h1 h2 h3 h4
    refine congrArg (fun c => done c s) (if_neg ?_)
    rintro (h | h | h | ⟨h, k⟩)
    · exact h h1
    · rw [show s.toBlock.freeWale w = true from h2] at h; exact nomatch h
    · rw [show (s.toBlock.wale w).waking = false from h3] at h; exact nomatch h
    · rcases k with k | k
      · exact (h4 h).1 k
      · exact (h4 h).2 k
  · intro p z
    refine ⟨fun h => ?_, fun h1 h2 => ?_, fun h => ?_, fun h1 h2 => ?_, fun k h1 h2 => ?_, fun h => ?_, fun h => ?_⟩
    · exact congrArg (fun c => done c s) (if_pos (by simpa using h))
    · exact congrArg (fun c => done c s) (if_neg (by simp [show (s.toBlock.quad p).pllRun = true from h1, show s.toBlock.quiet p = true from h2]))
    · exact congrArg (fun c => done c s) (if_pos (by simpa using h))
    · refine (congrArg (fun c => done c s) (if_neg (by simpa using h1))).trans ?_
      simp only [show (s.toBlock.quad p).binTo = none from h2]
      rfl
    · refine (congrArg (fun c => done c s) (if_neg (by simpa using h1))).trans ?_
      simp only [show (s.toBlock.quad p).binTo = some k from h2]
      rfl
    · exact congrArg (fun c => done c s) (if_pos (by simpa using h))
    · exact congrArg (fun c => done c s) (if_neg (by simpa using h))

/-! ### The compare and the monitors (R48, R93 to R97, R122) -/

/-- COMPARE_END of a part of a job at the comparators. -/
theorem exec_compareEnd {s : State} {id : Nat} {j : Job} {v : PartVerdict} (hj : s.toBlock.job id = some j) (hp : j.phase = .comparing) (he : j.ended = false)
    (hv : v.part < j.width) :
    let b := s.toBlock
    exec (.compareEnd id v) s = done (
      if v.agree then
        let b := b.modJob id (fun j => { j with passedParts := insertNat v.part j.passedParts })
        if (List.range j.width).all (fun p => p == v.part || j.passedParts.contains p) then b.passed id else b
      else b.redundancy j (j.wales.filter (fun w => (b.wale w).part == v.part)) (if j.entry.cls.val = 1 then 4 else if j.timeRed then 3 else 1)) s := by
  simp only [exec, execCompareEnd, hj, hp, he]
  rw [if_neg (by simp only [ne_eq, not_true_eq_false, Bool.false_eq_true, false_or]; omega)]

/-- Settles O27, by the cases of each event's function. -/
theorem compareAndMonitors : Obligations.CompareAndMonitors := by
  intro s w id j b x
  refine ⟨fun hj h p a => ?_, fun hj hp he p hpw => ?_, fun hst hxj hj => ?_, fun hc => ?_, fun hst => ?_, fun hl => ?_, fun hl => ⟨fun hj => ?_, fun hj => ?_⟩⟩
  · refine congrArg (fun c => done c s) ?_
    rw [show s.toBlock.job id = some j from hj]
    exact if_pos (h.imp_right .inl)
  · have hmatch := exec_compareEnd (v := ⟨p, true⟩) hj hp he hpw
    refine ⟨fun h => hmatch.trans (congrArg (fun c => done c s) ((if_pos rfl).trans (if_pos ?_))),
      fun h => hmatch.trans (congrArg (fun c => done c s) ((if_pos rfl).trans (if_neg ?_))), ?_⟩
    · simpa using h
    · simpa using h
    · refine (exec_compareEnd (v := ⟨p, false⟩) hj hp he hpw).trans ?_
      have hcls : (j.entry.cls.val = 1) = (j.entry.cls = 1) := by rw [Fin.ext_iff]; rfl
      simp only [hcls]
      rfl
  · refine congrArg (fun c => done c s) ?_
    rw [show (s.toBlock.wale w).job.bind s.toBlock.job = some j by rw [show (s.toBlock.wale w).job = some id from hxj]; exact hj]
    exact if_neg (not_not_of hst)
  · rw [Entry.cycleLimit, if_pos hc]
  · refine congrArg (fun c => done c s) ?_
    cases (s.toBlock.wale w).job.bind s.toBlock.job with
    | none => rfl
    | some j => exact if_pos hst
  · exact congrArg (fun c => done c s) (if_pos (by simpa using hl))
  · refine congrArg (fun c => done c s) ((if_neg (by simpa using hl)).trans ?_)
    rw [show (s.toBlock.wale w).job = none from hj]
  · refine congrArg (fun c => done c s) ((if_neg (by simpa using hl)).trans ?_)
    rw [show (s.toBlock.wale w).job = some id from hj]

/-! ### The crossbar (R155 to R159) -/

/-- One more round that a requester has lost. -/
def older (v : Fin 16) : Fin 16 := if v.val = 15 then 15 else v + 1
/-- Entries written each from its own old value: those written hold the new one. -/
theorem get_foldl_older (key : ArbReq → Nat) (l : List ArbReq) (h : (l.map key).Nodup) : ∀ (g : Tab (Fin 16)) (k : Nat),
    Tab.get 0 (l.foldl (fun (g : Tab (Fin 16)) x => Tab.put g (key x) (older (Tab.get 0 g (key x)))) g) k =
      if k ∈ l.map key then older (Tab.get 0 g k) else Tab.get 0 g k := by
  induction l with
  | nil => exact fun g k => rfl
  | cons x r ih =>
    obtain ⟨hx, hr⟩ := List.nodup_cons.mp h
    intro g k
    rw [List.foldl_cons, ih hr, Tab.get_put]
    by_cases hk : key x = k
    · subst hk; simp [hx]
    · simp [hk, Ne.symm hk]

/-- A request that beats another at a target: the one of higher rank, and of the lower requester among equals. -/
def Block.beats (b : Block) (q : QuadId) (t : Fin 52) (a c : ArbReq) : Bool :=
  decide (b.rank q t a < b.rank q t c) || (b.rank q t a == b.rank q t c && decide (c.req < a.req))
theorem beats_iff (b : Block) (q : QuadId) (t : Fin 52) (a c : ArbReq) :
    b.beats q t a c = true ↔ b.rank q t a < b.rank q t c ∨ (b.rank q t a = b.rank q t c ∧ c.req.val < a.req.val) := by
  simp only [Block.beats, Bool.or_eq_true, decide_eq_true_eq, Bool.and_eq_true, beq_iff_eq, Fin.lt_def]
/-- Of two requests not both beat the other, and what does not beat one that does not beat a third does not beat the third. -/
theorem beats_asymm (b : Block) (q : QuadId) (t : Fin 52) (a c : ArbReq) (h : b.beats q t a c = true) : b.beats q t c a = false := by
  rw [← Bool.not_eq_true, beats_iff]
  rw [beats_iff] at h
  omega
theorem beats_trans (b : Block) (q : QuadId) (t : Fin 52) (a c d : ArbReq) (h : b.beats q t a c = false) (k : b.beats q t c d = false) :
    b.beats q t a d = false := by
  rw [← Bool.not_eq_true, beats_iff] at h k ⊢
  omega
/-- The winner of a round. -/
def Block.winner (b : Block) (q : QuadId) (t : Fin 52) (x0 : ArbReq) (r : List ArbReq) : ArbReq := r.foldl (fun a c => if b.beats q t a c then c else a) x0
/-- It is of the highest rank, and the lowest requester among equals. -/
theorem winner_spec (b : Block) (q : QuadId) (t : Fin 52) (x0 : ArbReq) (r : List ArbReq) : b.winner q t x0 r ∈ x0 :: r ∧
    ∀ x ∈ x0 :: r, b.rank q t x < b.rank q t (b.winner q t x0 r) ∨
      (b.rank q t x = b.rank q t (b.winner q t x0 r) ∧ (b.winner q t x0 r).req ≤ x.req) := by
  obtain ⟨hmem, hbest⟩ := foldl_least (beats_asymm b q t) (beats_trans b q t) r x0
  refine ⟨hmem, fun x hx => ?_⟩
  have hno := hbest x hx
  rw [← Bool.not_eq_true, beats_iff] at hno
  unfold Block.winner
  rw [Fin.le_def]
  omega

/-- The requests a winner has beaten are one fewer than those of the round. -/
theorem length_losers {all : List ArbReq} {win : ArbReq} (hn : (all.map (·.req)).Nodup) (hw : win ∈ all) :
    (all.filter (fun x => x.req != win.req)).length = all.length - 1 := by
  have hmap : (all.filter (fun x => x.req != win.req)).map (·.req) = (all.map (·.req)).erase win.req := by
    rw [hn.erase_eq_filter, List.filter_map]
    rfl
  rw [← List.length_map (f := (·.req)), hmap, List.length_erase_of_mem (List.mem_map_of_mem hw), List.length_map]

/-- A round's decision among its requests, as its function writes it. -/
theorem decideRound_cons (b : Block) (q : QuadId) (t : Fin 52) (x0 : ArbReq) (r : List ArbReq) :
    let l := x0 :: r
    let win := b.winner q t x0 r
    let losers := l.filter (fun x => x.req != win.req)
    let key (x : ArbReq) : Nat := t.val * 26 + x.req.val
    let ages := Tab.put (losers.foldl (fun (g : Tab (Fin 16)) x => Tab.put g (key x) (older (Tab.get 0 g (key x)))) (b.quad q).ages) (key win) 0
    let beats := (win.lock.map (·.val)).getD 0
    b.decideRound q t l = b.modQuad q (fun z => { z with
      ages := ages, lost := z.lost.add losers.length,
      stale := if win.withdrawn then z.stale.add 1 else z.stale,
      lockCnt := if beats ≠ 0 ∧ !win.withdrawn then z.lockCnt.add 1 else z.lockCnt,
      locks := if beats ≠ 0 ∧ !win.withdrawn then Tab.put z.locks t ⟨win.req, beats, b.now⟩ else z.locks,
      lockAsks := z.lockAsks.filter (fun a => !(a.target == t.val &&
        ((a.owner == win.req && beats != 0) || l.any (fun x => x.req == a.owner && x.lock.isSome && x.withdrawn)))) }) := rfl
/-- The ages after a round: the winner's starts anew, every other's grows by one. -/
theorem ages_round (g : Tab (Fin 16)) (t : Fin 52) (all : List ArbReq) (win x : ArbReq) (hn : (all.map (·.req)).Nodup) (hx : x ∈ all) :
    Tab.get 0 (Tab.put ((all.filter (fun x => x.req != win.req)).foldl
      (fun (g : Tab (Fin 16)) x => Tab.put g (t.val * 26 + x.req.val) (older (Tab.get 0 g (t.val * 26 + x.req.val)))) g) (t.val * 26 + win.req.val) 0)
      (t.val * 26 + x.req.val) =
      if x.req = win.req then 0 else if Tab.get 0 g (t.val * 26 + x.req.val) = 15 then 15 else Tab.get 0 g (t.val * 26 + x.req.val) + 1 := by
  have hkeys : ∀ a c : ArbReq, t.val * 26 + a.req.val = t.val * 26 + c.req.val ↔ a.req = c.req := fun a c => by
    rw [Nat.add_left_cancel_iff, Fin.ext_iff]
  have hnk : ((all.filter (fun x => x.req != win.req)).map (fun x => t.val * 26 + x.req.val)).Nodup := by
    have hsub : ((all.filter (fun x => x.req != win.req)).map (·.req)).Nodup := hn.sublist (List.filter_sublist.map _)
    have hinj : ∀ a c : Fin 26, a ≠ c → t.val * 26 + a.val ≠ t.val * 26 + c.val := fun a c hne h => hne (Fin.ext (Nat.add_left_cancel h))
    have := List.Pairwise.map (fun r : Fin 26 => t.val * 26 + r.val) hinj hsub
    rwa [List.map_map] at this
  rw [Tab.get_put]
  by_cases h : x.req = win.req
  · rw [if_pos ((hkeys win x).mpr h.symm), if_pos h]
  · rw [if_neg (fun k => h ((hkeys win x).mp k).symm), if_neg h, get_foldl_older (fun x => t.val * 26 + x.req.val) _ hnk, if_pos]
    · unfold older
      simp only [Fin.ext_iff]
      rfl
    · exact List.mem_map_of_mem (List.mem_filter.mpr ⟨hx, by simpa using h⟩)

/-- A winner takes a lock that is for some beats and not withdrawn. -/
theorem takesLock_iff (x : ArbReq) : ((x.lock.map (·.val)).getD 0 ≠ 0 ∧ (!x.withdrawn) = true) ↔
    (x.lock.any (fun n => n != 0) = true ∧ x.withdrawn = false) := by
  cases x.lock with
  | none => simp
  | some n =>
    rw [Option.map_some, Option.getD_some, Option.any_some, Fin.val_ne_zero_iff, bne_iff_ne, Bool.not_eq_true']
/-- The locks after a round. -/
theorem locksAfter_eq (x : ArbReq) (g : Tab Lock) (t : Nat) (now : W64) :
    (if (x.lock.map (·.val)).getD 0 ≠ 0 ∧ (!x.withdrawn) = true then Tab.put g t ⟨x.req, (x.lock.map (·.val)).getD 0, now⟩ else g) =
      match x.lock with
      | some n => if n ≠ 0 ∧ x.withdrawn = false then Tab.put g t ⟨x.req, n.val, now⟩ else g
      | none => g := by
  cases x.lock with
  | none => rfl
  | some n => exact if_congr (by rw [Option.map_some, Option.getD_some, Fin.val_ne_zero_iff, Bool.not_eq_true']) rfl rfl
/-- A request that its requester may not make fences it; one in order waits for the arbiter. -/
theorem lockRequest_spec (s : State) (q : QuadId) (r : Fin 26) (t : Fin 52) (beats : Nat) :
    let b := s.toBlock
    let held := b.lockTargets q r
    let limit := if r.val < 20 then 1 else 2
    (limit ≤ held.length ∨ (∃ l ∈ held, t.val ≤ l) → exec (.lockRequest q r t beats) s = .next (s.to (b.lockFault q r 0x602))) ∧
    (held.length < limit → (∀ l ∈ held, l < t.val) → 1 ≤ beats → beats ≤ 64 →
      exec (.lockRequest q r t beats) s = .next (s.to (b.modQuad q (fun z => { z with lockAsks := z.lockAsks ++ [⟨r, t, beats⟩] })))) := by
  intro b held limit
  refine ⟨fun h => congrArg (fun c => done c s) (if_pos ?_), fun h1 h2 h3 h4 => congrArg (fun c => done c s) ((if_neg ?_).trans (if_neg ?_))⟩
  · rw [Bool.or_eq_true, decide_eq_true_iff, List.any_eq_true]
    exact h.imp_right (fun ⟨l, hl, hle⟩ => ⟨l, hl, by simpa using hle⟩)
  · rw [Bool.or_eq_true, decide_eq_true_iff, List.any_eq_true]
    rintro (h | ⟨l, hl, hle⟩)
    · exact absurd h1 (Nat.not_lt.mpr h)
    · exact absurd (h2 l hl) (Nat.not_lt.mpr (by simpa using hle))
  · simp only [Bool.or_eq_true, beq_iff_eq, decide_eq_true_iff]
    omega

/-- What a round does at a target once it has taken in the locks its requests ask for. -/
def Block.roundAt (b : Block) (q : QuadId) (t : Fin 52) (reqs : List ArbReq) : Block :=
  match (b.quad q).locks.find? (fun l => l.1 == t.val) with
  | some (_, l) =>
    if 1 < l.beats then b.modQuad q (fun z => { z with locks := Tab.put z.locks t { l with beats := l.beats - 1 } })
    else (b.modQuad q (fun z => { z with locks := Tab.drop z.locks t })).decideRound q t (b.contenders q t reqs)
  | none => b.decideRound q t (b.contenders q t reqs)
/-- A lock with beats to come passes one. -/
theorem roundAt_passes {b : Block} {q : QuadId} {t : Fin 52} {l : Lock} (reqs : List ArbReq)
    (h : (b.quad q).locks.find? (fun l => l.1 == t.val) = some (t.val, l)) (hb : 1 < l.beats) :
    b.roundAt q t reqs = b.modQuad q (fun z => { z with locks := Tab.put z.locks t { l with beats := l.beats - 1 } }) := by
  unfold Block.roundAt
  rw [h]
  exact if_pos hb
/-- The last beat of a lock decides for the beat after it. -/
theorem roundAt_last {b : Block} {q : QuadId} {t : Fin 52} {l : Lock} (reqs : List ArbReq)
    (h : (b.quad q).locks.find? (fun l => l.1 == t.val) = some (t.val, l)) (hb : l.beats ≤ 1) :
    let free := b.modQuad q (fun z => { z with locks := Tab.drop z.locks t })
    b.roundAt q t reqs = free.decideRound q t (free.contenders q t reqs) := by
  intro free
  have hsame : b.contenders q t reqs = free.contenders q t reqs := by
    unfold Block.contenders
    rw [Block.quad_modQuad, if_pos rfl]
  unfold Block.roundAt
  rw [h]
  exact (if_neg (Nat.not_lt.mpr hb)).trans (congrArg (Block.decideRound _ q t) hsame)
/-- A free target decides at once. -/
theorem roundAt_free {b : Block} {q : QuadId} {t : Fin 52} (reqs : List ArbReq) (h : ∀ l ∈ (b.quad q).locks, l.1 ≠ t.val) :
    b.roundAt q t reqs = b.decideRound q t (b.contenders q t reqs) := by
  have hfree : (b.quad q).locks.find? (fun l => l.1 == t.val) = none := by simpa using h
  unfold Block.roundAt
  rw [hfree]

/-- Settles O28: the lock requests and timeouts by their cases, and a round by its winner's least key. -/
theorem crossbar : Obligations.Crossbar := by
  refine ⟨fun s q r t beats => ?_, fun s q t reqs => ?_⟩
  · obtain ⟨hfault, hask⟩ := lockRequest_spec s q r t beats
    refine ⟨hfault, hask, fun h => congrArg (fun c => done c s) ?_, fun l hl => congrArg (fun c => done c s) ?_⟩
    · rw [show (s.toBlock.quad q).locks.find? (fun l => l.1 == t.val) = none by simpa using h]
    · rw [show (s.toBlock.quad q).locks.find? (fun l => l.1 == t.val) = some (t.val, l) from hl]
  · intro b z age
    have hround : exec (.arbitrationRound q t reqs) s = done (b.roundAt q t reqs) s := rfl
    refine ⟨fun l hl => ⟨fun hb => hround.trans (congrArg (fun c => done c s) (roundAt_passes reqs hl hb)),
      fun hb => hround.trans (congrArg (fun c => done c s) (roundAt_last reqs hl hb))⟩, fun hfree => ?_⟩
    · intro all
      have hgo : exec (.arbitrationRound q t reqs) s = done (b.decideRound q t all) s :=
        hround.trans (congrArg (fun c => done c s) (roundAt_free reqs hfree))
      refine ⟨fun hnil => by rw [hgo, hnil]; rfl, fun hne hnodup => ?_⟩
      obtain ⟨x0, r, hall⟩ := List.exists_cons_of_ne_nil hne
      obtain ⟨hmem, hbest⟩ := winner_spec b q t x0 r
      rw [hall, decideRound_cons] at hgo
      rw [hall] at hnodup ⊢
      have hquad : ∀ f : Quad → Quad, (b.modQuad q f).quad q = f (b.quad q) := fun f => (b.quad_modQuad q q f).trans (if_pos rfl)
      refine ⟨_, hmem, hbest, _, hgo, rfl, fun x hx => ?_, ?_, ?_, ?_, ?_, rfl, rfl, rfl⟩
      · dsimp only; rw [hquad]; exact ages_round _ t _ _ x hnodup hx
      · dsimp only; rw [hquad]; exact congrArg z.lost.add (length_losers hnodup hmem)
      · dsimp only; rw [hquad]
      · dsimp only; rw [hquad]; exact locksAfter_eq ..
      · dsimp only; rw [hquad]; exact if_congr (takesLock_iff _) rfl rfl

end Sys2Proof.Machine

/-! SUPPORT. The channels of the DMA engine: their errors, their records, and what comes back to them (chapter 08). -/
namespace Sys2Proof.Machine

/-! ### The error of a transfer (R199, R201 to R203) -/

/-- A transfer after its first error, the oldest request answered: it issues nothing more. -/
def Xfer.failed (x : Xfer) (cause : Byte) : Xfer :=
  { x with cause := cause, failAddr := x.failing, lastBeat := x.remain == 0, pieces := [], asked := x.asked.drop 1, translated := true }
/-- A channel that has latched an error of its transfer. -/
def Chan.failed (k : Chan) (x : Xfer) (cause : Byte) (now : W64) (y : Xfer) : Chan := { k.latch x cause now with halted := true, xfer := some y }
/-- The first error of a transfer with answers to come: the channel latches it and drains. -/
theorem failXfer_first {b : Block} {c : Nat} {x : Xfer} {cause : Byte} (hx : (b.chan c).xfer = some x) (h0 : x.cause = 0) (hn : 1 < x.asked.length) :
    b.failXfer c cause true = b.modChan c (fun ch => ch.failed x cause b.now (x.failed cause)) := by
  have hleft : (x.asked.drop 1).isEmpty = false := by
    rw [List.isEmpty_eq_false_iff, ne_eq, List.drop_eq_nil_iff]
    omega
  simp only [Block.failXfer, hx, h0, if_true, ne_eq, not_true_eq_false, if_false]
  rw [Block.settleXfer, Block.chan_modChan, if_pos rfl]
  dsimp only
  rw [hleft]
  rfl
/-- The first error of a transfer that waits for no other answer: it raises its note and its record is written. -/
theorem failXfer_last {b : Block} {c : Nat} {x : Xfer} {cause : Byte} (hx : (b.chan c).xfer = some x) (hc : cause ≠ 0) (h0 : x.cause = 0)
    (hn : x.asked.length = 1) :
    b.failXfer c cause true =
      ((b.modChan c (fun ch => ch.failed x cause b.now (x.failed cause))).xferNote c (x.failed cause)).closeXfer c (x.failed cause) := by
  have hleft : (x.asked.drop 1).isEmpty = true := by rw [List.isEmpty_iff, List.drop_eq_nil_iff]; omega
  have hcause : (cause != 0) = true := by simpa using hc
  simp only [Block.failXfer, hx, h0, if_true, ne_eq, not_true_eq_false, if_false]
  rw [Block.settleXfer, Block.chan_modChan, if_pos rfl]
  dsimp only
  rw [hleft, hcause]
  rfl
/-- A further error counts and drains. -/
theorem failXfer_further {b : Block} {c : Nat} {x : Xfer} {cause : Byte} (hx : (b.chan c).xfer = some x) (h0 : x.cause ≠ 0) (hn : 1 < x.asked.length) :
    b.failXfer c cause true = b.modChan c (fun ch => ch.failed x cause b.now { x with asked := x.asked.drop 1 }) := by
  have hleft : (x.asked.drop 1).isEmpty = false := by
    rw [List.isEmpty_eq_false_iff, ne_eq, List.drop_eq_nil_iff]
    omega
  simp only [Block.failXfer, hx, h0, if_true, ne_eq, not_false_eq_true]
  rw [Block.settleXfer, Block.chan_modChan, if_pos rfl]
  dsimp only
  rw [hleft]
  rfl
/-- The latch, as Table 8.8 lays it out. -/
theorem latch_eq (k : Chan) (x : Xfer) (cause : Byte) (now : W64) :
    let n : W32 := if k.count = 0xFFFFFFFF then k.count else k.count + 1
    k.latch x cause now = if k.valid then { k with ovf := true, count := n }
      else { k with valid := true, cause := cause, write := x.write, target := x.target, slice := x.slice, jobSeq := x.jobSeq, addr := x.failing,
                    time := now, remain := BitVec.ofNat 32 x.remain, count := n } := rfl
/-- A channel whose latch took an error, with its transfer. -/
theorem latched_with (k : Chan) (x y : Xfer) (cause : Byte) (now : W64) :
    let n : W32 := if k.count = 0xFFFFFFFF then k.count else k.count + 1
    let latched : Chan := if k.valid then { k with ovf := true, count := n, halted := true }
      else { k with valid := true, cause := cause, write := x.write, target := x.target, slice := x.slice, jobSeq := x.jobSeq, addr := x.failing,
                    time := now, remain := BitVec.ofNat 32 x.remain, count := n, halted := true }
    k.failed x cause now y = { latched with xfer := some y } := by
  intro n latched
  simp only [Chan.failed, latch_eq, latched]
  cases k.valid <;> rfl
/-- The note of a failed transfer but for a DDR5 timeout's. -/
theorem xferNote_raise {b : Block} {c : Nat} {x : Xfer} (h : x.cause ≠ 0x06) : b.xferNote c x =
    b.raise { source := Src.chan c, kind := 0x09, cls := if x.cause = 0x30 then 1 else 2, detail := dmaDetail x.buf x.cause c x.lastBeat,
              addr := x.failAddr.setWidth 48, job := some x.job, slice := some x.slice, known := some (x.jobSeq, x.tag) } := by
  have h6 : (x.cause == 0x06) = false := by simpa using h
  unfold Block.xferNote
  rw [h6]
  by_cases h30 : x.cause = 0x30
  · rw [h30]; rfl
  · have h30' : (x.cause == 0x30) = false := by simpa using h30
    rw [h30', if_neg h30]; rfl

/-- The job of a consumed record goes on or ends. -/
def Block.afterRecord (d : Block) (q : QuadId) (r : DmaRec) : Block :=
  match d.job r.job with
  | none => d
  | some j =>
    if r.cause ≠ 0 ∧ !j.ended then
      d.endGranted j (causeStatus r.cause) (dmaDetail r.buf r.cause (8 * q.val + r.source.toNat % 8) r.lastBeat)
    else if j.ended then (if j.dmaOpen = 0 then d.finish j.id else d)
    else ((d.modJob j.id (fun j => if j.inSlots && j.passes == 0 then { j with chan := none } else j)).pump j.id).presentEarly
/-- A consumed record leaves its queue, and kept ones may enter. -/
theorem consumeRecord_cons {b : Block} {q : QuadId} {r : DmaRec} {rest : List DmaRec} (h : (b.quad q).records = r :: rest) :
    b.consumeRecord q = ((((b.modQuad q (fun z => { z with records := rest })).drainKept q).modJob r.job
      (fun j => { j with dmaOpen := j.dmaOpen - 1 })).afterRecord q r).pumpQuad q := by
  rw [Block.consumeRecord, h]
  rfl

/-- Settles O30: the three errors of a transfer, and a consumed record by the state of its job. -/
theorem dmaErrors : Obligations.DmaErrors := by
  refine ⟨fun b c x cause hx hc => ?_, fun s q => ?_⟩
  · intro fa k n latched first b'
    have hfa : fa = x.failing := rfl
    have hchan : ∀ y, b.modChan c (fun ch => ch.failed x cause b.now y) =
        b.modChan c (fun _ => { latched with xfer := some y }) := fun y =>
      congrArg (fun ch => { b with chans := Tab.put b.chans c ch }) (latched_with (b.chan c) x y cause b.now)
    refine ⟨fun h0 hn => (failXfer_first hx h0 hn).trans (hchan _), fun h0 hn h6 => (failXfer_last hx hc h0 hn).trans ?_,
      fun h0 hn => (failXfer_further hx h0 hn).trans (hchan _)⟩
    rw [hchan, xferNote_raise (x := x.failed cause) h6]
    rfl
  · intro b
    refine ⟨fun hnil => ?_, fun r rest hr => ?_⟩
    · refine congrArg (fun d : Block => done d.takeFences s) ?_
      rw [Block.consumeRecord, show (s.toBlock.quad q).records = [] from hnil]
    · intro b₁
      have hgo := consumeRecord_cons hr
      refine ⟨fun hj => ?_, fun j hj => ⟨fun hc he => ?_, fun he ho => ?_, fun he ho => ?_, fun hc he => ?_⟩⟩
      · exact congrArg (fun d : Block => done d.takeFences s) (hgo.trans (by rw [Block.afterRecord, hj]))
      · exact congrArg (fun d : Block => done d.takeFences s) (hgo.trans (by rw [Block.afterRecord, hj]; dsimp only; rw [if_pos ⟨hc, by rw [he]; rfl⟩]))
      · exact congrArg (fun d : Block => done d.takeFences s)
          (hgo.trans (by rw [Block.afterRecord, hj]; dsimp only; rw [if_neg (fun h => by rw [he] at h; exact nomatch h.2), if_pos he, if_pos ho]))
      · exact congrArg (fun d : Block => done d.takeFences s)
          (hgo.trans (by rw [Block.afterRecord, hj]; dsimp only; rw [if_neg (fun h => by rw [he] at h; exact nomatch h.2), if_pos he, if_neg ho]))
      · intro give
        exact congrArg (fun d : Block => done d.takeFences s)
          (hgo.trans (by rw [Block.afterRecord, hj]; dsimp only; rw [if_neg (fun h => h.1 hc), if_neg (by rw [he]; decide)]))

end Sys2Proof.Machine

/-! SUPPORT. What comes back to a channel: completions, acknowledgements, timeouts, translations and invalidations (chapters 07 and 08). -/
namespace Sys2Proof.Machine

/-- The members of a rising list with one more. -/
theorem mem_insertNat {n k : Nat} {l : List Nat} : k ∈ insertNat n l ↔ k = n ∨ k ∈ l := by
  induction l with
  | nil => simp [insertNat]
  | cons a r ih =>
    unfold insertNat
    split
    · next h => subst h; simp
    · split
      · simp
      · rw [List.mem_cons, ih, List.mem_cons]; exact or_left_comm

/-! ### Completions (R192, R198, R199, R207) -/

/-- A completion no request awaits: AER's status, and a message unless masked. -/
theorem unexpected_eq (b : Block) : b.unexpected = { b with
    host := { b.host with aerStatus := b.host.aerStatus ||| 0x10000 },
    link := if b.host.aerMask.getLsbD 16 then b.link else .unexpected :: b.link } := by
  unfold Block.unexpected
  dsimp only
  split <;> rfl
/-- A channel that awaits nothing discards what comes. -/
theorem exec_completion_unasked {s : State} {c : ChanId} (h : (s.toBlock.chan c).xfer = none ∨ ∃ x, (s.toBlock.chan c).xfer = some x ∧ x.asked = []) :
    (∀ r, exec (.dmaReadCompletion c r) s = .next (s.to (Block.tagFreed s.toBlock s.toBlock.unexpected))) ∧
    (∀ ok, exec (.dmaWriteAck c ok) s = .next (s.to s.toBlock.unexpected)) ∧
    exec (.hostReadTimeout (.chan c)) s = .next (s.to (Block.tagFreed s.toBlock s.toBlock)) ∧ exec (.ddr5Timeout c) s = .next s := by
  rcases h with h | ⟨x, h, ha⟩
  · refine ⟨fun r => congrArg (fun d => done (Block.tagFreed s.toBlock d) s) ?_, fun ok => congrArg (fun d => done d s) ?_,
      congrArg (fun d => done (Block.tagFreed s.toBlock d) s) ?_, congrArg (fun d => done d s) ?_⟩
    · rw [h]
    · rw [h]
    · show s.toBlock.chanTimeout c = _
      rw [Block.chanTimeout, h]
    · rw [h]
  · refine ⟨fun r => congrArg (fun d => done (Block.tagFreed s.toBlock d) s) ?_, fun ok => congrArg (fun d => done d s) ?_,
      congrArg (fun d => done (Block.tagFreed s.toBlock d) s) ?_, congrArg (fun d => done d s) ?_⟩
    · rw [h]; dsimp only; rw [ha]
    · rw [h]; dsimp only; rw [ha]
    · show s.toBlock.chanTimeout c = _
      rw [Block.chanTimeout, h]; dsimp only
      rw [ha, List.isEmpty_nil, Bool.or_true, Bool.true_or, if_pos rfl]
    · rw [h]; dsimp only
      rw [ha, List.isEmpty_nil, Bool.true_or, if_pos rfl]
/-- A transfer whose oldest request is answered. -/
def Xfer.heard (x : Xfer) (n : Nat) (rest : List (W64 × Nat)) (d : Bytes) : Xfer := { x with asked := rest, count := x.count + n, got := x.got ++ d }
/-- A read's oldest request is answered. -/
theorem exec_readCompletion {s : State} {c : ChanId} {x : Xfer} {a : W64} {n : Nat} {rest : List (W64 × Nat)} (r : ReadResult)
    (hx : (s.toBlock.chan c).xfer = some x) (ha : x.asked = (a, n) :: rest) (hw : x.write = false) :
    let b := s.toBlock
    exec (.dmaReadCompletion c r) s = .next (s.to (Block.tagFreed b (match r with
      | .data d =>
        if x.cause ≠ 0 then (b.setXfer c { x with asked := rest, count := x.count + n }).settleXfer c else
        let b' := b.setXfer c (x.heard n rest (fit n d))
        if x.stream then ((b'.streamIn x (fit n d)).resumeXfer c).pump x.job else b'.resumeXfer c
      | .unsupported => b.failXfer c 0x01 true
      | .completerAbort => b.failXfer c 0x02 true
      | .poisoned => b.failXfer c 0x03 true
      | .uncorrectable => if x.target = 0 then b.failXfer c 0x03 true else b.ddrError c x
      | .late => b.unexpected))) := by
  refine congrArg (fun d => done (Block.tagFreed s.toBlock d) s) ?_
  rw [hx]
  dsimp only
  rw [ha]
  exact if_neg (by rw [hw]; decide)
/-- A write's oldest request is acknowledged. -/
theorem exec_writeAck {s : State} {c : ChanId} {x : Xfer} {a : W64} {n : Nat} {rest : List (W64 × Nat)} (ok : Bool)
    (hx : (s.toBlock.chan c).xfer = some x) (ha : x.asked = (a, n) :: rest) :
    let b := s.toBlock
    exec (.dmaWriteAck c ok) s = .next (s.to (
      if !x.write then b.unexpected
      else if !ok then b.ddrError c x
      else (b.setXfer c { x with asked := rest, count := x.count + n }).resumeXfer c)) := by
  refine congrArg (fun d => done d s) ?_
  rw [hx]
  dsimp only
  rw [ha]
/-- A transfer answered without data has what it had. -/
theorem heard_nil (x : Xfer) (n : Nat) (rest : List (W64 × Nat)) : { x with asked := rest, count := x.count + n } = x.heard n rest [] := by
  unfold Xfer.heard
  rw [List.append_nil]
/-- A host read that is unanswered for too long. -/
theorem exec_hostReadTimeout_chan {s : State} {c : ChanId} {x : Xfer} {d : Block} (hx : (s.toBlock.chan c).xfer = some x)
    (hd : (if x.write || x.asked.isEmpty || x.target != 0 then s.toBlock else s.toBlock.failXfer c 0x04 true) = d) :
    exec (.hostReadTimeout (.chan c)) s = .next (s.to (Block.tagFreed s.toBlock d)) := by
  refine congrArg (fun d => done (Block.tagFreed s.toBlock d) s) ?_
  show s.toBlock.chanTimeout c = _
  rw [Block.chanTimeout, hx]
  exact hd
/-- What an uncorrectable access does. -/
theorem ddrError_eq {b : Block} {c : Nat} {x : Xfer} {a : W64} {n : Nat} {rest : List (W64 × Nat)} (ha : x.asked = (a, n) :: rest) :
    b.ddrError c x = ((b.retirePage (Fin.ofNat 2 (x.target.toNat - 1)) (a.toNat / 4096)).raise
      { source := Src.device 7 (Fin.ofNat 2 (x.target.toNat - 1)).val, kind := 0x02, cls := 2, detail := openDetail 0x02, job := some x.job }).failXfer
        c 0x05 true := by
  simp only [Block.ddrError, ha, List.headD_cons]

/-- The keys of a deleted object are changed in the key store alone. -/
theorem ddr_foldl_setKey (hs : List Nat) : ∀ b : Block, (hs.foldl (fun (b : Block) h => match b.key (BitVec.ofNat 32 h) with
      | some k => b.setKey (BitVec.ofNat 32 h) { k with pkObject := none }
      | none => b) b).ddr = b.ddr := by
  induction hs with
  | nil => exact fun b => rfl
  | cons h r ih =>
    intro b
    rw [List.foldl_cons, ih]
    split
    · unfold Block.setKey; split <;> rfl
    · rfl
/-- A retired page. -/
theorem retirePage_spec (b : Block) (ch : Fin 2) (page : Nat) :
    (b.retirePage ch page).ddr.retired = b.ddr.retired.set ch (insertNat page (b.ddr.retired[ch])) ∧
    ∀ o, b.ddr.objects.find? (fun o => o.chan == ch && decide (o.page ≤ page) && decide (page < o.page + o.pages)) = some o →
      (b.retirePage ch page).ddr.objects = b.ddr.objects.filter (fun p => !(p.slice == o.slice && p.number == o.number)) := by
  cases h : b.ddr.objects.find? (fun o => o.chan == ch && decide (o.page ≤ page) && decide (page < o.page + o.pages)) with
  | none =>
    have hr : b.retirePage ch page = { b with ddr := { b.ddr with retired := b.ddr.retired.set ch (insertNat page (b.ddr.retired[ch])) } } := by
      simp only [Block.retirePage, h]
    exact ⟨by rw [hr], fun o ho => nomatch ho⟩
  | some o =>
    have hr : (b.retirePage ch page).ddr = { b.ddr with
        retired := b.ddr.retired.set ch (insertNat page (b.ddr.retired[ch])),
        objects := b.ddr.objects.filter (fun p => !(p.slice == o.slice && p.number == o.number)) } := by
      simp only [Block.retirePage, h]
      exact ddr_foldl_setKey ..
    exact ⟨by rw [hr], fun o' ho => by cases ho; rw [hr]⟩

/-- Settles O29: each answer by the state of the transfer that awaits it. -/
theorem dmaCompletions : Obligations.DmaCompletions := by
  refine ⟨fun b => ⟨by simp [Block.tagFree], fun h c => if_pos h, by rw [unexpected_eq], by rw [unexpected_eq], by rw [unexpected_eq]⟩, ?_⟩
  intro s c b then_
  refine ⟨fun h => exec_completion_unasked h, ?_, fun ch page => ?_⟩
  · intro x a n rest hx ha ddr heard broken
    have hbroken : s.toBlock.ddrError c x = broken := ddrError_eq ha
    refine ⟨fun hw => ?_, fun hw => ?_, fun ht => ?_, fun ht => ?_⟩
    · have hread := fun r => exec_readCompletion r hx ha hw
      have hwait : (x.write || x.asked.isEmpty || x.target != 0) = (x.target != 0) := by rw [hw, ha]; rfl
      refine ⟨fun d h0 hs => ?_, fun d h0 hs => ?_, fun d h0 => ?_, hread _, hread _, hread _, hread _, fun ht => ?_, fun ht => ⟨?_, ?_⟩, fun ok => ?_⟩
      · exact (hread _).trans (congrArg then_ ((if_neg (not_not_of h0)).trans (if_neg (by rw [hs]; decide))))
      · exact (hread _).trans (congrArg then_ ((if_neg (not_not_of h0)).trans (if_pos hs)))
      · exact (hread _).trans (congrArg then_ ((if_pos h0).trans (by rw [heard_nil]; rfl)))
      · exact exec_hostReadTimeout_chan hx (by rw [hwait]; exact if_neg (by simpa using ht))
      · exact exec_hostReadTimeout_chan hx (by rw [hwait]; exact if_pos (by simpa using ht))
      · exact (hread _).trans (congrArg then_ ((if_neg ht).trans hbroken))
      · exact next_to (exec_writeAck ok hx ha) (if_pos (by rw [hw]; rfl))
    · refine ⟨?_, ?_, ?_, fun r => ?_⟩
      · refine next_to (exec_writeAck true hx ha) ((if_neg (by rw [hw]; decide)).trans ((if_neg (by decide)).trans ?_))
        rw [heard_nil]
        rfl
      · exact next_to (exec_writeAck false hx ha) ((if_neg (by rw [hw]; decide)).trans ((if_pos rfl).trans hbroken))
      · exact exec_hostReadTimeout_chan hx (if_pos (by rw [hw]; rfl))
      · refine congrArg (fun d => done (Block.tagFreed s.toBlock d) s) ?_
        rw [show (s.toBlock.chan c).xfer = some x from hx]
        dsimp only
        rw [ha]
        exact if_pos hw
    · refine congrArg (fun d => done d s) ?_
      rw [show (s.toBlock.chan c).xfer = some x from hx]
      have hfail : x.failing = x.addr := if_pos ht
      refine (if_neg (by rw [ha]; simpa using ht)).trans ?_
      dsimp only
      rw [hfail]
    · refine congrArg (fun d => done d s) ?_
      rw [show (s.toBlock.chan c).xfer = some x from hx]
      exact if_pos (by rw [ht]; simp)
  · obtain ⟨hr, ho⟩ := retirePage_spec s.toBlock ch page
    intro t
    refine ⟨?_, fun p hp => ?_, ho⟩
    · show page ∈ (s.toBlock.retirePage ch page).ddr.retired[ch]
      rw [hr]
      simp [mem_insertNat]
    · show p ∈ (s.toBlock.retirePage ch page).ddr.retired[ch]
      rw [hr]
      simp only [Fin.getElem_fin, Vector.getElem_set_self, mem_insertNat]
      exact .inr hp

end Sys2Proof.Machine

/-! SUPPORT. Interrupts, translations, invalidations, the token bucket and the time base (chapters 07, 08 and 13). -/
namespace Sys2Proof.Machine

/-! ### Interrupts (R169) -/

/-- A vector sent while its entry is open: a message, or pending while MSI-X is disabled. -/
theorem msix_open {b : Block} {v : Nat} (h : v ∈ b.host.msixOpen) : b.msix v =
    if b.host.msixOn then b.emit (.msix v (Tab.get 0 b.host.msixAddr v) (Tab.get 0 b.host.msixData v))
    else { b with host := { b.host with pba := v :: b.host.pba.filter (· != v) } } := by
  have hc : b.host.msixOpen.contains v = true := List.contains_iff_mem.mpr h
  rw [Block.msix, hc, Bool.and_true]
/-- A vector unmasked. -/
theorem unmask_eq (b : Block) (v : Nat) : b.unmask v = { b with
    host := { b.host with
      msixOpen := insertNat v b.host.msixOpen,
      pba := if b.host.pba.contains v then (if b.host.msixOn then b.host.pba.filter (· != v) else v :: (b.host.pba.filter (· != v)).filter (· != v)) else b.host.pba },
    link := if b.host.pba.contains v && b.host.msixOn then .msix v (Tab.get 0 b.host.msixAddr v) (Tab.get 0 b.host.msixData v) :: b.link else b.link } := by
  have hopen : v ∈ insertNat v b.host.msixOpen := mem_insertNat.mpr (.inl rfl)
  simp only [Block.unmask, Block.sendPending, List.foldl_cons, List.foldl_nil]
  cases hp : b.host.pba.contains v
  · rfl
  · rw [if_pos rfl, msix_open hopen]
    dsimp only
    cases b.host.msixOn <;> rfl
/-- MSIX_UNMASK: an open vector that is pending is sent while MSI-X is enabled. -/
theorem msixUnmask_spec (s : State) (v : BitVec 11) :
    let b := s.toBlock
    ∃ t, exec (.msixUnmask v) s = .next t ∧ t.pending = s.pending ∧ v.toNat ∈ t.host.msixOpen ∧
      (b.host.msixOn = true → t.host.pba = b.host.pba.filter (· != v.toNat) ∧
        t.link = (if b.host.pba.contains v.toNat then [.msix v.toNat (Tab.get 0 b.host.msixAddr v.toNat) (Tab.get 0 b.host.msixData v.toNat)] else []) ++
          b.link) ∧
      (b.host.msixOn = false → t.link = b.link ∧ ∀ u, u ∈ t.host.pba ↔ u ∈ b.host.pba) ∧
      { t with host := { t.host with msixOpen := b.host.msixOpen, pba := b.host.pba }, link := b.link } = s := by
  intro b
  refine ⟨s.to (b.unmask v.toNat), rfl, rfl, ?_, fun hon => ?_, fun hoff => ?_, ?_⟩
  · rw [unmask_eq]
    exact mem_insertNat.mpr (.inl rfl)
  · rw [unmask_eq]
    dsimp only [State.to]
    rw [hon]
    cases hp : b.host.pba.contains v.toNat
    · refine ⟨(List.filter_eq_self.mpr fun u hu => ?_).symm, rfl⟩
      rw [bne_iff_ne]
      rintro rfl
      have hin : v.toNat ∈ b.host.pba := hu
      rw [List.contains_iff_mem.mpr hin] at hp
      exact nomatch hp
    · exact ⟨rfl, rfl⟩
  · rw [unmask_eq]
    dsimp only [State.to]
    rw [hoff, Bool.and_false]
    refine ⟨rfl, fun u => ?_⟩
    cases hp : b.host.pba.contains v.toNat
    · exact Iff.rfl
    · have hin : v.toNat ∈ b.host.pba := List.contains_iff_mem.mp hp
      simp only [if_true, Bool.false_eq_true, if_false, List.mem_cons, List.mem_filter, bne_iff_ne]
      constructor
      · rintro (rfl | ⟨⟨h, _⟩, _⟩)
        · exact hin
        · exact h
      · intro h
        by_cases hu : u = v.toNat
        · exact .inl hu
        · exact .inr ⟨⟨h, hu⟩, hu⟩
  · rw [unmask_eq]
    rfl

/-! ### Invalidations (R197) -/

/-- A pass over the channels that changes each by itself: what it leaves at one of them. -/
theorem chan_foldl {f : Block → Nat → Block} {g : Nat → Chan → Chan} (h : ∀ b i j, (f b i).chan j = if i = j then g j (b.chan j) else b.chan j) (l : List Nat)
    (hl : l.Nodup) : ∀ (b : Block) (j : Nat), (l.foldl f b).chan j = if j ∈ l then g j (b.chan j) else b.chan j := by
  induction l with
  | nil => exact fun b j => rfl
  | cons i r ih =>
    obtain ⟨hi, hr⟩ := List.nodup_cons.mp hl
    intro b j
    rw [List.foldl_cons, ih hr, h]
    by_cases hij : i = j
    · subst hij; simp [hi]
    · simp [hij, Ne.symm hij]
/-- A channel whose transfer is to translate a page again. -/
def Chan.retranslate (k : Chan) (sl : SliceId) (page : BitVec 52) (skip : Bool) : Chan :=
  match k.xfer with
  | some x => if x.slice = sl ∧ x.target = 0 ∧ pageIn page x.pieces ∧ !skip then { k with xfer := some { x with translated := false } } else k
  | none => k
/-- The pass of an invalidation over the channels. -/
def Block.invalPass (cs : List Nat) (sl : SliceId) (page : BitVec 52) (b : Block) (c : Nat) : Block :=
  match (b.chan c).xfer with
  | some x =>
    if x.slice = sl ∧ x.target = 0 ∧ pageIn page x.pieces ∧ !cs.contains c then b.setXfer c { x with translated := false } else b
  | none => b
/-- It changes channels alone. -/
theorem invalPass_only (cs : List Nat) (sl : SliceId) (page : BitVec 52) (b : Block) (c : Nat) :
    { b.invalPass cs sl page c with chans := b.chans } = b := by
  unfold Block.invalPass
  split
  · split <;> rfl
  · rfl
theorem chan_invalPass (cs : List Nat) (sl : SliceId) (page : BitVec 52) (b : Block) (i j : Nat) :
    (b.invalPass cs sl page i).chan j = if i = j then (b.chan j).retranslate sl page (cs.contains j) else b.chan j := by
  by_cases h : i = j
  · subst h
    rw [if_pos rfl]
    unfold Block.invalPass Chan.retranslate
    split
    · split
      · exact (b.chan_modChan i i _).trans (if_pos rfl)
      · rfl
    · rfl
  · rw [if_neg h]
    unfold Block.invalPass
    split
    · split
      · exact (b.chan_modChan i j _).trans (if_neg h)
      · rfl
    · rfl

/-- Passes that change channels alone do so together. -/
theorem foldl_invalPass_only (cs : List Nat) (sl : SliceId) (page : BitVec 52) (l : List Nat) : ∀ b : Block,
    { l.foldl (Block.invalPass cs sl page) b with chans := b.chans } = b := by
  induction l with
  | nil => exact fun b => rfl
  | cons c r ih =>
    intro b
    have h1 := ih (b.invalPass cs sl page c)
    have h2 := invalPass_only cs sl page b c
    rw [List.foldl_cons]
    rw [← h1] at h2
    exact h2

/-- The channels, of a list of them, whose output's page is being written. -/
def Block.writingPage (l : List Nat) (b : Block) (sl : SliceId) (page : BitVec 52) : List Nat := l.filter (fun c => b.outputBegun c sl page)
/-- The block an invalidation leaves but for its completion. -/
def Block.invalidated (l : List Nat) (b : Block) (sl : SliceId) (page : BitVec 52) : Block :=
  let c := l.foldl (Block.invalPass (b.writingPage l sl page) sl page) b
  { c with jobs := c.jobs.map (fun (j : Job) =>
    if j.inSlice sl ∧ j.phase = Phase.walking ∧ !j.walkAsked ∧ j.walkAt.toNat / 4096 = page.toNat then { j with walkTr := false } else j) }
/-- An invalidation the queue has room for passes over the 32 channels. -/
theorem exec_atsInvalidation {s : State} {sl : SliceId} {page : BitVec 52} (h : s.toBlock.host.invalsOut < 32) : ∃ l : List Nat, l.Nodup ∧ (∀ k, k ∈ l ↔ k < 32) ∧
    exec (.atsInvalidation sl page) s =
      let b := s.toBlock.invalidated l sl page
      let cs := s.toBlock.writingPage l sl page
      .next (s.to (if cs.isEmpty then b.emit (.invalidateDone sl page)
        else { b with host := { b.host with invals := b.host.invals ++ cs.map (fun c => (sl, page, c)) } })) := by
  refine ⟨List.range 32, List.nodup_range, fun k => List.mem_range, ?_⟩
  simp only [exec, execAtsInvalidation, Nat.not_le.mpr h, if_false]
  generalize List.range 32 = l
  rfl
/-- The host side is as it was. -/
theorem invalidated_host (l : List Nat) (b : Block) (sl : SliceId) (page : BitVec 52) :
    (b.invalidated l sl page).host = b.host ∧ (b.invalidated l sl page).link = b.link := by
  have h := foldl_invalPass_only (b.writingPage l sl page) sl page l b
  exact ⟨(show ({ l.foldl (Block.invalPass (b.writingPage l sl page) sl page) b with chans := b.chans } : Block).host = b.host by rw [h]),
    (show ({ l.foldl (Block.invalPass (b.writingPage l sl page) sl page) b with chans := b.chans } : Block).link = b.link by rw [h])⟩
/-- A transfer that reads or writes the page translates it again. -/
theorem invalidated_chan {l : List Nat} (hl : l.Nodup) (b : Block) (sl : SliceId) (page : BitVec 52) (c : Nat) (hc : c ∈ l) (x : Xfer)
    (hx : (b.chan c).xfer = some x) (ho : b.outputBegun c sl page = false) : ((b.invalidated l sl page).chan c).xfer =
      some { x with translated := x.translated && !(decide (x.slice = sl) && decide (x.target = 0) && pageIn page x.pieces) } := by
  have hskip : (b.writingPage l sl page).contains c = false := by
    rw [Bool.eq_false_iff, ne_eq, List.contains_iff_mem, Block.writingPage, List.mem_filter, ho]
    exact fun h => nomatch h.2
  have hchan : (b.invalidated l sl page).chan c = (b.chan c).retranslate sl page false := by
    refine (chan_foldl (g := fun j k => k.retranslate sl page ((b.writingPage l sl page).contains j)) (chan_invalPass (b.writingPage l sl page) sl page) l hl b c).trans ?_
    rw [if_pos hc, hskip]
  rw [hchan, Chan.retranslate, hx]
  dsimp only
  cases hall : (decide (x.slice = sl) && decide (x.target = 0) && pageIn page x.pieces)
  · rw [if_neg (by simpa [and_assoc] using hall), hx, Bool.not_false, Bool.and_true]
  · rw [if_pos (by simpa [and_assoc] using hall), Bool.not_true, Bool.and_false]

/-- An invalidation: what it completes, what it waits for, and what translates again. -/
theorem atsInvalidation_spec {s : State} {sl : SliceId} {p : BitVec 52} (c : ChanId) (h : s.toBlock.host.invalsOut < 32) :
    let b := s.toBlock
    ∃ t, exec (.atsInvalidation sl p) s = .next t ∧
      ((∀ k < 32, b.outputBegun k sl p = false) → t.link = .invalidateDone sl p :: b.link ∧ t.host = b.host) ∧
      (∀ k < 32, b.outputBegun k sl p = true → t.link = b.link ∧ (sl, p, k) ∈ t.host.invals) ∧
      (∀ x, (b.chan c).xfer = some x → b.outputBegun c sl p = false → (t.chan c).xfer =
        some { x with translated := x.translated && !(decide (x.slice = sl) && decide (x.target = 0) && pageIn p x.pieces) }) := by
  obtain ⟨l, hnodup, hl, hgo⟩ := exec_atsInvalidation (sl := sl) (page := p) h
  intro b
  obtain ⟨hhost, hlink⟩ := invalidated_host l b sl p
  have hmem : ∀ k, k ∈ b.writingPage l sl p ↔ k < 32 ∧ b.outputBegun k sl p = true := fun k => by
    simp [Block.writingPage, hl]
  refine ⟨_, hgo, fun hno => ?_, fun k hk ho => ?_, fun x hx ho => ?_⟩
  · have hnil : s.toBlock.writingPage l sl p = [] := by
      rw [List.eq_nil_iff_forall_not_mem]
      intro k hk
      obtain ⟨hlt, ho⟩ := (hmem k).mp hk
      rw [hno k hlt] at ho
      exact nomatch ho
    simp only [hnil, List.isEmpty_nil, if_true]
    exact ⟨congrArg (LinkOp.invalidateDone sl p :: ·) hlink, hhost⟩
  · have hin := (hmem k).mpr ⟨hk, ho⟩
    have hne : ¬ (s.toBlock.writingPage l sl p).isEmpty = true := by
      rw [List.isEmpty_iff]
      intro hnil
      rw [show b.writingPage l sl p = [] from hnil] at hin
      exact nomatch hin
    rw [if_neg hne]
    exact ⟨hlink, List.mem_append_right _ (List.mem_map.mpr ⟨k, hin, rfl⟩)⟩
  · have hchan := invalidated_chan hnodup b sl p c ((hl c).mpr c.isLt) x hx ho
    split <;> exact hchan

/-! ### The token bucket (R204) -/

/-- A mailbox that waits for nothing stays as it is. -/
theorem resumeBox_idle {b : Block} {sl : SliceId} (hr : (b.box (some sl)).toRead = none) (hw : (b.box (some sl)).toWrite = none) : b.resumeBox sl = b := by
  simp only [Block.resumeBox, hr, hw]
  split <;> rfl
/-- One whose response waited goes on with it. -/
theorem resumeBox_write {b : Block} {sl : SliceId} {a : W64} {d f : Bytes} (hr : (b.box (some sl)).toRead = none)
    (hw : (b.box (some sl)).toWrite = some (a, d, f)) : b.resumeBox sl = b.sendReply (some sl) a d f := by
  simp only [Block.resumeBox, hr, hw]
  split
  · next h => rw [Block.sendReply, if_pos h]
  · rfl

/-- A list of changes none of which changes anything. -/
theorem foldl_same {α β : Type} {f : β → α → β} {l : List α} {b : β} (h : ∀ x ∈ l, f b x = b) : l.foldl f b = b := by
  induction l with
  | nil => rfl
  | cons x r ih => rw [List.foldl_cons, h x List.mem_cons_self]; exact ih (fun y hy => h y (List.mem_cons_of_mem _ hy))
/-- A channel of a slice goes on with its transfer. -/
def Block.resumeOf (sl : SliceId) (b : Block) (c : Nat) : Block :=
  match (b.chan c).xfer with
  | some x => if x.slice = sl then b.resumeXfer c else b
  | none => b
/-- A refill of a slice with nothing in the channels and no list walked. -/
theorem exec_refill {s : State} {sl : SliceId} (hc : ∀ k < 32, ∀ x, (s.toBlock.chan k).xfer = some x → x.slice ≠ sl)
    (hj : ∀ j ∈ s.toBlock.jobs, j.phase = .walking → j.inSlice sl = false) :
    exec (.tokenBucketRefill sl) s = .next (s.to ((s.toBlock.modSlice sl (fun z =>
      { z with bucket := min (z.bucket + 16 * ((s.toBlock.slice sl).quota.rate : Int)) (((s.toBlock.slice sl).quota.burst : Int) * 4096) })).resumeBox sl)) := by
  simp only [exec, execTokenBucketRefill]
  generalize hl : List.range 32 = l
  generalize hm : s.toBlock.modSlice sl _ = m
  have hchans : m.chans = s.toBlock.chans := by rw [← hm]; rfl
  have hjobs : m.jobs = s.toBlock.jobs := by rw [← hm]; rfl
  have hpass : l.foldl (Block.resumeOf sl) m = m := by
    refine foldl_same (fun k hk => ?_)
    have hk' : m.chan k = s.toBlock.chan k := by unfold Block.chan; rw [hchans]
    rw [Block.resumeOf, hk']
    rw [← hl] at hk
    cases hx : (s.toBlock.chan k).xfer with
    | none => rfl
    | some x => exact if_neg (hc k (List.mem_range.mp hk) x hx)
  have hnone : m.jobsWhere (fun j => j.inSlice sl && j.phase == .walking) = [] := by
    rw [Block.jobsWhere, hjobs, List.map_eq_nil_iff, List.filter_eq_nil_iff]
    intro j hjm
    cases hw : (j.phase == .walking)
    · rw [Bool.and_false]; decide
    · rw [hj j hjm (beq_iff_eq.mp hw)]; decide
  change done ((((l.foldl (Block.resumeOf sl) m).jobsWhere (fun j => j.inSlice sl && j.phase == .walking)).foldl Block.askEntry
    (l.foldl (Block.resumeOf sl) m)).resumeBox sl) s = _
  rw [hpass, hnone]
  rfl

/-- A completion ring announces by time. -/
theorem moderates {k : Cq} (h1 : k.irqEn = true) (h2 : k.ann ≠ 0) (h3 : k.modTime ≠ 0) : ¬ (!k.irqEn || k.ann == 0 || k.modTime == 0) = true := by
  simpa [h1, h2] using h3
/-- A ring without a translation halts. -/
theorem sq_untranslated {q : Sq} {ats : Bool} (h0 : ats = true) (h1 : q.enable = true) (h2 : q.halted = false) :
    ¬ (false || !ats || !q.enable || q.halted) = true := by simp [h0, h1, h2]
theorem cq_untranslated {q : Cq} {ats : Bool} (h0 : ats = true) (h1 : q.enable = true) (h2 : q.halted = false) :
    ¬ (false || !ats || !q.enable || q.halted) = true := by simp [h0, h1, h2]

/-- Settles O31, by the cases of each event's function. -/
theorem linkAndTime : Obligations.LinkAndTime := by
  intro s sl n c v p b sq cq
  refine ⟨fun h1 h2 h3 => done_to (if_neg (moderates h1 h2 h3)), fun h => done_same (if_pos ?_), msixUnmask_spec s v,
    fun hats => ⟨fun h1 h2 => done_to (if_neg (sq_untranslated hats h1 h2)), fun h1 h2 => done_to (if_neg (cq_untranslated hats h1 h2)),
      fun id j hj h1 h2 h3 h4 => ?_⟩,
    ⟨done_same (if_pos rfl), done_same (if_pos rfl)⟩, fun x hx ht => ⟨done_to ?_, done_to ?_⟩, fun h => done_same (if_pos h), fun h => ?_, fun hc hj hm => ?_,
    fun h => done_to (if_pos h), fun h => done_to (if_pos h)⟩
  · rcases h with h | h
    · rw [show (s.toBlock.slice sl).cq[n].irqEn = false from h]; rfl
    · rw [show (s.toBlock.slice sl).cq[n].ann = 0 from h]; simp
  · have hgo : ¬ (!s.toBlock.host.ats || j.phase != .walking || j.walkAsked || j.walkTr || j.ended) = true := by
      simp [show s.toBlock.host.ats = true from hats, h1, h2, h3, h4]
    refine ⟨done_to ?_, done_to ?_⟩
    · dsimp only
      rw [show s.toBlock.job id = some j from hj]
      exact (if_neg hgo).trans (if_neg (by decide))
    · dsimp only
      rw [show s.toBlock.job id = some j from hj]
      exact (if_neg hgo).trans (if_pos rfl)
  · dsimp only
    rw [show (s.toBlock.chan c).xfer = some x from hx]
    exact (if_neg (by rw [ht]; decide)).trans (if_neg (by decide))
  · dsimp only
    rw [show (s.toBlock.chan c).xfer = some x from hx]
    refine (if_neg (by rw [ht]; decide)).trans ((if_pos rfl).trans ?_)
    rw [Block.resumeXfer, Block.setXfer, Block.chan_modChan, if_pos rfl]
  · exact atsInvalidation_spec c h
  · intro b₁
    refine ⟨fun hw => next_to (exec_refill hc hj) (resumeBox_idle ?_ ?_), fun a d f hw => next_to (exec_refill hc hj) (resumeBox_write ?_ ?_)⟩
    all_goals rw [Block.box, Block.slice_modSlice, if_pos rfl]
    · exact hm
    · exact hw
    · exact hm
    · exact hw

end Sys2Proof.Machine

/-! SUPPORT. The descriptor fetcher, and what the walk of a gather list does where two jobs share a number (R175 to R177, R196). -/
namespace Sys2Proof.Machine

/-! ### The fetcher -/

/-- The entries a read's doorbell covers are some, where the head had not reached the tail. -/
theorem covered_pos {seen head k : Nat} (hh : head < k) (hs : seen < k) (hne : seen ≠ head) : (seen + k - head) % k = (seen + k - head) % k - 1 + 1 := by
  have hpos : 0 < (seen + k - head) % k := by
    rcases Nat.lt_or_gt_of_ne hne with h | h
    · rw [Nat.mod_eq_of_lt (by omega)]; omega
    · rw [show seen + k - head = seen - head + k by omega, Nat.add_mod_right, Nat.mod_eq_of_lt (by omega)]; omega
  omega
/-- A read of some entries takes its first. -/
theorem take_covered {e : Bytes} {r : List Bytes} {head k : Nat} (hh : head < k) :
    (e :: r).take (min 8 (k - head)) = e :: r.take (min 8 (k - head) - 1) := by
  rw [show min 8 (k - head) = min 8 (k - head) - 1 + 1 by omega, List.take_succ_cons]
  rfl
/-- An entry with OWN set is consumed. -/
theorem takeEntries_own {sl : SliceId} {n : RingId} {e : Bytes} {r : List Bytes} {left : Nat} {b : Block} (hc : b.consumes sl n = true)
    (ho : (parseDesc e).own = true) : Block.takeEntries sl n (e :: r) (left + 1) b = Block.takeEntries sl n r left (b.consume sl n (parseDesc e)) := by
  rw [Block.takeEntries, hc]
  exact if_pos ho
/-- One with OWN clear stops the fetcher. -/
theorem takeEntries_clear {sl : SliceId} {n : RingId} {e : Bytes} {r : List Bytes} {left : Nat} {b : Block} (hc : b.consumes sl n = true)
    (ho : (parseDesc e).own = false) : Block.takeEntries sl n (e :: r) (left + 1) b = b.modSq sl n (fun q => { q with tries := 1 }) := by
  rw [Block.takeEntries, hc]
  simp only [ho, Bool.not_true, Bool.false_eq_true, if_false]
/-- Nothing is left to look at. -/
theorem takeEntries_nil (sl : SliceId) (n : RingId) (left : Nat) (b : Block) : Block.takeEntries sl n [] left b = b := by
  cases left <;> rfl
/-- The entries a read brings. -/
theorem exec_descriptorFetch {s : State} {sl : SliceId} {n : RingId} (l : List Bytes) (h : ((s.toBlock.slice sl).sq[n]).busy = true) :
    let b := s.toBlock
    let q := (b.slice sl).sq[n]
    let k := 2 ^ q.log2.toNat
    exec (.descriptorFetch sl n (some l)) s = .next (s.to (Block.tagFreed b ((Block.takeEntries sl n (l.take (min 8 (k - q.head))) ((q.seen + k - q.head) % k)
      (b.modSq sl n (fun q => { q with busy := false }))).fetch sl n))) :=
  done_to (if_neg (by rw [h]; decide))
/-- A retry of a ring that consumes. -/
theorem exec_ownRetry {s : State} {sl : SliceId} {n : RingId} (r : Option (List Bytes)) (hc : s.toBlock.consumes sl n = true)
    (ht : 0 < ((s.toBlock.slice sl).sq[n]).tries) :
    let b := s.toBlock
    let q := (b.slice sl).sq[n]
    let a := q.base + BitVec.ofNat 64 (64 * q.head)
    let asked := (b.emit (.read a 64 (b.pasid sl))).charge sl 64
    exec (.ownRetry sl n r) s = .next (s.to (r.elim (asked.haltSq sl n 0x03 (BitVec.ofNat 16 q.head) a) (fun l =>
        if (parseDesc (l.headD [])).own then (asked.consume sl n (parseDesc (l.headD []))).fetch sl n
        else if 8 ≤ q.tries + 1 then asked.haltSq sl n 0x02 (BitVec.ofNat 16 q.head) a
        else asked.modSq sl n (fun q => { q with tries := q.tries + 1 })))) := by
  refine done_to ((if_neg ?_).trans ?_)
  · simpa [hc] using Nat.ne_of_gt ht
  · cases r <;> rfl

/-- Settles O18: what the fetcher asks, and the entries of a read or of a retry by their OWN bits. -/
theorem descriptorFetching : Obligations.DescriptorFetching := by
  refine ⟨fun b sl n => ?_, fun s sl n => ?_⟩
  · intro q
    refine ⟨fun h => if_neg ?_, fun h1 h2 h3 h4 => ?_, fun d => rfl⟩
    · rcases h with h | h | h | h
      · rw [h]; simp
      · rw [show ((b.slice sl).sq[n]).busy = true from h]; simp
      · rw [beq_false_of_ne h]; simp
      · rw [h]; simp
    · have hgo : b.fetch sl n = ((b.emit (.read (q.base + BitVec.ofNat 64 (64 * q.head)) (64 * min 8 (2 ^ q.log2.toNat - q.head)) (b.pasid sl))).charge sl
          (64 * min 8 (2 ^ q.log2.toNat - q.head))).modSq sl n (fun q => { q with busy := true, seen := q.tail }) := by
        refine if_pos ?_
        rw [h1, h4, show ((b.slice sl).sq[n]).busy = false from h2, show ((b.slice sl).sq[n]).tries = 0 from h3]
        rfl
      rw [hgo]
      refine ⟨rfl, ?_, rfl, rfl, rfl⟩
      rw [Block.slice_modSq, Block.charge, Block.slice_modSlice, if_pos rfl]
      exact Vector.getElem_set_self _
  · intro b q k a idle
    refine ⟨fun h c => if_pos h, fun h1 h2 r => done_same ?_, fun h1 h2 r => done_to ?_, fun h => done_to (if_neg (by rw [show ((s.toBlock.slice sl).sq[n]).busy = true from h]; decide)), fun hb hc hh hne hs => ⟨fun e ho => ?_, fun e r ho => ?_, fun e r ho => ?_⟩, fun hc ht => ?_⟩
    · exact (if_pos (by rw [show ((s.toBlock.slice sl).sq[n]).busy = false from h1]; rfl)).trans
        (if_neg (by rw [show ((s.toBlock.slice sl).sq[n]).halted = false from h2]; decide))
    · exact (if_pos (by rw [show ((s.toBlock.slice sl).sq[n]).busy = false from h1]; rfl)).trans (if_pos h2)
    · refine next_to (exec_descriptorFetch [e] hb) ?_
      rw [take_covered hh, covered_pos hh hs hne, takeEntries_own hc ho, List.take_nil, takeEntries_nil]
    · refine next_to (exec_descriptorFetch (e :: r) hb) ?_
      rw [take_covered hh, covered_pos hh hs hne, takeEntries_own hc ho]
      rfl
    · refine next_to (exec_descriptorFetch (e :: r) hb) ?_
      rw [take_covered hh, covered_pos hh hs hne, takeEntries_clear hc ho]
    · intro asked
      refine ⟨fun e r ho h7 => next_to (exec_ownRetry _ hc ht) ?_, fun e r ho h7 => next_to (exec_ownRetry _ hc ht) ?_, exec_ownRetry none hc ht,
        fun e r ho => next_to (exec_ownRetry _ hc ht) (if_pos ho)⟩
      · exact (if_neg (by rw [show (parseDesc ((e :: r).headD [])).own = false from ho]; decide)).trans (if_neg (Nat.not_le.mpr (Nat.succ_lt_succ h7)))
      · exact (if_neg (by rw [show (parseDesc ((e :: r).headD [])).own = false from ho]; decide)).trans (if_pos (Nat.succ_le_succ h7))

/-! ### The walk of a gather list (R196) -/

/-- A job that has walked its input's empty list and stands before the output's at an address. -/
def walkingTo (out : W64) : Job :=
  { id := 0, slice := 0, ring := 0, index := 0, desc := { outAddr := out }, phase := .walking, walkAsked := true, walks := [.input, .output] }
/-- A machine that holds two such jobs under one number, whose output lists lie apart. -/
def twoWalking : State := { State.reset with jobs := [walkingTo 0, walkingTo 16] }
/-- Where the walks of its jobs stand once the first list has ended: each at the output list of its own descriptor. -/
theorem walkAt_walkEnds_twoWalking : (twoWalking.toBlock.walkEnds (walkingTo 0) .input).jobs.map (·.walkAt) = [0, 16] := by decide

/-- Refutes O20: of two jobs under one number each goes on to the list of its own descriptor, where the statement's next walk is the found job's for both. -/
theorem not_gatherWalk : ¬ Obligations.GatherWalk := by
  intro h
  obtain ⟨-, -, -, -, -, -, -, -, -, hlast⟩ := h twoWalking 0 .input (walkingTo 0) (by decide) rfl rfl rfl rfl rfl
  obtain ⟨-, hnext⟩ := hlast rfl
  have hends := hnext .output [] rfl
  have hstand := walkAt_walkEnds_twoWalking
  rw [hends] at hstand
  exact absurd hstand (by decide)

end Sys2Proof.Machine

/-! SUPPORT. Writes to the registers of BAR0, of the configuration space and of a slice's page (chapters 01, 07 and 13). -/
namespace Sys2Proof.Machine

/-! ### BAR0 (Table 7.2) -/

/-- A write of 32 bits to an aligned offset of a device that takes writes. -/
theorem exec_bar0 {s : State} {o : BitVec 16} (v : W64) (hw : s.toBlock.takesWrites = true) (ho : o.toNat % 4 = 0) :
    exec (.registerWrite (.bar0 o) false v) s = done (s.toBlock.writeBar0Go o.toNat (v.setWidth 32)) s := by
  refine congrArg (fun c => done c s) (if_neg ?_)
  rw [hw, ho]
  decide
/-- A device that takes no writes, or a misaligned offset. -/
theorem exec_bar0_idle {s : State} {o : BitVec 16} (v : W64) (h : s.toBlock.takesWrites = false ∨ o.toNat % 4 ≠ 0) :
    exec (.registerWrite (.bar0 o) false v) s = .next s := by
  refine done_same (if_pos ?_)
  rcases h with h | h
  · rw [h]; rfl
  · rw [decide_eq_true h, Bool.or_true]
/-- An offset other than MBX_CTRL. -/
theorem writeBar0Go_of_ne {b : Block} {o : Nat} (v : W32) (h : o ≠ 0x1000) : b.writeBar0Go o v = b.writeBar0 o v := if_neg h
/-- The reserved ranges of the dispatcher's window. -/
theorem writeDsp_reserved {b : Block} {o : Nat} (v : W32) (h : 0x6130 ≤ o ∧ o < 0x6140 ∨ 0x6180 ≤ o ∧ o < 0x6200 ∨ 0x6280 ≤ o ∧ o < 0x7000) :
    b.writeDsp o v = b := by
  unfold Block.writeDsp
  rw [if_neg (by omega), if_neg (by omega), if_neg (by omega), if_neg (by omega)]
/-- The dispatcher's window. -/
theorem writeBar0_dsp {b : Block} {o : Nat} (v : W32) (hlo : 0x6000 ≤ o) (hhi : o < 0x7000) : b.writeBar0 o v = b.writeDsp o v := by
  unfold Block.writeBar0
  rw [if_neg (by omega), if_neg (by omega), if_neg (by omega), if_neg (by omega), if_neg (by omega), if_neg (by omega), if_neg (by omega),
    if_pos ⟨hlo, hhi⟩]
/-- The frame window. -/
theorem writeBar0_window {b : Block} {o : Nat} (v : W32) (hlo : 0x1800 ≤ o) (hhi : o < 0x2000) :
    b.writeBar0 o v = { b with admin := b.admin.put (o - 0x1800) v } := by
  unfold Block.writeBar0
  rw [if_neg (by omega), if_neg (by omega), if_pos ⟨hlo, hhi⟩]
/-- The latch of a DMA channel. -/
theorem writeBar0_chan {b : Block} (c : ChanId) (v : W32) : b.writeBar0 (0x3800 + 32 * c.val) v = b.modChan c.val (fun k => k.ack v) := by
  have hc := c.isLt
  unfold Block.writeBar0 Block.writeFault
  rw [if_neg (by omega), if_neg (by omega), if_neg (by omega), if_neg (by omega), if_neg (by omega), if_neg (by omega), if_pos (by omega),
    if_neg (by omega), if_neg (by omega), if_pos (by omega), Nat.add_sub_cancel_left, Nat.mul_div_cancel_left _ (by decide)]
/-- VALID written as 1 clears the latch but for COUNT. -/
theorem ack_valid (k : Chan) {v : W32} (h : v.getLsbD 31 = true) :
    k.ack v = { xfer := k.xfer, halted := k.halted, kept := k.kept, count := k.count } := by
  unfold Chan.ack
  rw [h]
  cases v.getLsbD 29 <;> rfl
/-- Clearing bits of MBX_EVT_STATUS sends no message. -/
theorem setEvents_cleared (b : Block) (m : Byte) :
    b.setEvents (b.host.evtStatus &&& ~~~m) b.host.evtEnable = { b with host := { b.host with evtStatus := b.host.evtStatus &&& ~~~m } } := by
  refine if_neg fun ⟨hwas, hnow⟩ => hnow ?_
  calc b.host.evtStatus &&& ~~~m &&& b.host.evtEnable
      = b.host.evtStatus &&& b.host.evtEnable &&& ~~~m := by
        rw [BitVec.and_assoc, BitVec.and_comm (~~~m), ← BitVec.and_assoc]
    _ = 0 := by rw [hwas]; exact BitVec.zero_and

/-! ### GO (R185, R187) -/

/-- GO with a frame whose payload stands in the window, while the mailbox takes one. -/
theorem go_taken {b : Block} {code : W16} {r : Req} (ht : b.takesGo none = true) (hf : b.frame none = (code, r)) (hd : r.dma = false) :
    b.go none = b.serveFrame code r := by
  unfold Block.go
  rw [ht, hf]
  dsimp only
  rw [hd]
  rfl
/-- A GO of a served code does what its command does. -/
theorem done_go {s : State} {code : W16} {r : Req} {F : Block → Block} (hf : s.toBlock.frame none = (code, r)) (hd : r.dma = false)
    (hs : ∀ b : Block, served code.toNat r { toBlock := b } = some (done (F b) { toBlock := b }))
    (hi : s.toBlock.takesGo none = false → F s.toBlock = s.toBlock) : done (s.toBlock.go none) s = done (F s.toBlock) s := by
  cases ht : s.toBlock.takesGo none with
  | false =>
    have hno : s.toBlock.go none = s.toBlock := if_pos (by rw [ht]; rfl)
    rw [hno, hi ht]
  | true =>
    rw [go_taken ht hf hd]
    unfold Block.serveFrame
    rw [hs s.toBlock]
    rfl
/-- A code that Table 7.15 does not list. -/
theorem go_unlisted {b : Block} {code : W16} {r : Req} (ht : b.takesGo none = true) (hf : b.frame none = (code, r)) (hd : r.dma = false)
    (hb : r.box = none) (hs : served code.toNat r { toBlock := b } = none) (hv : r.version = 3) :
    b.go none = b.reply r code (.fail St.badOpcode 0) := by
  rw [go_taken ht hf hd]
  unfold Block.serveFrame
  rw [hs]
  simp only [Block.command, Block.commandIn, Block.taken, hb, ht, hd, Block.refuses, Block.frameFails, hv]
  rfl
/-- The requests of the admin window. -/
theorem box_frame {b : Block} {code : W16} {r : Req} (hf : b.frame none = (code, r)) : r.box = none := by
  have : r = (b.frame none).2 := by rw [hf]
  rw [this]
  rfl
/-- A command that is not taken changes nothing. -/
theorem command_idle {b : Block} {c : Cmd} {r : Req} {body : Block → Block × Reply} (h : b.takesGo r.box = false) : b.command c r body = b :=
  if_pos (by rw [h]; rfl)
/-- Nor does a slice command. -/
theorem sliceCmd_idle {b : Block} {code : W16} {r : Req} {len : Nat → Bool} {st : List SliceSt} {body : Block → SliceId → Block × Reply}
    (h : b.takesGo r.box = false) : b.sliceCmd code r len st body = b := if_pos (by rw [h]; rfl)
/-- Nor one whose answer may have to wait. -/
theorem commandWait_idle {b : Block} {c : Cmd} {r : Req} {own : Block → Option (W16 × W32)} {body : Block → Block ⊕ (Block × Reply)}
    (h : b.takesGo r.box = false) : b.commandWait c r own body = b := if_pos (by rw [h]; rfl)

/-! ### A slice's page (Table 7.4) -/

/-- A write to a slice's page, of 32 or of 64 bits. -/
theorem exec_bar2 {s : State} {sl : SliceId} {o : BitVec 23} (wide : Bool) (v : W64) (hsl : o.toNat / 8192 = sl.val) (hw : s.toBlock.takesWrites = true)
    (ho : o.toNat % 8192 % 4 = 0) : exec (.registerWrite (.bar2 o) wide v) s = done
      (if wide then (if o.toNat % 8192 < 0x040 then s.toBlock else
          (s.toBlock.writePageGo sl (o.toNat % 8192) (v.setWidth 32)).writePageGo sl (o.toNat % 8192 + 4) ((v >>> 32).setWidth 32))
        else s.toBlock.writePageGo sl (o.toNat % 8192) (v.setWidth 32)) s := by
  have hfin : Fin.ofNat 1024 (o.toNat / 8192) = sl := by rw [hsl]; exact Fin.ofNat_val_eq_self sl
  refine (congrArg (fun c => done c s) (if_neg ?_)).trans ?_
  · rw [hw, ho]
    decide
  · rw [hfin]
/-- A device that takes no writes, or a misaligned offset. -/
theorem exec_bar2_idle {s : State} {o : BitVec 23} (wide : Bool) (v : W64) (h : s.toBlock.takesWrites = false ∨ o.toNat % 8192 % 4 ≠ 0) :
    exec (.registerWrite (.bar2 o) wide v) s = .next s := by
  refine done_same (if_pos ?_)
  rcases h with h | h
  · rw [h]; rfl
  · rw [decide_eq_true h, Bool.or_true]
/-- An open page belongs to a device that takes writes. -/
theorem takesWrites_of_pageOpen {b : Block} {sl : SliceId} (h : b.pageOpen sl = true) : b.takesWrites = true := by
  simp only [Block.pageOpen, Bool.and_eq_true] at h
  simp only [Block.takesWrites, Bool.and_eq_true]
  exact h.1
/-- A page that takes no writes. -/
theorem writePageGo_closed {b : Block} {sl : SliceId} {o : Nat} (v : W32) (h : b.pageOpen sl = false) (ho : o ≠ 0x800) : b.writePageGo sl o v = b :=
  (if_neg ho).trans (if_pos (by rw [h]; rfl))
/-- The configuration of a submission ring stands from offset 0x100 on. -/
theorem writePageGo_sq {b : Block} {sl : SliceId} (n : RingId) {part : Nat} (v : W32) (h : b.pageOpen sl = true) (hp : part < 4) :
    b.writePageGo sl (0x100 + 16 * n.val + 4 * part) v = b.writeSq sl n part v := by
  have hn := n.isLt
  have hring : Fin.ofNat 8 ((0x100 + 16 * n.val + 4 * part) / 16) = n := Fin.ext (by simp only [Fin.ofNat]; omega)
  have hpart : (0x100 + 16 * n.val + 4 * part) % 16 / 4 = part := by omega
  unfold Block.writePageGo Block.writePage
  rw [if_neg (by omega), if_neg (by rw [h]; decide), if_neg (by omega), if_neg (by omega), if_pos (by omega), hring, hpart]
/-- The configuration of a completion ring stands from offset 0x180 on. -/
theorem writePageGo_cq {b : Block} {sl : SliceId} (n : RingId) {part : Nat} (v : W32) (h : b.pageOpen sl = true) (hp : part < 4) :
    b.writePageGo sl (0x180 + 16 * n.val + 4 * part) v = b.writeCq sl n part v := by
  have hn := n.isLt
  have hring : Fin.ofNat 8 ((0x180 + 16 * n.val + 4 * part) / 16) = n := Fin.ext (by simp only [Fin.ofNat]; omega)
  have hpart : (0x180 + 16 * n.val + 4 * part) % 16 / 4 = part := by omega
  unfold Block.writePageGo Block.writePage
  rw [if_neg (by omega), if_neg (by rw [h]; decide), if_neg (by omega), if_neg (by omega), if_neg (by omega), if_pos (by omega), hring, hpart]
/-- The tail doorbells stand at the page's start. -/
theorem writePageGo_tail {b : Block} {sl : SliceId} (n : RingId) (v : W32) (h : b.pageOpen sl = true) :
    b.writePageGo sl (4 * n.val) v = b.tailDoorbell sl n v := by
  have hn := n.isLt
  have hring : Fin.ofNat 8 (4 * n.val / 4) = n := Fin.ext (by simp only [Fin.ofNat]; omega)
  unfold Block.writePageGo Block.writePage
  rw [if_neg (by omega), if_neg (by rw [h]; decide), if_pos (by omega), hring]
/-- The head doorbells stand behind them. -/
theorem writePageGo_head {b : Block} {sl : SliceId} (n : RingId) (v : W32) (h : b.pageOpen sl = true) :
    b.writePageGo sl (0x20 + 4 * n.val) v = b.headDoorbell sl n v := by
  have hn := n.isLt
  have hring : Fin.ofNat 8 ((0x20 + 4 * n.val) / 4) = n := Fin.ext (by simp only [Fin.ofNat]; omega)
  unfold Block.writePageGo Block.writePage
  rw [if_neg (by omega), if_neg (by rw [h]; decide), if_neg (by omega), if_pos (by omega), hring]
/-- A half of a word written, bit by bit. -/
theorem getLsbD_putHalf (old : W64) (hi : Bool) (v : W32) (i : Nat) (h : i < 64) :
    (putHalf old hi v).getLsbD i = if hi then (if i < 32 then old.getLsbD i else v.getLsbD (i - 32)) else (if i < 32 then v.getLsbD i else old.getLsbD i) := by
  have hv : v.toNat < 2 ^ 32 := v.isLt
  have hold : old.toNat % 2 ^ 32 < 2 ^ 32 := Nat.mod_lt _ (by decide)
  cases hi
  · simp only [putHalf, Bool.false_eq_true, if_false, BitVec.getLsbD_ofNat, h, decide_true, Bool.true_and,
      Nat.mul_comm _ (2 ^ 32), Nat.testBit_two_pow_mul_add _ hv, Nat.testBit_div_two_pow, BitVec.testBit_toNat]
    split <;> congr 1; omega
  · simp only [putHalf, if_true, BitVec.getLsbD_ofNat, h, decide_true, Bool.true_and,
      Nat.mul_comm _ (2 ^ 32), Nat.testBit_two_pow_mul_add _ hold, Nat.testBit_mod_two_pow, BitVec.testBit_toNat]
    split <;> simp_all
/-- Both halves of a ring's base. -/
theorem ringBase_halves (old v : W64) : ringBase (ringBase old false (v.setWidth 32)) true ((v >>> 32).setWidth 32) = v &&& ~~~0xFFF := by
  refine BitVec.eq_of_getLsbD_eq fun i hi => ?_
  unfold ringBase
  simp only [BitVec.getLsbD_and, getLsbD_putHalf _ _ _ i hi, if_true, Bool.false_eq_true, if_false, BitVec.getLsbD_setWidth, BitVec.getLsbD_ushiftRight]
  by_cases h : i < 32
  · simp only [h, if_true, decide_true, Bool.true_and, Bool.and_assoc, Bool.and_self]
  · have h32 : i - 32 < 32 := by omega
    have hback : 32 + (i - 32) = i := by omega
    simp only [h, if_false, h32, decide_true, Bool.true_and, hback]
/-- A write of 64 bits to the base of a ring that is not enabled. -/
theorem writeSq_base {b : Block} {sl : SliceId} {n : RingId} (v : W64) (h : ((b.slice sl).sq[n]).enable = false) :
    (b.writeSq sl n 0 (v.setWidth 32)).writeSq sl n 1 ((v >>> 32).setWidth 32) = b.modSq sl n (fun q => { q with base := v &&& ~~~0xFFF }) := by
  have hlo : b.writeSq sl n 0 (v.setWidth 32) = b.modSq sl n (fun q => { q with base := ringBase q.base false (v.setWidth 32) }) := if_neg (by rw [h]; decide)
  rw [hlo]
  refine (if_neg ?_).trans ?_
  · rw [Block.slice_modSq]
    simpa using h
  · rw [Block.modSq_modSq]
    simp only [ringBase_halves]

/-- Settles O32: a register at a time, and a slice's page by the class of its offset. -/
theorem registerWrites : Obligations.RegisterWrites := by
  refine ⟨?_, ?_, ?_⟩
  · intro s o v b lo run
    refine ⟨exec_bar0_idle v, fun hr => ?_, fun hw => ⟨?_, ?_, ?_, ?_, fun hlo hhi ho => ?_, fun c hc hv => ?_, ?_, ?_⟩⟩
    · cases hw : s.toBlock.takesWrites with
      | false => exact exec_bar0_idle v (.inl hw)
      | true =>
        by_cases ho : o.toNat % 4 = 0
        · refine (exec_bar0 v hw ho).trans (done_same ?_)
          rw [writeBar0Go_of_ne _ (by omega), writeBar0_dsp _ (by omega) (by omega), writeDsp_reserved _ hr]
        · exact exec_bar0_idle v (.inr ho)
    · rintro rfl
      exact (exec_bar0 v hw (by decide)).trans (done_to rfl)
    · rintro rfl
      refine (exec_bar0 v hw (by decide)).trans (done_to ((setEvents_cleared _ _).trans ?_))
      rw [BitVec.setWidth_setWidth_of_le _ (by decide)]
    · rintro rfl
      refine (exec_bar0 v hw (by decide)).trans (done_to ?_)
      rw [← BitVec.setWidth_setWidth_of_le v (show 11 ≤ 32 by decide)]
      rfl
    · rintro rfl
      refine (exec_bar0 v hw (by decide)).trans (done_to ?_)
      have hbit : lo.getLsbD 30 = v.getLsbD 30 := BitVec.getLsbD_setWidth ..
      change { b with admin := b.admin.ack lo } = _
      unfold Mbx.ack
      rw [hbit]
      cases v.getLsbD 30 <;> rfl
    · refine (exec_bar0 v hw ho).trans (done_to ?_)
      rw [writeBar0Go_of_ne _ (by omega), writeBar0_window _ hlo hhi]
      unfold Mbx.put
      split <;> rfl
    · refine (exec_bar0 v hw (by omega)).trans (done_to ?_)
      have hbit : lo.getLsbD 31 = true := by rw [BitVec.getLsbD_setWidth]; exact hv
      rw [hc, writeBar0Go_of_ne _ (by omega), writeBar0_chan]
      exact congrArg (b.modChan c) (funext fun k => ack_valid k hbit)
    · rintro rfl hv
      refine (exec_bar0 v hw (by decide)).trans (done_same ((if_pos rfl).trans (if_neg ?_)))
      rw [BitVec.getLsbD_setWidth, hv]
      decide
    · rintro rfl hv code r hf hd
      have hgo : run = done (b.go none) s := by
        refine (exec_bar0 v hw (by decide)).trans (congrArg (fun c => done c s) ((if_pos rfl).trans (if_pos ?_)))
        rw [BitVec.getLsbD_setWidth, hv]
        rfl
      have hbox := box_frame hf
      have hbusy (h : b.takesGo none = false) : b.takesGo r.box = false := hbox.symm ▸ h
      refine ⟨?_, ?_, ?_, ?_, ?_, fun hs ht hv3 => hgo.trans (done_to (go_unlisted ht hf hd hbox hs hv3))⟩
      · rintro rfl
        exact hgo.trans (done_go hf hd (fun _ => rfl) fun h => command_idle (hbusy h))
      · rintro rfl
        exact hgo.trans (done_go hf hd (fun _ => rfl) fun h => command_idle (hbusy h))
      · rintro rfl
        exact hgo.trans (done_go hf hd (fun _ => rfl) fun h => sliceCmd_idle (hbusy h))
      · rintro rfl
        refine hgo.trans (done_go hf hd (fun _ => rfl) fun h => (if_pos ?_).trans (command_idle (hbusy h)))
        rw [hbusy h, Bool.not_false, Bool.or_true]
      · rintro rfl
        exact hgo.trans (done_go hf hd (fun _ => rfl) fun h => commandWait_idle (hbusy h))
  · intro s wide v b cfg hw
    have hcfg (r : CfgReg) : cfg r = done (b.writeCfg r (v.setWidth 32)) s := congrArg (fun c => done c s) (if_pos hw)
    have hmod : (v.setWidth 32).toNat % 8 = v.toNat % 8 := by
      rw [BitVec.toNat_setWidth, Nat.mod_mod_of_dvd _ (by decide)]
    have hbit {i : Nat} (hi : i < 32) : (v.setWidth 32).getLsbD i = v.getLsbD i := by simp [hi]
    refine ⟨fun n hn h => (hcfg _).trans (done_to ((if_pos ?_).trans ?_)), fun n hn h => (hcfg _).trans (done_to ((if_pos ?_).trans ?_)), ?_, ?_, ?_,
      (hcfg _).trans rfl, (hcfg _).trans rfl, ?_, ?_, (hcfg _).trans rfl, (hcfg _).trans rfl⟩
    · rw [hmod, h]; exact hn
    · rw [hmod, h]
    · rw [hmod, h]; exact hn
    · rw [hmod, h]
    all_goals
      rw [hcfg, ← hbit (by decide)]
      rfl
  · intro s sl n o v hsl b q lo page
    refine ⟨fun hc h1 h2 wide => ?_, fun hp => ?_, fun ho => ⟨fun hp => ?_, fun hp => ?_, fun hp => ⟨fun he wide => ?_, fun he => ?_⟩, fun hp hv => ?_,
      fun hp hv => ?_⟩⟩
    · cases hw : b.takesWrites with
      | false => exact exec_bar2_idle wide v (.inl hw)
      | true =>
        by_cases hp : page % 4 = 0
        · refine (exec_bar2 wide v hsl hw hp).trans (done_same ?_)
          rw [writePageGo_closed _ hc h1, writePageGo_closed _ hc h2]
          cases wide with
          | false => rfl
          | true => exact ite_self _
        · exact exec_bar2_idle wide v (.inr hp)
    · cases hw : b.takesWrites with
      | false => exact exec_bar2_idle true v (.inl hw)
      | true =>
        by_cases ho : page % 4 = 0
        · exact (exec_bar2 true v hsl hw ho).trans (done_same (if_pos hp))
        · exact exec_bar2_idle true v (.inr ho)
    · refine (exec_bar2 false v hsl (takesWrites_of_pageOpen ho) (by omega)).trans (congrArg (fun c => done c s) ?_)
      rw [show o.toNat % 8192 = _ from hp]
      exact writePageGo_tail n _ ho
    · refine (exec_bar2 false v hsl (takesWrites_of_pageOpen ho) (by omega)).trans (congrArg (fun c => done c s) ?_)
      rw [show o.toNat % 8192 = _ from hp]
      exact writePageGo_head n _ ho
    · refine (exec_bar2 wide v hsl (takesWrites_of_pageOpen ho) (by omega)).trans (done_same ?_)
      have hkeep (part : Nat) (hpart : part < 2) (x : W32) : b.writePageGo sl (0x100 + 16 * n.val + 4 * part) x = b := by
        rw [writePageGo_sq n x ho (by omega)]
        rcases (by omega : part = 0 ∨ part = 1) with rfl | rfl
        · exact if_pos he
        · exact if_pos he
      have hlow (x : W32) : s.toBlock.writePageGo sl (0x100 + 16 * n.val) x = s.toBlock := hkeep 0 (by decide) x
      rw [show o.toNat % 8192 = _ from hp, hlow]
      cases wide with
      | false => rfl
      | true => exact (if_pos rfl).trans ((if_neg (by omega)).trans (hkeep 1 (by decide) _))
    · refine (exec_bar2 true v hsl (takesWrites_of_pageOpen ho) (by omega)).trans (done_to ?_)
      have hopen : (b.writeSq sl n 0 (v.setWidth 32)).pageOpen sl = true := by
        have hlo : b.writeSq sl n 0 (v.setWidth 32) = b.modSq sl n (fun q => { q with base := ringBase q.base false (v.setWidth 32) }) :=
          if_neg (by rw [show ((b.slice sl).sq[n]).enable = false from he]; decide)
        rw [hlo]
        unfold Block.pageOpen
        rw [Block.slice_modSq]
        exact ho
      have hlow (x : W32) : s.toBlock.writePageGo sl (0x100 + 16 * n.val) x = b.writeSq sl n 0 x := writePageGo_sq n (part := 0) x ho (by decide)
      rw [show o.toNat % 8192 = _ from hp, if_pos rfl, if_neg (by omega), hlow]
      exact (writePageGo_sq n (part := 1) _ hopen (by decide)).trans (writeSq_base v he)
    · refine (exec_bar2 false v hsl (takesWrites_of_pageOpen ho) (by omega)).trans (congrArg (fun c => done c s) ?_)
      rw [show o.toNat % 8192 = 0x100 + 16 * n.val + 4 * 2 by omega]
      refine (writePageGo_sq n _ ho (by decide)).trans (if_pos ?_)
      rw [BitVec.getLsbD_setWidth, hv]
      rfl
    · refine (exec_bar2 false v hsl (takesWrites_of_pageOpen ho) (by omega)).trans (congrArg (fun c => done c s) ?_)
      rw [show o.toNat % 8192 = 0x180 + 16 * n.val + 4 * 2 by omega]
      refine (writePageGo_cq n _ ho (by decide)).trans (if_pos ?_)
      rw [BitVec.getLsbD_setWidth, hv]
      rfl

end Sys2Proof.Machine

/-! SUPPORT. How a job's result is presented (R93, R119, R217, R241, R413, R417). -/
namespace Sys2Proof.Machine

/-- The block in which a running job's result waits: in the job, and in its shared memory. -/
def Block.handedOver (b : Block) (j : Job) (r : JobResult) : Block :=
  let b' := b.modJob j.id (fun k => { k with result := r, phase := .comparing, early := none })
  if j.pages = [] then b' else b'.modQuad j.quad (fun z => z.fill j.levelled j.pages r.out)

/-- A reference finds a job of that reference. -/
theorem id_of_job {b : Block} {id : Nat} {j : Job} (h : b.job id = some j) : j.id = id := by
  simpa using List.find?_some h
/-- Handing a result over changes the job alone, and its memory. -/
theorem jobs_handedOver (b : Block) (j : Job) (r : JobResult) : (b.handedOver j r).jobs =
    b.jobs.map (fun k => if k.id = j.id then { k with result := r, phase := .comparing, early := none } else k) := by
  unfold Block.handedOver
  split <;> rfl
/-- The job that has handed its result over. -/
theorem job_handedOver {b : Block} {j : Job} (r : JobResult) (h : b.job j.id = some j) :
    (b.handedOver j r).job j.id = some { j with result := r, phase := .comparing, early := none } := by
  have hmod : (b.handedOver j r).job j.id = (b.modJob j.id (fun k => { k with result := r, phase := .comparing, early := none })).job j.id := by
    unfold Block.job
    rw [jobs_handedOver]
    rfl
  refine hmod.trans ((Block.job_modJob _ _ _ fun _ => ?_).trans ?_)
  · rfl
  · rw [h]
    rfl
/-- A job that runs, its message come whole, presents its result. -/
theorem present_running {b : Block} {j : Job} (r : JobResult) (h : b.job j.id = some j) (hp : j.phase = .running) (hc : j.passes = 0) :
    b.present j.id r = if j.entry.cls = 0 then (b.handedOver j r).passed j.id else b.handedOver j r := by
  unfold Block.present
  rw [h]
  dsimp only
  rw [if_neg (by simp [hp]), if_neg (by simp [hc])]
  unfold Block.handedOver
  simp only [List.isEmpty_iff]
/-- A result that is no SUCCESS ends its job. -/
theorem passed_failed {b : Block} {id : Nat} {j : Job} (h : b.job id = some j) (hs : j.result.status ≠ 0) :
    b.passed id = b.endGranted j j.result.status j.result.detail := by
  unfold Block.passed
  rw [h]
  exact if_pos hs
/-- A run's result where no fabric master is asked. -/
theorem presentResult_ok {b : Block} {j : Job} {r : JobResult} (h : j.dev = true ∨ (b.slice j.slice).replicated = false) :
    b.presentResult j (.ok r) = if j.reservedKst != 0 || r.newSpace == 0 then b.present j.id r
      else if b.roomFor j r.newSpace then (b.modJob j.id (fun x => { x with reservedKst := r.newSpace })).present j.id r
      else b.present j.id { status := St.quota, detail := 6 } := by
  have hshared : (!j.dev && (b.slice j.slice).replicated && r.effects.any Effect.lasting) = false := by
    rcases h with h | h
    · rw [h]; rfl
    · rw [h, Bool.and_false]; rfl
  unfold Block.presentResult
  simp only [hshared, Bool.false_and, Bool.false_eq_true, if_false]
/-- Room for a new key, as a proposition. -/
theorem roomFor_iff {b : Block} {j : Job} {n : Nat} : b.roomFor j n = true ↔
    if j.dev then b.deviceUse + n ≤ 512 * 1024 else b.keyUse j.slice + b.keyReserved j.slice + n ≤ (b.slice j.slice).quota.kst * 1024 := by
  unfold Block.roomFor Block.keyFits
  cases j.dev <;> simp

/-- Settles O33: a result by the job's class and phase, and a new key by the room left for it. -/
theorem resultsArePresented : Obligations.ResultsArePresented := by
  refine ⟨fun b id j r h => ⟨fun hp => ?_, fun hp hc => ?_⟩, ?_⟩
  · unfold Block.present
    rw [h]
    exact if_pos hp
  · unfold Block.present
    rw [h]
    exact (if_neg (not_not_intro hp)).trans (if_pos hc)
  · intro b id j h hp hc handed
    obtain rfl := id_of_job h
    refine ⟨fun r hcls => ?_, jobs_handedOver b j, fun r hcls hs => ?_, fun e => rfl, fun r hr => ?_, fun p k ht => ?_, fun p k ht => ?_,
      fun t o sec pub k hk => ?_⟩
    · rw [present_running r h hp hc, if_neg hcls]
      rfl
    · rw [present_running r h hp hc, if_pos hcls, passed_failed (job_handedOver r h) hs]
      rfl
    · intro room
      rw [presentResult_ok hr]
      refine ⟨fun hno => if_pos ?_, fun h0 hnew hroom => ?_, fun h0 hnew hroom => ?_⟩
      · simpa using hno
      · exact (if_neg (by simp [h0, hnew])).trans (if_pos (roomFor_iff.mpr hroom))
      · exact (if_neg (by simp [h0, hnew])).trans (if_neg fun hyes => hroom (roomFor_iff.mp hyes))
    · exact if_neg (by rw [ht]; decide)
    · exact if_pos ht
    · unfold Block.madeKey Block.newKey
      rw [hk]
      rfl

end Sys2Proof.Machine

/-! SUPPORT. The big-number engine's modular arithmetic against plain arithmetic (R117, Tables 4.7 and 4.8). -/
namespace Sys2Proof.Machine

/-- The difference modulo m of residues. -/
theorem subMod_of_lt {a b m : Nat} (ha : a < m) (hb : b < m) : subMod a b m = (a + (m - b)) % m := by
  rw [subMod, Nat.mod_eq_of_lt ha, Nat.mod_eq_of_lt hb]
/-- Square and multiply over the low `n` bits of an exponent. -/
theorem powMod_eq (a m n : Nat) : ∀ e < 2 ^ n, powMod a e m n = a ^ e % m := by
  induction n with
  | zero =>
    intro e he
    obtain rfl : e = 0 := by simpa using he
    rfl
  | succ n ih =>
    intro e he
    have hhalf : powMod a (e / 2) m n = a ^ (e / 2) % m := ih _ (by rw [Nat.pow_succ] at he; omega)
    have hsq : a ^ (e / 2) % m * (a ^ (e / 2) % m) % m = a ^ (2 * (e / 2)) % m := by
      rw [← Nat.mul_mod, ← Nat.pow_add, ← Nat.two_mul]
    simp only [powMod, hhalf]
    rcases Nat.mod_two_eq_zero_or_one e with h | h
    · rw [if_neg (by omega)]
      have he2 : 2 * (e / 2) = e := by omega
      rwa [he2] at hsq
    · rw [if_pos h]
      have he2 : e = 2 * (e / 2) + 1 := by omega
      rw [Nat.mul_mod, hsq, ← Nat.mul_mod, ← Nat.pow_succ, Nat.succ_eq_add_one, ← he2]
/-- What Euclid's algorithm keeps: its remainders are multiples of the first number modulo m, by the factors it carries. -/
theorem egcd_emod {m c : Int} (n : Nat) : ∀ a b x y : Int, a % m = x * c % m → b % m = y * c % m →
    (egcd n a b x y).1 % m = (egcd n a b x y).2 * c % m := by
  induction n with
  | zero => exact fun a b x y ha _ => ha
  | succ n ih =>
    intro a b x y ha hb
    unfold egcd
    split
    · exact ha
    · refine ih _ _ _ _ hb ?_
      have hmul : b * (a / b) % m = a / b * y * c % m := by
        rw [Int.mul_comm b, Int.mul_emod, hb, ← Int.mul_emod, Int.mul_assoc]
      rw [Int.emod_def a b, Int.sub_mul, Int.sub_emod, ha, hmul, ← Int.sub_emod]
/-- An inverse found is one, and a residue. -/
theorem invMod_spec {a m v : Nat} (hm : 1 < m) (h : invMod a m = some v) : v < m ∧ a * v % m = 1 := by
  have hpos : (0 : Int) < m := by omega
  have hg := egcd_emod (m := m) (c := a) (2 * (Nat.log2 m + 2)) a m 1 0 (by rw [Int.one_mul]) (by rw [Int.zero_mul, Int.emod_self, Int.zero_emod])
  unfold invMod at h
  generalize egcd (2 * (Nat.log2 m + 2)) (a : Int) (m : Int) 1 0 = p at h hg
  obtain ⟨g, x⟩ := p
  dsimp only at h hg
  split at h
  · rename_i hone
    obtain rfl := Option.some.inj h
    have hnn : 0 ≤ x % (m : Int) := Int.emod_nonneg _ (by omega)
    refine ⟨(Int.toNat_lt hnn).mpr (Int.emod_lt_of_pos _ hpos), ?_⟩
    have hmul : (a : Int) * (x % m) % m = 1 := by
      rw [Int.mul_emod, Int.emod_emod, ← Int.mul_emod, Int.mul_comm, ← hg, hone]
      exact Int.emod_eq_of_lt (by decide) (by omega)
    apply Int.ofNat_inj.mp
    rw [Int.natCast_emod, Int.natCast_mul, Int.toNat_of_nonneg hnn]
    exact hmul
  · exact nomatch h

/-- The modulus as Table 4.8 reads it. -/
theorem ofBe_sub_be {n m : Nat} (h : m < 256 ^ n) : ofBe (sub (be n m) 0 n) = m := by
  have hall : sub (be n m) 0 n = be n m := by
    unfold sub
    rw [List.drop_zero, List.take_of_length_le (Nat.le_of_eq (length_be n m))]
  rw [hall, ofBe_be, Nat.mod_eq_of_lt h]

/-- Settles O40: the primitives against plain arithmetic, the power by induction over its exponent's bits. -/
theorem modularPrimitives : Obligations.ModularPrimitives := by
  intro n a b e m elen hn hlo hm hodd hm1 ha hb he
  have hM : ofBe (sub (be n m) 0 n) = m := ofBe_sub_be hm
  have hA : ofBe (be n a) = a := by rw [ofBe_be, Nat.mod_eq_of_lt (Nat.lt_trans ha hm)]
  have hB : ofBe (be n b) = b := by rw [ofBe_be, Nat.mod_eq_of_lt (Nat.lt_trans hb hm)]
  have hE : ofBe (be ((elen + 7) / 8) e) = e := by
    rw [ofBe_be, Nat.mod_eq_of_lt]
    calc e < 2 ^ elen := he
      _ ≤ 2 ^ (8 * ((elen + 7) / 8)) := Nat.pow_le_pow_right (by decide) (by omega)
      _ = 256 ^ ((elen + 7) / 8) := Nat.pow_mul 2 8 _
  have h8 : 8 * n / 8 = n := Nat.mul_div_cancel_left _ (by decide)
  have hM2 : decide (m < 2 ^ (8 * n - 64)) = false := decide_eq_false (Nat.not_lt.mpr hlo)
  have hM1 : decide (m < 2) = false := decide_eq_false (by omega)
  have hM3 : decide (m < 3) = false := decide_eq_false (by omega)
  have hAm : decide (m ≤ a) = false := decide_eq_false (by omega)
  have hBm : decide (m ≤ b) = false := decide_eq_false (by omega)
  have hEe : decide (2 ^ elen ≤ e) = false := decide_eq_false (by omega)
  have hev : (m % 2 == 0) = false := by rw [hodd]; rfl
  refine ⟨?_, ?_, ?_, ?_, fun v hv => ?_⟩
  · unfold primRun
    dsimp only
    rw [h8, hM, hA, hB, hM2, hM1, hAm, hBm]
    rfl
  · unfold primRun
    dsimp only
    rw [h8, hM, hA, hB, hM2, hM1, hAm, hBm, subMod_of_lt ha hb]
    rfl
  · unfold primRun
    dsimp only
    rw [h8, hM, hA, hB, hM2, hM1, hM3, hev, hAm, hBm]
    rfl
  · unfold primRun
    dsimp only
    rw [h8, hM, hA, hE, hM2, hM1, hM3, hev, hAm, hEe, powMod_eq a m elen e he]
    rfl
  · have hrun : primRun .modInv false 0 (8 * n) (be n a) [] (be n m) =
        if (invMod a m).isNone then .error (St.notInvertible, 0) else .ok (be n ((invMod a m).getD 0)) := by
      unfold primRun
      dsimp only
      rw [h8, hM, hA, hM2, hM1, hM3, hev, hAm]
      cases invMod a m <;> rfl
    rw [hrun] at hv
    cases hi : invMod a m with
    | none => rw [hi] at hv; exact nomatch hv
    | some i =>
      obtain ⟨hlt, hinv⟩ := invMod_spec hm1 hi
      rw [hi] at hv
      obtain rfl := Except.ok.inj hv
      rw [ofBe_be, Option.getD_some, Nat.mod_eq_of_lt (Nat.lt_trans hlt hm), hinv]

end Sys2Proof.Machine

/-! SUPPORT. A job's command whose meaning is spelt otherwise than its statement. -/
namespace Sys2Proof.Machine

/-- A command works its job as any checks, draws and run that agree with its own say. -/
theorem works_of {s : State} {id : Nat} {op : Nat → Bool} {c : Instr} {pre pre' : Block → Job → Option (W16 × W32)} {n n' : Job → Nat}
    {r r' : Block → Job → Bytes → Block × RunResult} (h : exec c s = done (s.toBlock.workWith id op pre' n' r') s)
    (hp : ∀ b j, pre' b j = pre b j) (hn : ∀ j, n' j = n j) (hr : ∀ b j d, r' b j d = r b j d) : Works s id op c pre n r := by
  obtain rfl : pre' = pre := funext₂ hp
  obtain rfl : n' = n := funext hn
  obtain rfl : r' = r := funext₃ hr
  exact works_of_workWith h
/-- The same for a run that changes nothing but its job. -/
theorem worksPure_of {s : State} {id : Nat} {op : Nat → Bool} {c : Instr} {pre pre' : Block → Job → Option (W16 × W32)} {n n' : Job → Nat}
    {r r' : Block → Job → Bytes → RunResult} (h : exec c s = done (s.toBlock.work id op pre' n' r') s)
    (hp : ∀ b j, pre' b j = pre b j) (hn : ∀ j, n' j = n j) (hr : ∀ b j d, r' b j d = r b j d) : WorksPure s id op c pre n r :=
  works_of h hp hn fun b j d => congrArg (b, ·) (hr b j d)
/-- The checks come one by one. -/
theorem firstFail_cons (bad : Bool) (st : W16) (d : W32) (l : List (Bool × W16 × W32)) :
    firstFail ((bad, st, d) :: l) = if bad then some (st, d) else firstFail l := rfl
/-- A first check that fails decides. -/
theorem firstFail_pos {bad : Bool} {st : W16} {d : W32} {l : List (Bool × W16 × W32)} (h : bad = true) : firstFail ((bad, st, d) :: l) = some (st, d) :=
  if_pos h
/-- One that passes leaves the decision to the others. -/
theorem firstFail_neg {bad : Bool} {st : W16} {d : W32} {l : List (Bool × W16 × W32)} (h : bad = false) : firstFail ((bad, st, d) :: l) = firstFail l :=
  if_neg (by rw [h]; decide)
/-- No check fails where there is none. -/
theorem firstFail_nil : firstFail [] = none := rfl
/-- No check fails exactly where each passes. -/
theorem firstFail_eq_none {l : List (Bool × W16 × W32)} : firstFail l = none ↔ ∀ x ∈ l, x.1 = false := by
  induction l with
  | nil => simp [firstFail]
  | cons x r ih =>
    obtain ⟨bad, st, d⟩ := x
    cases bad <;> simp [firstFail, ih]
/-- A failure is one of the list's. -/
theorem mem_of_firstFail {l : List (Bool × W16 × W32)} {e : W16 × W32} (h : firstFail l = some e) : (true, e.1, e.2) ∈ l := by
  induction l with
  | nil => exact nomatch h
  | cons x r ih =>
    obtain ⟨bad, st, d⟩ := x
    cases bad with
    | true =>
      obtain rfl := Option.some.inj h
      exact List.mem_cons_self
    | false => exact List.mem_cons_of_mem _ (ih h)
/-- What comes of a list of checks: `fail` of the first that fails, else `x`. -/
def checkedBy {α : Type} (fail : W16 × W32 → α) (l : List (Bool × W16 × W32)) (x : α) : α := (firstFail l).elim x fail
/-- The checks come one by one. -/
theorem checkedBy_cons {α : Type} (fail : W16 × W32 → α) (bad : Bool) (st : W16) (d : W32) (l : List (Bool × W16 × W32)) (x : α) :
    checkedBy fail ((bad, st, d) :: l) x = if bad then fail (st, d) else checkedBy fail l x := by
  unfold checkedBy
  cases bad <;> rfl
/-- With none left the rest follows. -/
theorem checkedBy_nil {α : Type} (fail : W16 × W32 → α) (x : α) : checkedBy fail [] x = x := rfl
/-- A meaning that goes on with its checks is one behind them. -/
theorem match_firstFail {α : Type} (fail : W16 × W32 → α) (l : List (Bool × W16 × W32)) (x : α) :
    (match firstFail l with | some e => fail e | none => x) = checkedBy fail l x := by
  unfold checkedBy
  cases firstFail l <;> rfl
/-- The same for two checks written out. -/
theorem match_two_checks {α : Type} (fail : W16 × W32 → α) (p q : Prop) [Decidable p] [Decidable q] (e f : W16 × W32) (x : α) :
    (match if p then some e else if q then some f else none with | some e => fail e | none => x) =
      if p then fail e else if q then fail f else x := by
  by_cases hp : p
  · rw [if_pos hp, if_pos hp]
  by_cases hq : q
  · rw [if_neg hp, if_neg hp, if_pos hq, if_pos hq]
  · rw [if_neg hp, if_neg hp, if_neg hq, if_neg hq]
/-- The same where status and Detail are taken apart. -/
theorem match_firstFail_pair {α : Type} (fail : W16 → W32 → α) (l : List (Bool × W16 × W32)) (x : α) :
    (match firstFail l with | some (st, d) => fail st d | none => x) = checkedBy (fun e => fail e.1 e.2) l x := by
  unfold checkedBy
  cases firstFail l <;> rfl
/-- A run that first makes a key from its template. -/
theorem newKey_bind {b : Block} {j : Job} {t : Nat} {o : Byte} {sec pub pub' : Bytes} {f g : Key → RunResult} (hp : pub = pub')
    (h : ∀ k : Key, f { k with secret := sec, pub := pub' } = g k) :
    (b.newKey j t o sec pub >>= f) = match b.fromTemplate j.slice j.template t o with | .error e => .error e | .ok k => g k := by
  subst hp
  unfold Block.newKey
  cases b.fromTemplate j.slice j.template t o with
  | error e => rfl
  | ok k => exact h k

end Sys2Proof.Machine

/-! SUPPORT. The key-management jobs (Table 10.5). -/
namespace Sys2Proof.Machine

/-- Settles O41: each command is the run the statement gives, its checks one by one; a narrowing's conditions are what it keeps. -/
theorem keyManagementJobs : Obligations.KeyManagementJobs := by
  refine ⟨fun s id => ?_, fun k r h => ?_⟩
  · intro plain typ nbits
    refine ⟨?_, ?_, ?_, ?_, ?_, worksPure_of_work rfl, worksPure_of_work rfl, worksPure_of_work rfl, worksPure_of_work rfl, worksPure_of_work rfl,
      ?_, ?_, ?_, ?_, worksPure_of rfl (fun _ _ => rfl) (fun _ => rfl) (fun b j d => ?_), worksPure_of_work rfl, worksPure_of_work rfl, ?_, worksPure_of_work rfl, worksPure_of_work rfl⟩
    · refine worksPure_of rfl (fun b j => ?_) (fun j => ?_) (fun b j d => ?_)
      · refine if_congr ?_ rfl rfl
        change _ ↔ j.desc.parAddr = 0 ∨ ¬ (0x0D00 ≤ j.generates ∧ j.generates ≤ 0x0D03)
        simp only [Bool.or_eq_true, Bool.not_eq_true', Bool.and_eq_false_iff, decide_eq_true_eq, decide_eq_false_iff_not, Classical.not_and_iff_not_or_not]
      · rfl
      · exact newKey_bind rfl fun k => rfl
    · refine worksPure_of rfl (fun b j => ?_) (fun j => ?_) (fun b j d => ?_)
      · refine if_congr ?_ rfl (if_congr Iff.rfl rfl (if_congr ?_ rfl rfl))
        · simp only [Bool.or_eq_true, Bool.not_eq_true', decide_eq_true_eq]; rfl
        · simp only [Bool.not_eq_true']; rfl
      · rfl
      · refine newKey_bind rfl fun k => ?_
        refine (match_firstFail Except.error _ _).trans ?_
        rw [checkedBy_cons, checkedBy_cons, checkedBy_cons, checkedBy_cons, checkedBy_nil]
        exact if_congr beq_iff_eq rfl (if_congr (by rw [Bool.not_eq_true']) rfl (if_congr (by rw [Bool.not_eq_true']) rfl (if_congr (by rw [Bool.not_eq_true']) rfl rfl)))
    · intro m
      simp [secretOk, and_assoc]
    · intro c hc m
      have h1 : (0xA00 + c) / 256 = 10 := by omega
      have h2 : (0xA00 + c) % 256 = c := by omega
      simp [secretOk, h1, h2, scalarOk]
    · refine worksPure_of rfl (fun b j => ?_) (fun j => ?_) (fun b j d => ?_)
      · refine if_congr ?_ rfl (if_congr ?_ rfl (if_congr ?_ rfl rfl))
        · simp only [Bool.or_eq_true, Bool.not_eq_true', decide_eq_true_eq, beq_iff_eq, or_assoc]; rfl
        · simp only [Bool.and_eq_true, Bool.not_eq_true', beq_iff_eq, ← Bool.not_eq_true]; rfl
        · simp only [Bool.not_eq_true']; rfl
      · rfl
      · have hshort : (typ j / 256 == 0xA && j.input.length == 1 + nistL (typ j % 256)) = true ↔
            typ j / 256 = 0xA ∧ j.input.length = 1 + nistL (typ j % 256) := by
          simp only [Bool.and_eq_true, beq_iff_eq]
        refine newKey_bind (if_congr hshort rfl rfl) fun k => ?_
        refine (match_firstFail Except.error _ _).trans ?_
        rw [checkedBy_cons, checkedBy_cons, checkedBy_cons, checkedBy_nil]
        exact if_congr beq_iff_eq rfl (if_congr (by rw [Bool.not_eq_true']) rfl (if_congr (by rw [Bool.not_eq_true']) rfl rfl))
    · refine works_of rfl (fun b j => ?_) (fun j => ?_) (fun b j d => ?_)
      · refine if_congr ?_ rfl (if_congr ?_ rfl rfl)
        · simp only [Bool.and_eq_true, bne_iff_ne]
        · simp only [Bool.and_eq_true, decide_eq_true_eq]
      · rfl
      · rfl
    · refine works_of rfl (fun b j => ?_) (fun j => ?_) (fun b j d => ?_)
      · rfl
      · rfl
      · simp only [beq_iff_eq, firstFail_cons, firstFail_nil, Bool.and_eq_true, bne_iff_ne, decide_eq_true_eq, Bool.not_eq_true']
        generalize objectFails 1 _ _ = fails
        cases fails with
        | some e => rfl
        | none =>
          refine if_congr Iff.rfl rfl ?_
          exact match_two_checks ..
    · intro b j o ht
      have ho : (if addrForm j.desc.inAddr == 1 then j.object else j.input) = o := if_congr beq_iff_eq rfl rfl
      unfold Block.loaded
      dsimp only
      rw [ho]
      exact if_pos ht
    · intro b j k
      refine ⟨⟨rfl, rfl, rfl, rfl⟩, fun k' hk => ?_⟩
      have hnow : b.keyNow j = k' := by rw [Block.keyNow, hk]; rfl
      rw [← hnow]
      exact ⟨rfl, rfl, rfl⟩
    · cases b.freeCounter with
      | none => rfl
      | some n => rfl
    · intro b n h
      unfold Block.boundTo
      simp only [Bool.or_eq_true, List.any_eq_true, Bool.and_eq_true, beq_iff_eq, List.contains_iff_mem, Bool.not_eq_true']
      rcases h with h | ⟨p, hp, h1, h2, h3⟩ | ⟨j, hj, hg, he, a, k, hk, h1, h2⟩ | ⟨j, hj, hg, he, h1, h2, h3⟩
      · exact .inl (.inr h)
      · exact .inl (.inl ⟨p, hp, ⟨h1, h2⟩, h3⟩)
      · exact .inr ⟨j, hj, ⟨hg, he⟩, .inl ⟨_, hk, by simp [Effect.brings, h1, h2]⟩⟩
      · exact .inr ⟨j, hj, ⟨hg, he⟩, .inr ⟨⟨h1, h2⟩, h3⟩⟩
  · intro n
    unfold narrows at h
    simp only [Bool.and_eq_true, Bool.or_eq_true, beq_iff_eq, decide_eq_true_eq, bne_iff_ne] at h
    obtain ⟨⟨⟨⟨⟨_, husage⟩, hlimit⟩, hmig⟩, horder⟩, _⟩ := h
    refine ⟨?_, fun hk => ?_, fun hk => ?_, horder⟩
    · refine BitVec.eq_of_getLsbD_eq fun i hi => ?_
      have hbit := congrArg (·.getLsbD i) husage
      simp only [BitVec.getLsbD_and, BitVec.getLsbD_not, hi, decide_true, Bool.true_and] at hbit ⊢
      cases h1 : (parseAttr r).usage.getLsbD i <;> cases h2 : k.usage.getLsbD i <;> simp_all
    · rcases hlimit with hsame | ⟨⟨hn, hcap | hlt⟩, _⟩
      · rw [show n.useLimit = k.useLimit from hsame]
        exact ⟨hk, BitVec.le_refl _⟩
      · exact absurd hcap hk
      · exact ⟨hn, BitVec.le_of_lt hlt⟩
    · simpa [hk] using hmig

end Sys2Proof.Machine

/-! SUPPORT. The mailbox exchange (R185 to R187, R204, R212): the response header, the writes of a response, the checks of a frame. -/
namespace Sys2Proof.Machine

/-! ### The response header (Table 7.13) -/

/-- A field behind `off` bytes of a string. -/
theorem fld_middle {p : Bytes} {off : Nat} (hp : p.length = off) (n v : Nat) (hv : v < 256 ^ n) (q : Bytes) :
    fld (p ++ (le n v ++ q)) off n = v := by
  have hsub : sub (p ++ (le n v ++ q)) off n = le n v := by
    rw [sub, ← hp, List.drop_left, List.take_left' (length_le n v)]
  rw [fld, hsub, ofLe_le, Nat.mod_eq_of_lt hv]
/-- The sequence number of a response's header. -/
theorem fld_header_seq (r : Req) (code : W16) (y : Reply) (q : Bytes) : fld (responseHeader r code y ++ q) 4 2 = r.seq.toNat := by
  have h := fld_middle (p := [3, (if r.dma then 3 else 1)] ++ le 2 code.toNat) (off := 4) (by simp) 2 r.seq.toNat r.seq.isLt
    (le 2 y.status.toNat ++ (le 4 y.out.length ++ (le 4 y.detail.toNat ++ q)))
  rw [← h]
  simp only [responseHeader, List.append_assoc]
/-- The header's fields. -/
theorem responseHeader_spec (r : Req) (code : W16) (y : Reply) (hy : y.out.length < 2 ^ 32) :
    let h := responseHeader r code y
    h.length = 16 ∧ fld h 0 1 = 3 ∧ fld h 1 1 = (if r.dma then 3 else 1) ∧ fld h 2 2 = code.toNat ∧ fld h 4 2 = r.seq.toNat ∧
      fld h 6 2 = y.status.toNat ∧ fld h 8 4 = y.out.length ∧ fld h 12 4 = y.detail.toNat := by
  intro h
  have hcode := fld_middle (p := [3, (if r.dma then 3 else 1)]) (off := 2) rfl 2 code.toNat code.isLt
    (le 2 r.seq.toNat ++ (le 2 y.status.toNat ++ (le 4 y.out.length ++ le 4 y.detail.toNat)))
  have hstatus := fld_middle (p := [3, (if r.dma then 3 else 1)] ++ le 2 code.toNat ++ le 2 r.seq.toNat) (off := 6) (by simp) 2 y.status.toNat
    y.status.isLt (le 4 y.out.length ++ le 4 y.detail.toNat)
  have hlen := fld_middle (p := [3, (if r.dma then 3 else 1)] ++ le 2 code.toNat ++ le 2 r.seq.toNat ++ le 2 y.status.toNat) (off := 8) (by simp) 4
    y.out.length (by omega) (le 4 y.detail.toNat)
  have hdetail := fld_middle (p := [3, (if r.dma then 3 else 1)] ++ le 2 code.toNat ++ le 2 r.seq.toNat ++ le 2 y.status.toNat ++ le 4 y.out.length)
    (off := 12) (by simp) 4 y.detail.toNat y.detail.isLt []
  rw [List.append_nil] at hdetail
  have hseq := fld_header_seq r code y []
  rw [List.append_nil] at hseq
  simp only [List.append_assoc] at hcode hstatus hlen hdetail
  refine ⟨by simp [h, responseHeader], rfl, ?_, ?_, hseq, ?_, ?_, ?_⟩
  · simp only [h, responseHeader]
    cases r.dma <;> rfl
  all_goals simp only [h, responseHeader, List.append_assoc]; assumption

/-! ### The writes of a response (R186, R204) -/

/-- A piece of a write is no longer than what is left, and not empty. -/
theorem piece_pos {mps a : Nat} {d : Bytes} (hm : 0 < mps) (hd : d ≠ []) : 0 < min (mps - a % mps) d.length := by
  have hlt := Nat.mod_lt a hm
  have hlen := List.length_pos_iff.mpr hd
  omega
/-- The admin mailbox's writes all go, without PASID; the first is the first piece. -/
theorem boxWrites_admin (n : Nat) : ∀ (a : W64) (d : Bytes) (b : Block), 0 < b.host.mps → d.length < n →
    ∃ l a', Block.boxWrites none n a d b = ({ b with link := l ++ b.link }, a', []) ∧
      (d ≠ [] → LinkOp.write a (d.take (min (b.host.mps - a.toNat % b.host.mps) d.length)) none true ∈ l) := by
  induction n with
  | zero => exact fun a d b _ h => absurd h (Nat.not_lt_zero _)
  | succ n ih =>
    intro a d b hm hn
    unfold Block.boxWrites
    by_cases hd : d = []
    · subst hd
      exact ⟨[], a, rfl, fun h => absurd rfl h⟩
    · have hpos := piece_pos (a := a.toNat) hm hd
      obtain ⟨l, a', hl, -⟩ := ih (a + BitVec.ofNat 64 (min (b.host.mps - a.toNat % b.host.mps) d.length))
        (d.drop (min (b.host.mps - a.toNat % b.host.mps) d.length))
        (b.emit (.write a (d.take (min (b.host.mps - a.toNat % b.host.mps) d.length)) none true)) hm (by rw [List.length_drop]; omega)
      refine ⟨l ++ [.write a (d.take (min (b.host.mps - a.toNat % b.host.mps) d.length)) none true], a', ?_, fun _ => ?_⟩
      · rw [if_neg (by simpa using hd)]
        refine hl.trans ?_
        simp [Block.emit]
      · simp
/-- A slice's writes all go while no token bounds them. -/
theorem boxWrites_free {s : SliceId} (n : Nat) : ∀ (a : W64) (d : Bytes) (b : Block), 0 < b.host.mps → (b.slice s).quota.rate = 0 → d.length < n →
    ∃ c a' v, Block.boxWrites (some s) n a d b = (c, a', []) ∧ c.slice s = { b.slice s with bucket := v } := by
  induction n with
  | zero => exact fun a d b _ _ h => absurd h (Nat.not_lt_zero _)
  | succ n ih =>
    intro a d b hm hr hn
    unfold Block.boxWrites
    by_cases hd : d = []
    · subst hd
      exact ⟨b, a, (b.slice s).bucket, rfl, rfl⟩
    · have hpos := piece_pos (a := a.toNat) hm hd
      have hkeep (k : Nat) : (b.hostWrite s a (d.take k)).slice s = { b.slice s with bucket := (b.slice s).bucket - (d.take k).length } := by
        unfold Block.hostWrite Block.charge
        rw [Block.slice_modSlice, if_pos rfl]
        rfl
      obtain ⟨c, a', v, hc, hv⟩ := ih (a + BitVec.ofNat 64 (min (b.host.mps - a.toNat % b.host.mps) d.length))
        (d.drop (min (b.host.mps - a.toNat % b.host.mps) d.length))
        (b.hostWrite s a (d.take (min (b.host.mps - a.toNat % b.host.mps) d.length))) hm (by rw [hkeep]; exact hr) (by rw [List.length_drop]; omega)
      refine ⟨c, a', v, ?_, ?_⟩
      · have htok (k : Nat) : b.tokens s k = true := by simp [Block.tokens, hr]
        rw [if_neg (by simpa using hd)]
        exact (if_neg (by rw [htok]; decide)).trans hc
      · rw [hv, hkeep]
/-- A slice's first write waits where its bucket is short. -/
theorem boxWrites_held {s : SliceId} {n : Nat} {a : W64} {d : Bytes} {b : Block} (hd : d ≠ []) (hr : (b.slice s).quota.rate ≠ 0)
    (hb : (b.slice s).bucket < (min (b.host.mps - a.toNat % b.host.mps) d.length : Nat)) : Block.boxWrites (some s) (n + 1) a d b = (b, a, d) := by
  have htok : b.tokens s (min (b.host.mps - a.toNat % b.host.mps) d.length) = false := by
    simp only [Block.tokens, Bool.or_eq_false_iff, beq_eq_false_iff_ne, ne_eq, decide_eq_false_iff_not, Int.not_le]
    exact ⟨hr, hb⟩
  unfold Block.boxWrites
  rw [if_neg (by simpa using hd)]
  exact if_pos (by rw [htok]; rfl)

/-! ### The answer (R185) -/

/-- A mailbox whose response stands in its window. -/
def Mbx.answered (m : Mbx) (frame : Bytes) : Mbx :=
  { m with busy := false, done := true, seq := BitVec.ofNat 16 (fld frame 4 2), cmd := none, code := 0, toRead := none, fetched := false,
           toWrite := none, window := m.window.writeAll 0 frame }

/-- A vector changes the host's side alone, and no event. -/
theorem msix_eq (b : Block) (v : Nat) : ∃ h l, b.msix v = { b with host := h, link := l ++ b.link } ∧ h.evtStatus = b.host.evtStatus := by
  unfold Block.msix
  split
  · exact ⟨b.host, [_], rfl, rfl⟩
  · exact ⟨_, [], rfl, rfl⟩
/-- An event sets its bit, and changes the host's side alone. -/
theorem event_eq (b : Block) (i : Nat) : ∃ h l, b.event i = { b with host := h, link := l ++ b.link } ∧ h.evtStatus = b.host.evtStatus ||| (1#8 <<< i) := by
  unfold Block.event
  dsimp only
  split
  · obtain ⟨h, l, he, hs⟩ := msix_eq { b with host := { b.host with evtStatus := b.host.evtStatus ||| (1#8 <<< i) } } b.host.evtVector.toNat
    exact ⟨h, l, he, hs⟩
  · exact ⟨_, [], rfl, rfl⟩
/-- An event touches no slice. -/
@[simp] theorem slice_event (b : Block) (i j : Nat) : (b.event i).slice j = b.slice j := by
  obtain ⟨h, l, he, -⟩ := event_eq b i
  rw [he]
  rfl
/-- A slice that comes to rest keeps its mailbox. -/
theorem mbx_checkRest (b : Block) (s j : Nat) : ((b.checkRest s).slice j).mbx = (b.slice j).mbx := by
  unfold Block.checkRest
  split
  · unfold Block.sliceTo
    rw [slice_event, Block.slice_modSlice]
    split
    · rename_i h
      rw [h]
    · rfl
  · rfl
/-- The mailbox of a slice that is not wedged answers. -/
theorem muted_some {b : Block} {s : SliceId} (h : (b.slice s).st ≠ .wedged) : b.muted (some s) = false := by simpa [Block.muted] using h
/-- The admin mailbox's response goes out at once. -/
theorem sendReply_admin {b : Block} (a : W64) (d frame : Bytes) (hm : 0 < b.host.mps) :
    ∃ h l, b.sendReply none a d frame = { b with admin := b.admin.answered frame, host := h, link := l ++ b.link } ∧ h.evtStatus.getLsbD 0 = true ∧
      (d ≠ [] → LinkOp.write a (d.take (min (b.host.mps - a.toNat % b.host.mps) d.length)) none true ∈ l) := by
  obtain ⟨l, a', hw, hfirst⟩ := boxWrites_admin (d.length + 1) a d b hm (Nat.lt_succ_self _)
  obtain ⟨h, l', he, hs⟩ := event_eq { b with link := l ++ b.link, admin := b.admin.answered frame } 0
  refine ⟨h, l' ++ l, ?_, ?_, fun hd => List.mem_append_right _ (hfirst hd)⟩
  · unfold Block.sendReply
    rw [if_neg (show ¬ b.muted none = true from Bool.false_ne_true), hw]
    refine he.trans ?_
    rw [List.append_assoc]
  · rw [hs, BitVec.getLsbD_or]
    exact Bool.or_true _
/-- A slice's response that has all gone stands in its window. -/
theorem mbx_sendReply {b c : Block} {s : SliceId} {a a' : W64} {d frame : Bytes} {v : Int} (hst : (b.slice s).st ≠ .wedged)
    (hw : Block.boxWrites (some s) (d.length + 1) a d b = (c, a', [])) (hc : c.slice s = { b.slice s with bucket := v }) :
    ((b.sendReply (some s) a d frame).slice s).mbx = (b.slice s).mbx.answered frame := by
  unfold Block.sendReply
  rw [if_neg (by rw [muted_some hst]; decide), hw]
  refine (mbx_checkRest ..).trans ?_
  have hsignal (e : Block) : (e.signalDone (some s)).slice s = e.slice s := by
    unfold Block.signalDone
    dsimp only
    split
    · exact Block.slice_sliceIrq ..
    · rfl
  refine (congrArg Slice.mbx (hsignal _)).trans ?_
  refine (congrArg Slice.mbx (Block.slice_modSlice ..)).trans ?_
  rw [if_pos rfl, hc]
  rfl

/-- A mailbox that answers a command. -/
def Mbx.answering (m : Mbx) (r : Req) (code : W16) : Mbx := { m with busy := true, cmd := some r, code := code, toRead := none, toWrite := none }
/-- What the window of a response takes. -/
def frameOf (r : Req) (code : W16) (y : Reply) : Bytes := responseHeader r code y ++ (if r.dma then [] else y.out)
/-- An answer is the response of a mailbox that answers. -/
theorem reply_eq (b : Block) (r : Req) (code : W16) (y : Reply) : b.reply r code y =
    (b.modBox r.box (·.answering r code)).sendReply r.box r.respAddr (if r.dma then y.out else []) (frameOf r code y) := rfl
/-- The slice whose mailbox answers. -/
theorem slice_modBox (b : Block) (s : SliceId) (f : Mbx → Mbx) : (b.modBox (some s) f).slice s = { b.slice s with mbx := f (b.slice s).mbx } :=
  (Block.slice_modSlice ..).trans (if_pos rfl)
/-- The admin mailbox answers. -/
theorem reply_admin {b : Block} {r : Req} (code : W16) (y : Reply) (hr : r.box = none) (hm : 0 < b.host.mps) :
    ∃ h l, b.reply r code y = { b with admin := (b.admin.answering r code).answered (frameOf r code y), host := h, link := l ++ b.link } ∧
      h.evtStatus.getLsbD 0 = true ∧ (r.dma = true → y.out ≠ [] →
        LinkOp.write r.respAddr (y.out.take (min (b.host.mps - r.respAddr.toNat % b.host.mps) y.out.length)) none true ∈ l) := by
  obtain ⟨h, l, he, hs, hfirst⟩ := sendReply_admin (b := b.modBox none (·.answering r code)) r.respAddr (if r.dma then y.out else []) (frameOf r code y) hm
  refine ⟨h, l, ?_, hs, fun hd hy => ?_⟩
  · rw [reply_eq, hr]
    exact he
  · rw [if_pos hd] at hfirst
    exact hfirst hy
/-- A wedged slice's mailbox answers nothing. -/
theorem reply_wedged {b : Block} {r : Req} {s : SliceId} (code : W16) (y : Reply) (hr : r.box = some s) (hst : (b.slice s).st = .wedged) :
    b.reply r code y = b.modBox (some s) (·.answering r code) := by
  rw [reply_eq, hr]
  refine if_pos ?_
  change ((b.modBox (some s) (·.answering r code)).slice s).st == SliceSt.wedged
  rw [slice_modBox]
  exact beq_iff_eq.mpr hst
/-- A slice's mailbox answers where no token holds its writes. -/
theorem mbx_reply_free {b : Block} {r : Req} {s : SliceId} (code : W16) (y : Reply) (hr : r.box = some s) (hst : (b.slice s).st ≠ .wedged)
    (hrate : r.dma = true → (b.slice s).quota.rate = 0) (hm : 0 < b.host.mps) :
    ((b.reply r code y).slice s).mbx = ((b.slice s).mbx.answering r code).answered (frameOf r code y) := by
  have hs := slice_modBox b s (·.answering r code)
  have hgo : ∃ c a' v, Block.boxWrites (some s) ((if r.dma then y.out else []).length + 1) r.respAddr (if r.dma then y.out else [])
      (b.modBox (some s) (·.answering r code)) = (c, a', []) ∧ c.slice s = { (b.modBox (some s) (·.answering r code)).slice s with bucket := v } := by
    cases hd : r.dma with
    | true => exact boxWrites_free _ _ _ _ hm (by rw [hs]; exact hrate hd) (Nat.lt_succ_self _)
    | false => exact ⟨_, _, ((b.modBox (some s) (·.answering r code)).slice s).bucket, rfl, rfl⟩
  obtain ⟨c, a', v, hw, hc⟩ := hgo
  rw [reply_eq, hr]
  refine (mbx_sendReply (by rw [hs]; exact hst) hw hc).trans ?_
  rw [hs]
/-- A slice's response waits for tokens. -/
theorem reply_held {b : Block} {r : Req} {s : SliceId} (code : W16) (y : Reply) (hr : r.box = some s) (hd : r.dma = true) (hy : y.out ≠ [])
    (hst : (b.slice s).st ≠ .wedged) (hrate : (b.slice s).quota.rate ≠ 0)
    (hb : (b.slice s).bucket < (min (b.host.mps - r.respAddr.toNat % b.host.mps) y.out.length : Nat)) :
    b.reply r code y = (b.modBox (some s) (·.answering r code)).modBox (some s)
      (fun m => { m with toWrite := some (r.respAddr, y.out, responseHeader r code y) }) := by
  have hs := slice_modBox b s (·.answering r code)
  have hw := boxWrites_held (b := b.modBox (some s) (·.answering r code)) (n := y.out.length) (a := r.respAddr) hy (by rw [hs]; exact hrate)
    (by rw [hs]; exact hb)
  rw [reply_eq, hr, hd, if_pos rfl, frameOf, if_pos hd, List.append_nil]
  unfold Block.sendReply
  rw [if_neg (by rw [muted_some (by rw [hs]; exact hst)]; decide), hw]
  exact if_pos (by simpa using hy)
/-- What an answered mailbox holds. -/
theorem answered_spec (m : Mbx) (r : Req) (code : W16) (frame : Bytes) : let m' := (m.answering r code).answered frame
    m'.busy = false ∧ m'.done = true ∧ m'.seq = BitVec.ofNat 16 (fld frame 4 2) ∧ m'.cmd = none ∧ m'.window = m.window.writeAll 0 frame :=
  ⟨rfl, rfl, rfl, rfl, rfl⟩
/-- A response carries the host's sequence number. -/
theorem seq_frameOf (r : Req) (code : W16) (y : Reply) : BitVec.ofNat 16 (fld (frameOf r code y) 4 2) = r.seq := by
  rw [frameOf, fld_header_seq, BitVec.ofNat_toNat, BitVec.setWidth_eq]

/-! ### The checks of a frame (R187) -/

/-- Settles O43: the answer by its payload's place, and the checks of a frame as the first that fails. -/
theorem mailboxAnswers : Obligations.MailboxAnswers := by
  refine ⟨?_, ?_⟩
  · intro b r code y hy hm h first
    refine ⟨responseHeader_spec r code y hy, fun sl hr hst => ?_, fun hrate hst => ?_, fun sl hd hne hr hst hrate hb => ?_, fun hr => ?_⟩
    · rw [reply_wedged code y hr hst, hr]
      refine ⟨rfl, ?_, ?_⟩
      · change ((b.modBox (some sl) (·.answering r code)).slice sl).mbx.window = (b.slice sl).mbx.window
        rw [slice_modBox]
        rfl
      · change ((b.modBox (some sl) (·.answering r code)).slice sl).mbx.done = (b.slice sl).mbx.done
        rw [slice_modBox]
        rfl
    · cases hr : r.box with
      | none =>
        obtain ⟨host, l, he, -, -⟩ := reply_admin code y hr hm
        rw [he]
        have ha := answered_spec b.admin r code (frameOf r code y)
        rw [seq_frameOf] at ha
        exact ha
      | some sl =>
        have hm' := mbx_reply_free code y hr (hst sl hr) (fun hd => hrate hd sl hr) hm
        unfold Block.box
        dsimp only
        rw [hm']
        have ha := answered_spec (b.slice sl).mbx r code (frameOf r code y)
        rw [seq_frameOf] at ha
        exact ha
    · rw [reply_held code y hr hd hne hst hrate hb, hr]
      have hs := slice_modBox (b.modBox (some sl) (·.answering r code)) sl (fun m => { m with toWrite := some (r.respAddr, y.out, responseHeader r code y) })
      rw [slice_modBox b sl (·.answering r code)] at hs
      unfold Block.box
      dsimp only
      rw [hs]
      exact ⟨rfl, rfl, rfl, rfl⟩
    · obtain ⟨host, l, he, hs, hfirst⟩ := reply_admin code y hr hm
      rw [he]
      exact ⟨hs, fun hd hne => List.mem_append_left _ (hfirst hd hne), rfl⟩
  · intro b c r own
    refine ⟨fun hv => firstFail_pos (bne_iff_ne.mpr hv), fun hv => ?_⟩
    have hversion : (r.version != 3) = false := bne_eq_false_iff_eq.mpr hv
    refine ⟨fun hbox => (firstFail_neg hversion).trans (firstFail_pos (by rw [hbox]; rfl)), fun hbox hf => ?_⟩
    have hserved : (!(if r.box.isNone then c.admin else c.slice)) = false := by rw [hbox]; rfl
    have hread : r.readFault.isSome = false := by rw [hf]; rfl
    have hpast : b.refuses c r own = firstFail ((Block.frameFails c r).drop 2 ++ _) := (firstFail_neg hversion).trans (firstFail_neg hserved)
    refine ⟨fun hbad => ?_, fun h1 h2 h3 h4 h5 => ?_⟩
    · cases hfields : (r.reserved != 0 || r.declared != r.payload.length && r.readFault.isNone || decide (c.most < r.declared) ||
          (!r.dma && decide (2032 < r.declared))) with
      | true => exact hpast.trans (firstFail_pos hfields)
      | false =>
        refine hpast.trans ((firstFail_neg hfields).trans ((firstFail_neg hread).trans (firstFail_pos ?_)))
        simp only [hf, Bool.or_eq_false_iff, bne_eq_false_iff_eq, Option.isNone_none, Bool.and_true] at hfields
        obtain ⟨⟨⟨hres, hdecl⟩, -⟩, -⟩ := hfields
        rcases hbad with h | h | h
        · exact absurd hres h
        · exact absurd hdecl h
        · rw [h]; rfl
    · have hfields : (r.reserved != 0 || r.declared != r.payload.length && r.readFault.isNone || decide (c.most < r.declared) ||
          (!r.dma && decide (2032 < r.declared))) = false := by
        simp only [Bool.or_eq_false_iff, bne_eq_false_iff_eq, Bool.and_eq_false_iff, decide_eq_false_iff_not, Nat.not_lt, Bool.not_eq_false']
        refine ⟨⟨⟨h1, .inl h2⟩, h4⟩, ?_⟩
        cases hd : r.dma with
        | true => exact .inl rfl
        | false => exact .inr (h5 hd)
      have hlen : (!c.len r.payload.length) = false := by rw [h3]; rfl
      have hown : b.refuses c r own = firstFail _ := hpast.trans ((firstFail_neg hfields).trans ((firstFail_neg hread).trans (firstFail_neg hlen)))
      refine ⟨fun hr hrec he => hown.trans ((firstFail_neg ?_).trans (firstFail_pos ?_)), fun hn hr hrec => ?_⟩
      · rw [hrec]; rfl
      · rw [hr, hrec, he]; rfl
      · have hstates : b.refuses c r own = firstFail _ := hown.trans ((firstFail_neg (by rw [hrec]; rfl)).trans
          ((firstFail_neg (by rw [hr]; rfl)).trans (firstFail_neg (by rw [hn]))))
        refine ⟨fun e he => hstates.trans ((firstFail_pos (by rw [he]; rfl)).trans (by rw [he]; rfl)),
          fun he hl => hstates.trans ((firstFail_neg (by rw [he]; rfl)).trans (firstFail_pos ?_)),
          fun he hl => hstates.trans ((firstFail_neg (by rw [he]; rfl)).trans (firstFail_neg ?_))⟩
        · rw [hrec, Bool.eq_false_iff.mpr (mt List.contains_iff_mem.mp hl)]; rfl
        · rw [List.contains_iff_mem.mpr hl]; rfl

end Sys2Proof.Machine

/-! SUPPORT. A mailbox command whose meaning is spelt otherwise than its statement. -/
namespace Sys2Proof.Machine

/-- A command submits its frame to any meaning that agrees with its own. -/
theorem submits_of {s : State} {i : Instr} {c : Cmd} {r : Req} {body body' : Block → Block × Reply}
    (h : exec i s = done (s.toBlock.command c r body') s) (hb : ∀ b, body' b = body b) : Submits s i c r body := by
  obtain rfl : body' = body := funext hb
  exact submits_of_command h
/-- One whose answer may have to wait. -/
theorem submitsWait_of {s : State} {i : Instr} {c : Cmd} {r : Req} {body body' : Block → Block ⊕ (Block × Reply)}
    (h : exec i s = done (s.toBlock.commandWait c r (fun _ => none) body') s) (hb : ∀ b, body' b = body b) : SubmitsWait s i c r body := by
  obtain rfl : body' = body := funext hb
  exact submits_of_commandWait h
/-- A lifecycle command. -/
theorem submitsLc_of {s : State} {i : Instr} {c : Cmd} {r : Req} {body body' : Block → Option Bytes → Block × Reply}
    (h : exec i s = done (s.toBlock.lcCmd c r body') s) (hb : ∀ b n, body' b n = body b n) : SubmitsLc s i c r body := by
  obtain rfl : body' = body := funext₂ hb
  exact submits_of_lcCmd h

end Sys2Proof.Machine

/-! SUPPORT. The control stores: parity of a stored word, the checks of an image, the commands (R76, R105, R126 to R132, R315). -/
namespace Sys2Proof.Machine

/-! ### Parity (R105) -/

/-- The parity of one more bit. -/
theorem parity_succ (n v : Nat) : parity (n + 1) v = xor (parity n v) (v.testBit n) := by
  unfold parity
  rw [List.range_succ, List.foldl_append, List.foldl_cons, List.foldl_nil]
/-- Words that agree in their bits have the same parity. -/
theorem parity_congr {n v u : Nat} (h : ∀ j < n, u.testBit j = v.testBit j) : parity n u = parity n v := by
  induction n with
  | zero => rfl
  | succ n ih => rw [parity_succ, parity_succ, ih fun j hj => h j (by omega), h n (by omega)]
/-- One bit inverted inverts the parity. -/
theorem parity_flip {n v u i : Nat} (hi : i < n) (hu : u.testBit i = !v.testBit i) (h : ∀ j < n, j ≠ i → u.testBit j = v.testBit j) :
    parity n u = !parity n v := by
  induction n with
  | zero => exact absurd hi (Nat.not_lt_zero _)
  | succ n ih =>
    rw [parity_succ, parity_succ]
    by_cases hn : i = n
    · subst hn
      rw [parity_congr fun j hj => h j (by omega) (by omega), hu, Bool.xor_not]
    · rw [ih (by omega) fun j hj hne => h j (by omega) hne, h n (by omega) (Ne.symm hn), Bool.not_xor]
/-- The bits of a stored word with one inverted. -/
theorem testBit_upset {w : Nat} (v : BitVec w) (i j : Nat) (hi : i < w) : (v ^^^ (1#w <<< i)).toNat.testBit j = xor (v.toNat.testBit j) (decide (i = j)) := by
  rw [BitVec.toNat_xor, Nat.testBit_xor, BitVec.testBit_toNat, BitVec.testBit_toNat, BitVec.getLsbD_shiftLeft, BitVec.getLsbD_one]
  congr 1
  rw [Bool.eq_iff_iff]
  simp only [Bool.and_eq_true, Bool.not_eq_true', decide_eq_true_eq, decide_eq_false_iff_not]
  omega
/-- A microword with a bit inverted fails its parity. -/
theorem microParityOk_upset {v : BitVec 25} {i : Nat} (hi : i < 25) (h : microParityOk v = true) : microParityOk (v ^^^ (1#25 <<< i)) = false := by
  have hflip : parity 25 (v ^^^ (1#25 <<< i)).toNat = !parity 25 v.toNat :=
    parity_flip hi (by rw [testBit_upset v i i hi]; simp) fun j _ hne => by rw [testBit_upset v i j hi]; simp [Ne.symm hne]
  unfold microParityOk at h ⊢
  rw [hflip, h]
  rfl
/-- A group of a nanoword's bits, against the group's parity bit. -/
def groupOk (v : BitVec 196) (k : Nat) : Bool := parity 48 (v.toNat / 2 ^ (48 * k)) == v.getLsbD (192 + k)
/-- A nanoword passes where its four groups do. -/
theorem nanoParityOk_iff {v : BitVec 196} : nanoParityOk v = true ↔ ∀ k < 4, groupOk v k = true := by
  unfold nanoParityOk groupOk
  simp only [List.all_eq_true, List.mem_range]
/-- A nanoword with a bit inverted fails the group that the bit counts in. -/
theorem nanoParityOk_upset {v : BitVec 196} {i : Nat} (hi : i < 196) (h : nanoParityOk v = true) : nanoParityOk (v ^^^ (1#196 <<< i)) = false := by
  have hbit (k j : Nat) : ((v ^^^ (1#196 <<< i)).toNat / 2 ^ (48 * k)).testBit j = xor ((v.toNat / 2 ^ (48 * k)).testBit j) (decide (i = 48 * k + j)) := by
    rw [Nat.testBit_div_two_pow, Nat.testBit_div_two_pow, testBit_upset v i _ hi, Nat.add_comm]
  have hcheck (k : Nat) : (v ^^^ (1#196 <<< i)).getLsbD (192 + k) = xor (v.getLsbD (192 + k)) (decide (i = 192 + k)) := testBit_upset v i _ hi
  rw [Bool.eq_false_iff, Ne, nanoParityOk_iff]
  rw [nanoParityOk_iff] at h
  intro hall
  by_cases hlow : i < 192
  · have hflip : parity 48 ((v ^^^ (1#196 <<< i)).toNat / 2 ^ (48 * (i / 48))) = !parity 48 (v.toNat / 2 ^ (48 * (i / 48))) :=
      parity_flip (i := i % 48) (Nat.mod_lt _ (by decide)) (by rw [hbit]; simp [Nat.div_add_mod]) fun j hj hne => by
        have hno : ¬ i = 48 * (i / 48) + j := by omega
        rw [hbit]; simp [hno]
    have hold := h (i / 48) (by omega)
    have hnew := hall (i / 48) (by omega)
    have hno : ¬ i = 192 + i / 48 := by omega
    unfold groupOk at hold hnew
    rw [hflip, hcheck, ← beq_iff_eq.mp hold] at hnew
    simp [hno] at hnew
  · have hkeep : parity 48 ((v ^^^ (1#196 <<< i)).toNat / 2 ^ (48 * (i - 192))) = parity 48 (v.toNat / 2 ^ (48 * (i - 192))) :=
      parity_congr fun j hj => by
        have hno : ¬ i = 48 * (i - 192) + j := by omega
        rw [hbit]; simp [hno]
    have hold := h (i - 192) (by omega)
    have hnew := hall (i - 192) (by omega)
    have hyes : i = 192 + (i - 192) := by omega
    unfold groupOk at hold hnew
    rw [hkeep, hcheck, ← beq_iff_eq.mp hold] at hnew
    simp [← hyes] at hnew

/-! ### The scrubber (R105) -/

/-- The scrubber leaves a wale alone whose stores are in use. -/
theorem exec_csScrub_idle {s : State} {w : WaleId} (h : (s.toBlock.wale w).st = .running ∨ (s.toBlock.wale w).st = .wiping ∨
    (s.toBlock.wale w).st = .spilling ∨ (s.toBlock.wale w).st = .fenced) (nano : Bool) (a : BitVec 14) (u : Option (Fin 196)) :
    exec (.csScrub w nano a u) s = .next s := by
  refine done_same (if_pos ?_)
  rcases h with h | h | h | h <;> rw [h] <;> decide
/-- A wale at rest is scrubbed. -/
theorem at_rest_scrubbed {x : Wale} (h : x.st = .gated ∨ x.st = .clockGated ∨ x.st = .warm) : ¬ (x.st ≠ .gated ∧ x.st ≠ .clockGated ∧ x.st ≠ .warm) := by
  rintro ⟨h1, h2, h3⟩
  rcases h with h | h | h
  · exact h1 h
  · exact h2 h
  · exact h3 h

/-- The failing checks of an image bear the numbers of Table 5.14. -/
theorem imageFails_range {b : Block} {p : Bytes} {n : Nat} (h : b.imageFails p = some n) : 1 ≤ n ∧ n ≤ 12 := by
  unfold Block.imageFails at h
  obtain ⟨e, he, rfl⟩ := Option.map_eq_some_iff.mp h
  have hmem := mem_of_firstFail he
  simp only [List.mem_cons, List.not_mem_nil, or_false, Prod.mk.injEq] at hmem
  rcases hmem with h | h | h | h | h | h | h | h | h | h | h | h <;> rw [h.2.2] <;> decide

/-- Settles O45: each command is the meaning the statement gives it, and the scrubber by the parity of the word. -/
theorem controlStoreCommands : Obligations.ControlStoreCommands := by
  refine ⟨fun s r bad => ?_, fun s w a => ?_, fun s w ok => ?_, fun b p => ⟨fun h => ?_, fun n h => imageFails_range h⟩⟩
  · intro p
    refine ⟨submits_of rfl fun b => ?_, submits_of_commandWait rfl, submits_of_commandWait rfl⟩
    unfold walIndex
    by_cases h0 : fld p 2 2 ≠ 0
    · rw [if_pos h0, if_pos h0]
    · rw [if_neg h0, if_neg h0]
      by_cases hw : fld p 0 2 < 64
      · rw [dif_pos hw, if_neg (Nat.not_le.mpr hw)]
        dsimp only
        split <;> rfl
      · rw [dif_neg hw, if_pos (Nat.not_lt.mp hw)]
  · intro b x
    refine ⟨fun nano u h => exec_csScrub_idle h nano a u, fun hst => ?_⟩
    have hrest := at_rest_scrubbed hst
    refine ⟨fun h => done_same ((if_neg hrest).trans ((if_neg Bool.false_ne_true).trans ((if_pos ?_).trans (if_neg Bool.false_ne_true)))),
      fun h => done_to ((if_neg hrest).trans ((if_neg Bool.false_ne_true).trans ((if_neg ?_).trans ?_))),
      fun h => done_same ((if_neg hrest).trans ((if_pos rfl).trans ((if_pos ?_).trans (if_neg Bool.false_ne_true)))),
      fun h => done_to ((if_neg hrest).trans ((if_pos rfl).trans ((if_neg ?_).trans ?_))),
      fun i h => done_to ((if_neg hrest).trans ((if_neg Bool.false_ne_true).trans (if_neg ?_))),
      fun i h => done_to ((if_neg hrest).trans ((if_pos rfl).trans (if_neg ?_)))⟩
    · exact (congrArg microParityOk BitVec.xor_zero).trans h
    · exact Bool.eq_false_iff.mp ((congrArg microParityOk BitVec.xor_zero).trans h)
    · rfl
    · exact (congrArg nanoParityOk BitVec.xor_zero).trans h
    · exact Bool.eq_false_iff.mp ((congrArg nanoParityOk BitVec.xor_zero).trans h)
    · rfl
    · exact Bool.eq_false_iff.mp (microParityOk_upset i.isLt h)
    · exact Bool.eq_false_iff.mp (nanoParityOk_upset i.isLt h)
  · intro b
    have hfound (r : FenceRec) (h : (b.flt.recs.find? (fun p => p.1 == (FUnit.wale w.val).source.toNat)).map (·.2) = some r) (ok : Bool) :
        exec (.csReloadEnd w ok) s = done (if r.kind ≠ 0x03 ∨ !b.flt.fence.has (.wale w.val) then b else if !ok || !b.storePort w then b
          else if r.held then b.reload w else (b.reload w).unfence (.wale w.val)) s := by
      refine congrArg (fun c => done c s) ?_
      rw [show (s.toBlock.flt.recs.find? _).map _ = some r from h]
    have hnone (h : (b.flt.recs.find? (fun p => p.1 == (FUnit.wale w.val).source.toNat)).map (·.2) = none) (ok : Bool) :
        exec (.csReloadEnd w ok) s = .next s := by
      refine done_same ?_
      rw [show (s.toBlock.flt.recs.find? _).map _ = none from h]
    have hbad (r : FenceRec) (ok : Bool) (h : ok = false ∨ b.storePort w = false) :
        (if r.kind ≠ 0x03 ∨ !b.flt.fence.has (.wale w.val) then b else if !ok || !b.storePort w then b
          else if r.held then b.reload w else (b.reload w).unfence (.wale w.val)) = b := by
      refine (congrArg (ite _ b) (if_pos ?_)).trans (ite_self b)
      rcases h with h | h
      · rw [h]; rfl
      · rw [h]; exact Bool.or_true _
    have hidle (ok : Bool) (h : ok = false ∨ b.storePort w = false) : exec (.csReloadEnd w ok) s = .next s := by
      cases hr : (b.flt.recs.find? (fun p => p.1 == (FUnit.wale w.val).source.toNat)).map (·.2) with
      | none => exact hnone hr ok
      | some r => exact (hfound r hr ok).trans (done_same (hbad r ok h))
    refine ⟨fun h => hnone ?_ ok, hidle false (.inl rfl), fun h => hidle true (.inr h), fun r hr => ⟨fun h => ?_, fun hk hf hp => ⟨fun hh => ?_, fun hh => ?_⟩⟩⟩
    · rw [Option.map_eq_none_iff, List.find?_eq_none]
      exact fun p hp => by simpa using h p hp
    · refine (hfound r hr true).trans (done_same (if_pos ?_))
      rcases h with h | h
      · exact .inl h
      · exact .inr (by rw [h]; rfl)
    · refine (hfound r hr true).trans (done_to ((if_neg ?_).trans ((if_neg ?_).trans (if_pos hh))))
      · simp [hk, hf]
      · simp [hp]
    · refine (hfound r hr true).trans (done_to ((if_neg ?_).trans ((if_neg ?_).trans (if_neg (by simp [hh])))))
      · simp [hk, hf]
      · simp [hp]
  · unfold Block.imageFails at h
    have hall := firstFail_eq_none.mp (Option.map_eq_none_iff.mp h)
    simp only [List.mem_cons, forall_eq_or_imp] at hall
    obtain ⟨hform, howner, -, hfloor, hregion, -, hmaker, -, -, -, -, hlife, -⟩ := hall
    simp only [Bool.or_eq_false_iff, bne_eq_false_iff_eq, decide_eq_false_iff_not, Nat.not_lt] at hform howner hfloor hregion
    obtain ⟨⟨⟨⟨⟨⟨⟨⟨⟨⟨⟨⟨hmagic, -⟩, -⟩, -⟩, -⟩, -⟩, -⟩, -⟩, -⟩, -⟩, -⟩, -⟩, hlen⟩ := hform
    obtain ⟨⟨hlo, hhi⟩, -⟩ := hregion
    refine ⟨hfloor, hmagic, hlo, hhi, howner, hlen, ?_, fun i hi => ?_⟩
    · rw [Bool.not_eq_false'] at hlife
      exact List.contains_iff_mem.mp hlife
    · rw [List.any_eq_false] at hmaker
      exact Bool.eq_false_iff.mpr (hmaker _ (List.mem_map.mpr ⟨i, List.mem_range.mpr hi, rfl⟩))

end Sys2Proof.Machine

/-! SUPPORT. Lifecycle, policy, device-scope keys, measurement and the digest port (Tables 10.11 to 10.18). -/
namespace Sys2Proof.Machine

/-- The policies that tighten no further (R253). -/
theorem tightens_eq_false {old new : W32} : (!tightens old new) = true ↔ new &&& 0x7F &&& ~~~old ≠ 0 ∨ bits new.toNat 9 8 < bits old.toNat 9 8 := by
  unfold tightens
  simp only [Bool.not_and, Bool.or_eq_true, Bool.not_eq_true', beq_eq_false_iff_ne, decide_eq_false_iff_not, Nat.not_le]
/-- The device-scope key a payload names, and how it fails. -/
theorem deviceKey_cases {α : Type} (b : Block) (p : Bytes) (fail : Reply → α) (go : W32 → α) :
    (match b.deviceKey p with | .error e => fail e | .ok h => go h) =
      if b.kst.st ≠ .unlocked then fail (.fail St.keyState 0)
      else if devScope (BitVec.ofNat 32 (fld p 0 4)) = false ∨ b.key (BitVec.ofNat 32 (fld p 0 4)) = none then fail (.fail St.keyNotFound 0)
      else go (BitVec.ofNat 32 (fld p 0 4)) := by
  unfold Block.deviceKey
  by_cases hst : b.kst.st ≠ .unlocked
  · rw [if_pos hst, if_pos hst]
  · rw [if_neg hst, if_neg hst]
    cases hs : devScope (BitVec.ofNat 32 (fld p 0 4)) <;> cases hk : b.key (BitVec.ofNat 32 (fld p 0 4)) <;> rfl
/-- Which change of the lifecycle a transition's target asks for. -/
theorem transition_choice {α : Type} (b : Block) (t : Nat) (bad deploy decom : α) :
    (if (!(t == 3 && b.otp.lifecycle == .provisioned && b.otp.stepping == 0xC0) &&
        !(t == 4 && (b.otp.lifecycle == .provisioned || b.otp.lifecycle == .deployed))) = true then bad else if t = 3 then deploy else decom) =
      if t = 3 ∧ b.otp.lifecycle = .provisioned ∧ b.otp.stepping = 0xC0 then deploy
      else if t = 4 ∧ (b.otp.lifecycle = .provisioned ∨ b.otp.lifecycle = .deployed) then decom else bad := by
  by_cases hd : t = 3 ∧ b.otp.lifecycle = .provisioned ∧ b.otp.stepping = 0xC0
  · obtain ⟨ht, hl, hs⟩ := hd
    simp [ht, hl, hs]
  · rw [if_neg hd]
    have hdb : (t == 3 && b.otp.lifecycle == .provisioned && b.otp.stepping == 0xC0) = false := by
      rw [Bool.eq_false_iff]
      simpa [and_assoc] using hd
    by_cases hc : t = 4 ∧ (b.otp.lifecycle = .provisioned ∨ b.otp.lifecycle = .deployed)
    · obtain ⟨ht, hl⟩ := hc
      rcases hl with hl | hl <;> simp [ht, hl]
    · have hcb : (t == 4 && (b.otp.lifecycle == .provisioned || b.otp.lifecycle == .deployed)) = false := by
        rw [Bool.eq_false_iff]
        simpa using hc
      rw [if_neg hc, hdb, hcb]
      rfl
/-- What a digest command answers. -/
def answerDig (b : Block) (x : Option SliceId) : Except Reply (Dig × Bytes) → Block × Reply
  | .error e => (b, e)
  | .ok (d, out) => (b.setDig x d, .ok out)
/-- What an extension records. -/
theorem extend_spec (b : Block) (m : Nat) (d d' : Bytes) :
    let b' := b.extend m d d'
    let old : Bank := Tab.get {} b.att.regs m
    (Tab.get {} b'.att.regs m : Bank) = { sha2 := sha384 (old.sha2 ++ d), sha3 := sha3of384 (old.sha3 ++ d') } ∧
    (∀ n, n ≠ m → (Tab.get {} b'.att.regs n : Bank) = Tab.get {} b.att.regs n) ∧
    (b.att.events.length < 1024 → b'.att.events.length = b.att.events.length + 1 ∧ b'.att.overflow = b.att.overflow) ∧
    (1024 ≤ b.att.events.length → b'.att.events = b.att.events ∧ b'.att.overflow = true) ∧ { b' with att := b.att } = b := by
  intro b' old
  refine ⟨(Tab.get_put ..).trans (if_pos rfl), fun n hn => (Tab.get_put ..).trans (if_neg hn.symm), fun h => ⟨?_, ?_⟩, fun h => ⟨?_, ?_⟩, rfl⟩
  · exact (congrArg List.length (if_pos h)).trans List.length_append
  · exact (congrArg _ (decide_eq_false (Nat.not_le.mpr h))).trans (Bool.or_false _)
  · exact if_neg (Nat.not_lt.mpr h)
  · exact (congrArg _ (decide_eq_true h)).trans (Bool.or_true _)

/-- Settles O48: each command is the meaning the statement gives it, a device key by what becomes of its job. -/
theorem lifecycleAndKeyCommands : Obligations.LifecycleAndKeyCommands := by
  refine ⟨fun s r => ?_, extend_spec⟩
  intro p
  refine ⟨submitsLc_of rfl fun b n => ?_, submits_of_lcCmd rfl, submitsLc_of rfl fun b n => ?_, submits_of rfl fun b => ?_,
    submitsWait_of rfl fun b => ?_, fun b e t ctr => ⟨rfl, rfl, rfl, rfl, rfl, rfl, rfl, rfl⟩, submits_of rfl fun b => ?_, submits_of rfl fun b => ?_,
    submits_of_command rfl, ?_⟩
  · cases b.drawDevice 32 with
    | none => rfl
    | some x => exact if_congr (by simp only [Bool.or_eq_true, Bool.not_eq_true', or_assoc]) rfl rfl
  · refine (match_firstFail_pair (fun st d => (b, Reply.fail st d)) _ _).trans ?_
    simp only [checkedBy_cons, checkedBy_nil, bne_iff_ne, Bool.or_eq_true, Bool.not_eq_true']
    refine if_congr Iff.rfl rfl (if_congr Iff.rfl rfl (if_congr Iff.rfl rfl (if_congr Iff.rfl rfl ?_)))
    exact transition_choice b (fld r.payload 0 1) _ _ _
  · refine if_congr Iff.rfl rfl (if_congr (and_congr_right fun _ => tightens_eq_false) rfl rfl)
  · unfold Block.createDevice
    refine (match_firstFail_pair (fun st d => (Sum.inr (b, Reply.fail st d) : Block ⊕ (Block × Reply))) _ _).trans ?_
    rw [checkedBy_cons, checkedBy_cons, checkedBy_cons, checkedBy_cons, checkedBy_cons, checkedBy_cons, checkedBy_cons, checkedBy_nil]
    refine if_congr bne_iff_ne rfl (if_congr (by rw [Bool.not_eq_true']) rfl (if_congr (by rw [Bool.not_eq_true']) rfl (if_congr (by rw [Bool.and_eq_true, Option.isNone_iff_eq_none]) rfl ?_)))
    cases b.lacking ((b.entryOf (generatorOf (fld r.payload 0 2))).getD {}) with
    | some d => rfl
    | none =>
      refine (if_neg Bool.false_ne_true).trans (if_congr ?_ rfl (if_congr decide_eq_true_iff rfl rfl))
      rw [Bool.and_eq_true, List.all_eq_true, Fin.forall_iff]
      simp only [List.mem_range, beq_iff_eq]
      rfl
  · refine (deviceKey_cases b r.payload (fun e => (b, e)) _).trans rfl
  · exact (deviceKey_cases b r.payload (fun e => (b, e)) _)
  · intro dig begun
    refine ⟨submits_of_command rfl, submits_of rfl fun b => congrArg (answerDig b r.box) ?_, submits_of_command rfl, submits_of_command rfl, submits_of_command rfl⟩
    refine if_congr Iff.rfl rfl (if_congr ?_ rfl rfl)
    simp only [Option.any_eq_true, decide_eq_true_eq]
    rfl

end Sys2Proof.Machine

/-! SUPPORT. Randomness, tamper and fault settings (Tables 11.11, 12.8 and 13.7). -/
namespace Sys2Proof.Machine

/-- A policy that is not loosened opens no response and keeps its closed sources. -/
theorem loosens_false {old new : Policy} (h : loosens old new = false) :
    old.closed = new.closed ∧ ∀ (t : Nat) (a c : Resp), old.resp[t]? = some a → new.resp[t]? = some c → a.code ≤ c.code := by
  unfold loosens at h
  simp only [Bool.or_eq_false_iff, bne_eq_false_iff_eq, List.any_eq_false, decide_eq_true_eq, Nat.not_lt] at h
  obtain ⟨⟨hresp, -⟩, hclosed⟩ := h
  refine ⟨hclosed, fun t a c ha hc => ?_⟩
  have hzip : (old.resp.zip new.resp)[t]? = some (a, c) := List.getElem?_zip_eq_some.mpr ⟨ha, hc⟩
  exact hresp (a, c) (List.mem_of_getElem? hzip)
/-- The unit that a fence command's source names. -/
theorem fenceTarget_cases {α : Type} (p : Bytes) (fail : Reply → α) (go : W16 → FUnit → α) :
    (match fenceTarget p with | .error e => fail e | .ok (src, u) => go src u) =
      if fld p 2 2 ≠ 0 then fail (.fail St.badParam 0) else
      match FUnit.ofSource (BitVec.ofNat 16 (fld p 0 2)) with
      | none => fail (.fail St.badParam 1)
      | some u => go (BitVec.ofNat 16 (fld p 0 2)) u := by
  unfold fenceTarget
  by_cases h : fld p 2 2 ≠ 0
  · rw [if_pos h, if_pos h]
  · rw [if_neg h, if_neg h]
    cases FUnit.ofSource (BitVec.ofNat 16 (fld p 0 2)) <;> rfl

/-- Settles O50: each command is the meaning the statement gives it; a policy that is not looser by its fields. -/
theorem protectionSettings : Obligations.ProtectionSettings := by
  refine ⟨fun s r samples => ?_, fun old new h => loosens_false h⟩
  intro p
  refine ⟨submits_of_command rfl, submits_of rfl fun b => ?_, submits_of_command rfl, submits_of rfl fun b => ?_, submits_of_command rfl,
    submits_of_command rfl, submits_of_command rfl, submits_of rfl fun b => ?_, submits_of_command rfl, submits_of rfl fun b => ?_, fun x n => rfl,
    submitsWait_of rfl fun b => ?_, submitsWait_of rfl fun b => ?_⟩
  · exact if_congr Iff.rfl rfl (if_congr (or_congr_right (by rw [Bool.not_eq_true'])) rfl rfl)
  · exact if_congr (by rw [Bool.not_eq_true']) rfl (if_congr Option.isNone_iff_eq_none rfl rfl)
  · refine (apply_ite (·, Reply.ok []) _ _ _).trans (if_congr (Bool.or_eq_true_iff.trans (or_congr_right ?_)) rfl rfl)
    simp only [List.any_eq_true, List.mem_range, Bool.and_eq_true, decide_eq_true_eq, Fin.exists_iff, exists_prop]
  · refine congrArg (fun l => (({ b with flt := { b.flt with log := l } } : Block), Reply.ok [])) (List.filter_congr fun x _ => ?_)
    rw [Bool.eq_iff_iff]
    simp only [Bool.or_eq_true, Bool.and_eq_true, Bool.not_eq_true', decide_eq_true_eq, Bool.and_eq_false_iff, decide_eq_false_iff_not]
    have hlater : (!b.flt.log.any fun x => decide (b.flt.seq < x.1)) = false ↔ ¬ ∀ x ∈ b.flt.log, x.1 ≤ b.flt.seq := by
      simp only [Bool.not_eq_false', List.any_eq_true, decide_eq_true_eq, Classical.not_forall, BitVec.not_le, exists_prop]
    rw [hlater, ← Classical.not_and_iff_not_or_not]
  · refine (fenceTarget_cases r.payload (fun e => Sum.inr (b, e)) _).trans (if_congr Iff.rfl rfl ?_)
    cases FUnit.ofSource (BitVec.ofNat 16 (fld p 0 2)) with
    | none => rfl
    | some u =>
      refine if_congr Bool.or_eq_true_iff rfl (if_congr (by rw [Bool.not_eq_true']) rfl ?_)
      cases hf : b.fenceStays u with
      | true => rfl
      | false =>
        refine Eq.trans ?_ (if_neg Bool.false_ne_true).symm
        cases u with
        | noise i => exact if_congr (Iff.of_eq (Bool.not_eq_true' (b.sourceOn i))) rfl rfl
        | _ => rfl
  · exact fenceTarget_cases r.payload (fun e => Sum.inr (b, e)) _

end Sys2Proof.Machine

/-! SUPPORT. The fault collector: the merge window, the log, the events (R310 to R320). -/
namespace Sys2Proof.Machine

/-! ### The order of notes (R20, R312, R322) -/

/-- Two words less than half the range apart: their difference tells the lesser. -/
theorem msb_sub_of_lt {x y : W64} (hx : x.toNat < 2 ^ 62) (hy : y.toNat < 2 ^ 62) : (x - y).msb = decide (x.toNat < y.toNat) := by
  rw [BitVec.msb_eq_decide, BitVec.toNat_sub, decide_eq_decide]
  omega
/-- A note's place in the order, from a time that all notes at hand are near to. -/
def notePlace (t : W64) (k : W64 × W16) : Nat × Nat := ((k.1 - t).toNat, k.2.toNat)
/-- The lower of two places: the earlier time, and the lower source at the same time. -/
def placeLt (a c : Nat × Nat) : Prop := a.1 < c.1 ∨ a.1 = c.1 ∧ a.2 < c.2
/-- None is lower than itself, and what is not lower than what is not lower than a third is not lower than the third. -/
theorem not_placeLt_self (a : Nat × Nat) : ¬ placeLt a a := by
  unfold placeLt
  omega
theorem placeLt_asymm {a c : Nat × Nat} (h : placeLt a c) : ¬ placeLt c a := by
  unfold placeLt at h ⊢
  omega
theorem not_placeLt_trans {a c d : Nat × Nat} (h : ¬ placeLt a c) (k : ¬ placeLt c d) : ¬ placeLt a d := by
  unfold placeLt at h k ⊢
  omega
/-- Of notes near a time, one comes before another where its place is lower. -/
theorem before_iff {t : W64} {a c : W64 × W16} (ha : (a.1 - t).toNat < 2 ^ 62) (hc : (c.1 - t).toNat < 2 ^ 62) :
    Note.before a c = true ↔ placeLt (notePlace t a) (notePlace t c) := by
  have hdiff : a.1 - c.1 = (a.1 - t) - (c.1 - t) := by bv_omega
  have heq : a.1 = c.1 ↔ (a.1 - t).toNat = (c.1 - t).toNat := by
    constructor
    · exact fun h => by rw [h]
    · intro h
      have := BitVec.eq_of_toNat_eq h
      bv_omega
  unfold Note.before notePlace placeLt
  rw [hdiff, msb_sub_of_lt ha hc, Bool.or_eq_true, Bool.and_eq_true, decide_eq_true_eq, beq_iff_eq, decide_eq_true_eq, heq]
  rfl
/-- Of some notes one is the first. -/
theorem firstNote_ne_none {l : List Note} (h : l ≠ []) : firstNote l ≠ none := by
  cases l with
  | nil => exact absurd rfl h
  | cons n r =>
    unfold firstNote
    split
    · split <;> exact nofun
    · exact nofun
/-- The note taken first is of the list, and none comes before it. -/
theorem firstNote_spec (l : List Note) : ∀ m, firstNote l = some m → m ∈ l ∧
    ∀ t : W64, (∀ k ∈ l, (k.ts - t).toNat < 2 ^ 62) → ∀ k ∈ l, ¬ placeLt (notePlace t (k.ts, k.source)) (notePlace t (m.ts, m.source)) := by
  induction l with
  | nil => exact fun m h => nomatch h
  | cons n r ih =>
    intro m h
    unfold firstNote at h
    cases hr : firstNote r with
    | none =>
      rw [hr] at h
      obtain rfl := Option.some.inj h
      obtain rfl : r = [] := Classical.byContradiction fun hne => firstNote_ne_none hne hr
      exact ⟨List.mem_cons_self, fun t _ k hk => by rw [List.mem_singleton.mp hk]; exact not_placeLt_self _⟩
    | some x =>
      rw [hr] at h
      obtain ⟨hx, hleast⟩ := ih x hr
      dsimp only at h
      split at h
      · rename_i hb
        obtain rfl := Option.some.inj h
        refine ⟨List.mem_cons_of_mem _ hx, fun t ht k hk => ?_⟩
        rcases List.mem_cons.mp hk with rfl | hk
        · exact placeLt_asymm ((before_iff (ht _ (List.mem_cons_of_mem _ hx)) (ht _ List.mem_cons_self)).mp hb)
        · exact hleast t (fun k hk => ht k (List.mem_cons_of_mem _ hk)) k hk
      · rename_i hb
        obtain rfl := Option.some.inj h
        refine ⟨List.mem_cons_self, fun t ht k hk => ?_⟩
        have hle : ¬ placeLt (notePlace t (x.ts, x.source)) (notePlace t (n.ts, n.source)) := fun hlt =>
           hb ((before_iff (ht _ (List.mem_cons_of_mem _ hx)) (ht _ List.mem_cons_self)).mpr hlt)
        rcases List.mem_cons.mp hk with rfl | hk
        · exact not_placeLt_self _
        · exact not_placeLt_trans (hleast t (fun k hk => ht k (List.mem_cons_of_mem _ hk)) k hk) hle

/-! ### The log (R320) -/

/-- Taking one occurrence out shortens a list by one. -/
theorem length_takeOut {α : Type} [DecidableEq α] {x : α} {l : List α} (h : x ∈ l) : (takeOut x l).length = l.length - 1 := by
  induction l with
  | nil => exact absurd h List.not_mem_nil
  | cons y r ih =>
    unfold takeOut
    split
    · rfl
    · rename_i hne
      have hr : x ∈ r := (List.mem_cons.mp h).resolve_left (Ne.symm hne)
      have hpos := List.length_pos_of_mem hr
      rw [List.length_cons, List.length_cons, ih hr]
      omega
/-- What differs from it stays. -/
theorem mem_takeOut {α : Type} [DecidableEq α] {x y : α} {l : List α} (hne : y ≠ x) (h : y ∈ l) : y ∈ takeOut x l := by
  induction l with
  | nil => exact absurd h List.not_mem_nil
  | cons z r ih =>
    unfold takeOut
    split
    · rename_i hz
      exact (List.mem_cons.mp h).resolve_left fun hy => hne (hy.trans hz)
    · rcases List.mem_cons.mp h with rfl | hr
      · exact List.mem_cons_self
      · exact List.mem_cons_of_mem _ (ih hr)
/-- A log made room in holds one note less. -/
theorem length_makeRoom (l : List (W32 × Note)) : (makeRoom l).length = l.length - 1 := by
  unfold makeRoom
  cases h : l.reverse.find? (fun p => p.2.cls == 0) with
  | none => exact List.length_dropLast
  | some p =>
    have hp := List.mem_of_find?_eq_some h
    dsimp only
    rw [List.length_reverse, length_takeOut hp, List.length_reverse]
/-- A note above F0 stays while one of F0 can leave. -/
theorem mem_makeRoom {l : List (W32 × Note)} {e : W32 × Note} (he : e ∈ l) (hc : e.2.cls ≠ 0) (hk : ∃ k ∈ l, k.2.cls = 0) : e ∈ makeRoom l := by
  unfold makeRoom
  cases h : l.reverse.find? (fun p => p.2.cls == 0) with
  | none =>
    obtain ⟨k, hk, h0⟩ := hk
    exact absurd (beq_iff_eq.mpr h0) (List.find?_eq_none.mp h k (List.mem_reverse.mpr hk))
  | some p =>
    have hp : p.2.cls = 0 := by simpa using List.find?_some h
    have hne : e ≠ p := fun heq => hc (heq ▸ hp)
    exact List.mem_reverse.mpr (mem_takeOut hne (List.mem_reverse.mpr he))
/-- An event leaves the fault collector alone. -/
@[simp] theorem flt_event (b : Block) (i : Nat) : (b.event i).flt = b.flt := by
  obtain ⟨h, l, he, -⟩ := event_eq b i
  rw [he]
/-- Is a note held back, an F0 note of a source and kind that the log took within the last millisecond? -/
def Block.holdsBack (b : Block) (n : Note) : Bool :=
  n.cls == 0 && n.kind != 0x18 && (b.flt.kept.find? (fun k => k.1 == n.source && k.2.1 == n.kind)).any (fun k => decide ((n.ts - k.2.2).toNat < 1000000))
/-- A note held back changes nothing. -/
theorem placeNote_held {b : Block} {n : Note} (h : b.holdsBack n = true) : b.placeNote n = b := by
  unfold Block.holdsBack at h
  unfold Block.placeNote
  refine if_pos (Eq.trans ?_ h)
  cases b.flt.kept.find? (fun k => k.1 == n.source && k.2.1 == n.kind) <;> rfl
/-- Any other stands at the head of the log under the next number. -/
theorem placeNote_flt {b : Block} {n : Note} (h : b.holdsBack n = false) :
    (b.placeNote n).flt.seq = nextSeq b.flt.seq ∧
    (b.placeNote n).flt.log = (nextSeq b.flt.seq, n) :: (if decide (2048 ≤ b.flt.log.length) then makeRoom b.flt.log else b.flt.log) ∧
    (b.placeNote n).flt.lost = (if decide (2048 ≤ b.flt.log.length) ∧ b.flt.lost ≠ 0xFFFFFFFF then b.flt.lost + 1 else b.flt.lost) ∧
    (b.placeNote n).flt.wrap = (b.flt.wrap || decide (2048 ≤ b.flt.log.length)) := by
  unfold Block.holdsBack at h
  unfold Block.placeNote
  dsimp only
  cases hk : b.flt.kept.find? (fun k => k.1 == n.source && k.2.1 == n.kind) <;>
  · rw [hk] at h
    dsimp only [Option.any_none, Option.any_some] at h ⊢
    rw [if_neg (Bool.eq_false_iff.mp h)]
    split
    · exact ⟨rfl, rfl, rfl, rfl⟩
    · rw [flt_event]
      exact ⟨rfl, rfl, rfl, rfl⟩

/-- Settles O54: each event by the state of the unit it names, and the full log by its oldest F0 note. -/
theorem faultEvents : Obligations.FaultEvents := by
  refine ⟨fun s n => ?_, fun b id j n st d hj he hp => ?_, fun s q src ok f => ?_, fun b n hlen => ?_⟩
  · intro b moves
    have hmoves (c : Nat) : (b.chan c).xfer.any (fun x => !((b.job x.job).any (·.sent) && x.write && x.target == 0)) = true ↔ moves c := by
      simp only [Option.any_eq_true, Bool.not_eq_true', moves]
      refine exists_congr fun x => and_congr_right fun _ => ?_
      rw [← Bool.not_eq_true, Bool.and_eq_true, Bool.and_eq_true, beq_iff_eq, Option.any_eq_true]
      exact not_congr ⟨fun ⟨⟨hj, hw⟩, ht⟩ => ⟨hw, ht, hj⟩, fun ⟨hw, ht, hj⟩ => ⟨⟨hj, hw⟩, ht⟩⟩
    refine ⟨fun ha => done_same (if_pos (by rw [ha]; rfl)), fun ha c hc hm => done_to ((if_neg (by rw [ha]; decide)).trans ?_), fun ha hm => ?_⟩
    · rw [hc, Option.filter_some, if_pos ((hmoves c).mpr hm)]
    · have hnone : (ownBuffers n).filter (fun c => (b.chan c).xfer.any (fun x => !((b.job x.job).any (·.sent) && x.write && x.target == 0))) = none := by
        rw [Option.filter_eq_none_iff]
        exact fun c hc hyes => hm c hc ((hmoves c).mp hyes)
      intro ago b'
      refine ⟨fun h => done_to ((if_neg (by rw [ha]; decide)).trans ?_), fun id e hj he => done_to ((if_neg (by rw [ha]; decide)).trans ?_)⟩
      · rw [hnone]
        change (match n.job, noteStatus n.kind n.detail with
          | some id, some (st, d) => b'.failNoted id (b.now - BitVec.ofNat 64 ago, n.source) st d
          | _, _ => b').checkWake = _
        rcases h with h | h <;> rw [h]
        cases n.job <;> rfl
      · rw [hnone]
        change (match n.job, noteStatus n.kind n.detail with
          | some id, some (st, d) => b'.failNoted id (b.now - BitVec.ofNat 64 ago, n.source) st d
          | _, _ => b').checkWake = _
        rw [hj, he]
  · have hcase : b.failNoted id n st d = if j.noted.any (fun m => Note.before n m) then
        b.modJob id (fun j => { j with result := { status := st, detail := d }, noted := some n }) else b := by
      unfold Block.failNoted
      rw [hj]
      exact if_pos ⟨he, hp⟩
    refine ⟨fun m hm hb => hcase.trans (if_pos ?_), fun hno => hcase.trans (if_neg ?_)⟩
    · rw [hm]; exact hb
    · cases hm : j.noted with
      | none => exact Bool.false_ne_true
      | some m => exact Bool.eq_false_iff.mp (hno m hm)
  · intro b
    refine ⟨fun hm => ?_, fun hm => ?_, fun hc => done_same (if_pos (by rw [hc]; rfl)), fun hc => done_to (if_neg (by rw [hc]; decide)), fun hr => ?_,
      fun u r hr hd => ?_, fun hf => ?_, fun hf hn => ⟨fun ht => ?_, ?_⟩⟩
    · refine done_same ?_
      rw [hm]
      rfl
    · cases hfirst : firstNote b.flt.merging with
      | none => exact absurd hfirst (firstNote_ne_none hm)
      | some m =>
        obtain ⟨hmem, hleast⟩ := firstNote_spec _ m hfirst
        refine ⟨m, hmem, fun t ht k hk => ?_, done_to ?_⟩
        · have hle := hleast t ht k hk
          unfold notePlace placeLt at hle
          dsimp only at hle
          rcases Nat.lt_trichotomy (m.ts - t).toNat (k.ts - t).toNat with hlt | heq | hgt
          · exact .inl hlt
          · have hts := BitVec.eq_of_toNat_eq heq
            exact .inr ⟨by bv_omega, BitVec.le_def.mpr (by omega)⟩
          · exact absurd (.inl hgt) hle
        · rw [hfirst]
    · refine done_same ?_
      rcases hr with hr | hd
      · exact if_pos (by rw [hr]; rfl)
      · rw [hd]
        exact ite_self _
    · refine done_to ((if_neg (by rw [hr]; decide)).trans ?_)
      rw [hd]
    · refine done_same ?_
      rcases hf with hf | ⟨i, hf⟩ <;> rw [hf]
    · have hend : b.endTest f ok = b := if_pos (by simpa using ht)
      refine done_to ?_
      rw [hf]
      cases f with
      | noise i => exact absurd rfl (hn i)
      | _ => exact congrArg Block.checkWake hend
    · refine done_to ?_
      rw [hf]
      cases f with
      | noise i => exact absurd rfl (hn i)
      | _ => rfl
  · intro b'
    have hnext : nextSeq b.flt.seq ≠ b.flt.seq := by
      unfold nextSeq
      split
      · rename_i h; rw [h]; decide
      · bv_omega
    cases hh : b.holdsBack n with
    | true =>
      have hsame : b' = b := placeNote_held hh
      refine ⟨by rw [hsame]; exact hlen, .inl (by rw [hsame]), fun hn => ?_⟩
      simp only [Block.holdsBack, Bool.and_eq_true, beq_iff_eq, bne_iff_ne] at hh
      obtain ⟨⟨hc, hkind⟩, -⟩ := hh
      exact (hn.elim (fun h => absurd hc h) (fun h => absurd h hkind))
    | false =>
      obtain ⟨hseq, hlog, hlost, hwrap⟩ := placeNote_flt hh
      refine ⟨?_, .inr ⟨nextSeq b.flt.seq, by rw [hlog]; rfl, hseq, rfl, fun hroom => ?_, fun hfull => ?_⟩, fun _ heq => hnext (hseq.symm.trans (congrArg Faults.seq heq))⟩
      · rw [hlog, List.length_cons]
        split
        · rw [length_makeRoom]; omega
        · rename_i h
          rw [decide_eq_true_eq] at h
          omega
      · have hno : decide (2048 ≤ b.flt.log.length) = false := decide_eq_false (by omega)
        rw [hlog, hlost, hno]
        exact ⟨rfl, rfl⟩
      · have hyes : decide (2048 ≤ b.flt.log.length) = true := decide_eq_true (by omega)
        rw [hlog, hwrap, hyes, Bool.or_true, if_pos rfl, List.length_cons, length_makeRoom]
        exact ⟨rfl, by omega, fun e he hc hk => List.mem_cons_of_mem _ (mem_makeRoom he hc hk)⟩

end Sys2Proof.Machine

/-! SUPPORT. Links, frames and time of the fabric (chapter 14). -/
namespace Sys2Proof.Machine

/-- A changed port. -/
@[simp] theorem port_modPort (b : Block) (p : PortId) (f : Port → Port) : (b.modPort p f).port p = f (b.port p) := Vector.getElem_set_self _
/-- A note of the fabric leaves its ports alone. -/
@[simp] theorem port_fabricF0 (b : Block) (p : PortId) (port fn : Nat) (kind : Byte) (d : W32) : (b.fabricF0 port fn kind d).port p = b.port p := rfl

/-! ### Stages and joining (R324, R327, R328) -/

/-- The stage of a port that waits for its retry, or of a device that is stopped, does not end. -/
theorem exec_linkStageEnd_idle {s : State} {p : PortId} (h : (s.toBlock.port p).retryAt ≠ none ∨ s.toBlock.stopped = true ∨ s.toBlock.boot.coreUp = false)
    (e : StageEnd) : exec (.linkStageEnd p e) s = .next s := by
  refine done_same (if_pos ?_)
  rcases h with h | h | h
  · rw [Option.isSome_iff_ne_none.mpr h]; rfl
  · rw [h, Bool.or_true]; rfl
  · rw [h]; exact Bool.or_true _
/-- What the end of a stage does at a port in state `st` that does not wait. -/
def Block.stageEnd (b : Block) (p : PortId) (st : PortSt) (e : StageEnd) : Block :=
  match st, e with
  | .training, .ok l _ _ _ _ _ => if l = 0 then b.stageFails p 1 else b.modPort p (fun x => { x with st := .auth, lanes := BitVec.ofNat 2 l.val })
  | .auth, .ok _ _ _ _ _ _ => b.modPort p (fun x => { x with st := .keys })
  | .keys, .ok _ _ _ _ _ _ => (b.drew 64).modPort p (fun x => { x with st := .join, keys := b.anyBytes 64 })
  | .join, .ok _ peer self digest depth plan =>
    if (b.port p).refusedAt.isSome then b
    else if b.wty.isolated.contains peer && b.wty.master && (b.port p).role != .down then b.stageFails p 6
    else b.joinEnd p peer self digest depth plan
  | .up, .ok _ _ _ digest depth plan => b.relayedJoin p digest depth plan
  | .join, .failed r => if (b.port p).refusedAt.isSome then b else b.stageFails p r
  | .training, .failed r | .auth, .failed r | .keys, .failed r => b.stageFails p r
  | _, _ => b
/-- The master refuses a joining device. -/
theorem decideJoin_error {b : Block} {d : Bytes} {depth c : Nat} {p : PortId} (h : b.joinCause d depth = .error c) :
    b.decideJoin p d depth = (.error c, b.fabricF0 p 0 0x22 (BitVec.ofNat 32 (c * 256))) := by
  unfold Block.decideJoin
  rw [h]
/-- The master joins a device. -/
theorem decideJoin_ok {b : Block} {d : Bytes} {depth : Nat} {m : BitVec 12} {p : PortId} (h : b.joinCause d depth = .ok m) :
    b.decideJoin p d depth = (.ok m, b.modWty (fun f => { f with
      members := Tab.put f.members m.toNat { joined := true, lastSeen := b.now, depth := depth }, paths := Tab.put f.paths m.toNat p })) := by
  unfold Block.decideJoin
  rw [h]
/-- A join's cause is none of the plan's where the digest is unknown. -/
theorem joinCause_unknown {b : Block} {d : Bytes} (depth : Nat) (h : ∀ e ∈ b.wty.plan, e.digest ≠ d) : b.joinCause d depth = .error 1 := by
  have hnone : b.wty.plan.find? (fun e => e.digest == d) = none := List.find?_eq_none.mpr fun e he => by simpa using h e he
  unfold Block.joinCause
  rw [hnone]
/-- A device joins under its plan's number, where that is not joined or quarantined, at a depth up to 7. -/
theorem joinCause_ok {b : Block} {d : Bytes} {depth : Nat} {m : BitVec 12} (h : b.joinCause d depth = .ok m) :
    depth ≤ 7 ∧ (∃ e ∈ b.wty.plan, e.digest = d ∧ e.member = m) ∧
      (Tab.get {} b.wty.members m.toNat : Member).joined = false ∧ (Tab.get {} b.wty.members m.toNat : Member).quarantined = false := by
  unfold Block.joinCause at h
  cases hf : b.wty.plan.find? (fun e => e.digest == d) with
  | none => rw [hf] at h; exact nomatch h
  | some e =>
    rw [hf] at h
    dsimp only at h
    split at h
    · exact nomatch h
    rename_i hj
    split at h
    · exact nomatch h
    rename_i hd
    split at h
    · exact nomatch h
    rename_i hq
    obtain rfl := Except.ok.inj h
    exact ⟨Nat.not_lt.mp hd, ⟨e, List.mem_of_find?_eq_some hf, by simpa using List.find?_some hf, rfl⟩, Bool.eq_false_iff.mpr hj, Bool.eq_false_iff.mpr hq⟩

/-! ### The time of the fabric (R330, R332) -/

/-- A correction that is not the third in a row of a member not locked counts and measures the frequency alone. -/
theorem aligned_counts {b : Block} {t : W64} (h : b.wty.good < 2 ∨ b.timeLocked = true) :
    b.aligned t = b.modWty (fun f => { f with
      good := b.wty.good + 1, freq := (Config.freeNat 80 t.toNat % 200001 : Nat) - 100000, rate := (Config.freeNat 80 t.toNat % 200001 : Nat) - 100000 }) := by
  unfold Block.aligned
  refine if_pos ?_
  rcases h with h | h
  · exact (congrArg (· || _) (decide_eq_true (Nat.succ_lt_succ h))).trans (Bool.true_or _)
  · exact (congrArg (_ || ·) h).trans (Bool.or_true _)
/-- The third correction in a row locks a member. -/
theorem aligned_locks {b : Block} {t : W64} (hg : 2 ≤ b.wty.good) (hl : b.timeLocked = false) :
    let good : Block := b.modWty (fun f => { f with
      good := b.wty.good + 1, freq := (Config.freeNat 80 t.toNat % 200001 : Nat) - 100000, rate := (Config.freeNat 80 t.toNat % 200001 : Nat) - 100000 })
    b.aligned t = (if b.holdover then (good.modWty (fun f => { f with holdSince := none })).fabricF0 0 1 0x25 (openDetail 0x25) else good).setLock true false := by
  unfold Block.aligned
  refine if_neg ?_
  rw [Bool.or_eq_true, decide_eq_true_iff, not_or]
  exact ⟨by omega, Bool.eq_false_iff.mp hl⟩
/-- What a time-synchronisation frame does to a port that is up, to one that is not, and on each role. -/
theorem syncFrame_spec (s : State) (p : PortId) (y : SyncStamp) :
    let b := s.toBlock
    let x := b.port p
    let t := y.stamp + BitVec.ofNat 64 (y.roundTrip / 2)
    let ahead := (b.now - t).toNat
    let behind := (t - b.now).toNat
    let run := exec (.syncFrame p y) s
    let steered (r : Int) : Block := b.modWty (fun f => { f with good := 0, rate := r })
    let toward : Block := steered (Config.freeNat 81 t.toNat % 100001 : Nat)
    let q : Int := (Config.freeNat 80 t.toNat % 200001 : Nat) - 100000
    let good : Block := b.modWty (fun f => { f with good := b.wty.good + 1, freq := q, rate := q });
    (x.st ≠ .up ∨ b.joined = false ∨ x.role = .off ∨ x.role = .alt ∨ (b.wty.master = true ∧ x.role = .up) → run = .next s) ∧
    (x.st = .up → b.joined = true → x.role = .down →
      (behind ≤ 1000000 ∨ 2 ^ 63 ≤ behind → run = .next s) ∧
      (1000000 < behind → behind < 2 ^ 63 →
        (b.wty.master = true → run = .next (s.to (b.stepTo (t + 1000)))) ∧
        (b.wty.master = false → b.upLink = none → run = .next s) ∧
        (∀ u, b.wty.master = false → b.upLink = some u → run = .next (s.to (b.sendFrame u "sync" (le 8 t.toNat)))))) ∧
    (x.st = .up → x.role = .up → b.joined = true → b.wty.master = false →
      (2 < behind → 2 < ahead →
        (2 ^ 63 ≤ behind → run = .next (s.to (steered (-100000)))) ∧
        (behind < 2 ^ 63 → b.timeLocked = false ∨ 1000000 < behind → run = .next (s.to (toward.stepTo t))) ∧
        (behind ≤ 1000000 → b.timeLocked = true → run = .next (s.to toward))) ∧
      (behind ≤ 2 ∨ ahead ≤ 2 →
        (b.wty.good < 2 ∨ b.timeLocked = true → run = .next (s.to good)) ∧
        (2 ≤ b.wty.good → b.timeLocked = false → b.holdover = false → run = .next (s.to (good.setLock true false))) ∧
        (2 ≤ b.wty.good → b.timeLocked = false → b.holdover = true → run =
          .next (s.to (((good.modWty (fun f => { f with holdSince := none })).fabricF0 0 1 0x25 (openDetail 0x25)).setLock true false))))) := by
  intro b x t ahead behind run steered toward q good
  have hlive (hs : x.st = .up) (hj : b.joined = true) : ¬ (x.st ≠ .up ∨ (!b.joined) = true) := by
    rw [hs, hj]
    decide
  refine ⟨fun h => done_same ?_, fun hs hj hr => ?_, fun hs hr hj hm => ?_⟩
  · by_cases hdead : x.st ≠ .up ∨ (!b.joined) = true
    · exact if_pos hdead
    · refine (if_neg hdead).trans ?_
      rcases h with h | h | h | h | ⟨hm, h⟩
      · exact absurd (.inl h) hdead
      · exact absurd (.inr (congrArg not h)) hdead
      · exact (if_neg (by rw [show (s.toBlock.port p).role = .off from h]; decide)).trans (if_pos (.inr (by rw [show (s.toBlock.port p).role = .off from h]; decide)))
      · exact (if_neg (by rw [show (s.toBlock.port p).role = .alt from h]; decide)).trans (if_pos (.inr (by rw [show (s.toBlock.port p).role = .alt from h]; decide)))
      · exact (if_neg (by rw [show (s.toBlock.port p).role = .up from h]; decide)).trans (if_pos (.inl hm))
  · refine ⟨fun h => done_same ((if_neg (hlive hs hj)).trans ((if_pos hr).trans (if_pos h))), fun h1 h2 => ?_⟩
    have hgo : ¬ (behind ≤ 1000000 ∨ 2 ^ 63 ≤ behind) := not_or.mpr ⟨Nat.not_le.mpr h1, Nat.not_le.mpr h2⟩
    refine ⟨fun hm => done_to ((if_neg (hlive hs hj)).trans ((if_pos hr).trans ((if_neg hgo).trans (if_pos hm)))),
      fun hm hu => done_same ((if_neg (hlive hs hj)).trans ((if_pos hr).trans ((if_neg hgo).trans ((if_neg (by rw [hm]; decide)).trans ?_)))),
      fun u hm hu => done_to ((if_neg (hlive hs hj)).trans ((if_pos hr).trans ((if_neg hgo).trans ((if_neg (by rw [hm]; decide)).trans ?_))))⟩
    · rw [show s.toBlock.upLink = none from hu]
    · rw [show s.toBlock.upLink = some u from hu]
  · have hup : ¬ x.role = .down := by rw [hr]; decide
    have hmember : ¬ (b.wty.master = true ∨ x.role ≠ .up) := by
      rw [hm, hr]
      decide
    have hgo {e : Block} (h : (if behind ≤ 2 ∨ ahead ≤ 2 then b.aligned t else
        if (!b.timeLocked ∨ 1000000 < behind) ∧ behind < 2 ^ 63 then
          (steered (if behind < 2 ^ 63 then (Config.freeNat 81 t.toNat % 100001 : Nat) else -100000)).stepTo t
        else steered (if behind < 2 ^ 63 then (Config.freeNat 81 t.toNat % 100001 : Nat) else -100000)) = e) : run = .next (s.to e) :=
      done_to ((if_neg (hlive hs hj)).trans ((if_neg hup).trans ((if_neg hmember).trans h)))
    refine ⟨fun h1 h2 => ?_, fun h => ⟨fun hg => hgo ((if_pos h).trans (aligned_counts hg)), fun hg hl hh => hgo ((if_pos h).trans ?_), fun hg hl hh => hgo ((if_pos h).trans ?_)⟩⟩
    · have hfar : ¬ (behind ≤ 2 ∨ ahead ≤ 2) := not_or.mpr ⟨Nat.not_le.mpr h1, Nat.not_le.mpr h2⟩
      refine ⟨fun h => hgo ((if_neg hfar).trans ((if_neg fun hb => absurd hb.2 (Nat.not_lt.mpr h)).trans ?_)),
        fun h hl => hgo ((if_neg hfar).trans ((if_pos ⟨hl.imp (congrArg not ·) id, h⟩).trans ?_)),
        fun h hl => hgo ((if_neg hfar).trans ((if_neg ?_).trans ?_))⟩
      · rw [if_neg (Nat.not_lt.mpr h)]
      · rw [if_pos h]
      · rintro ⟨hfree | hb, _⟩
        · rw [hl] at hfree; exact nomatch hfree
        · exact absurd hb (Nat.not_lt.mpr h)
      · rw [if_pos (Nat.lt_of_le_of_lt h (by decide))]
    · rw [aligned_locks hg hl, hh]
      rfl
    · rw [aligned_locks hg hl, hh]
      rfl

/-- Settles O55: the stages and frames of a port by their cases, a join by its cause, and a correction of the time by the good ones before it. -/
theorem fabricLinks : Obligations.FabricLinks := by
  refine ⟨fun s p l peer self dig depth plan reason => ?_, fun b d depth => ⟨joinCause_unknown depth, fun m => joinCause_ok⟩,
    fun b p what body => ⟨rfl, ?_⟩, fun s p n => ?_⟩
  · intro b x ok run put plans refuse
    refine ⟨exec_linkStageEnd_idle, fun hst hr e => ?_, fun hr hs hc => ?_, fun h => ?_, fun t h => ?_, fun h => ?_, fun t h => ?_, ?_, ?_⟩
    · have hwait : (b.port p).refusedAt.isSome = true := Option.isSome_iff_ne_none.mpr hr
      refine done_same ?_
      by_cases ho : ((b.port p).retryAt.isSome || b.stopped || !b.boot.coreUp) = true
      · exact if_pos ho
      · refine (if_neg ho).trans ?_
        rw [show (s.toBlock.port p).st = .join from hst]
        cases e with
        | ok l peer self dig depth plan => exact if_pos hwait
        | failed r => exact if_pos hwait
    · have hlive : ¬ ((b.port p).retryAt.isSome || b.stopped || !b.boot.coreUp) = true := by
        rw [show (b.port p).retryAt = none from hr, hs, hc]
        decide
      have hgo {st : PortSt} (hst : x.st = st) (e : StageEnd) {c : Block} (h : b.stageEnd p st e = c) : run e = .next (s.to c) := by
        refine done_to ((if_neg hlive).trans ?_)
        rw [show (s.toBlock.port p).st = st from hst]
        exact h
      refine ⟨fun h e => ?_, fun h => hgo h _ rfl, fun h hrole hm => ⟨fun c hj => hgo h _ ?_, fun m hj => hgo h _ ?_⟩, fun h hrole hm => ⟨fun hu => hgo h _ ?_, fun u hu => hgo h _ ?_⟩,
        fun h hrole d hd => ⟨fun hsb => hgo h _ ?_, fun hsb => hgo h _ ?_⟩, fun h hrole => hgo h _ ?_, fun h hl => hgo h _ (if_pos hl), fun h hl => hgo h _ (if_neg hl),
        fun h => hgo h _ rfl, fun h => hgo h _ rfl, fun h ha hi hm hrole => hgo h _ ?_, fun h ha hi => ?_, fun h ha => ?_⟩
      · rcases h with h | h
        · exact hgo h _ (by cases e <;> rfl)
        · exact hgo h _ (by cases e <;> rfl)
      · change b.relayedJoin p dig depth plan = _
        unfold Block.relayedJoin
        rw [show (b.port p).role = .down from hrole]
        refine (if_pos hm).trans ?_
        rw [decideJoin_error hj]
      · change b.relayedJoin p dig depth plan = _
        unfold Block.relayedJoin
        rw [show (b.port p).role = .down from hrole]
        refine (if_pos hm).trans ?_
        rw [decideJoin_ok hj]
        rfl
      · change b.relayedJoin p dig depth plan = _
        unfold Block.relayedJoin
        rw [show (b.port p).role = .down from hrole]
        refine (if_neg (by rw [hm]; decide)).trans ?_
        rw [hu]
      · change b.relayedJoin p dig depth plan = _
        unfold Block.relayedJoin
        rw [show (b.port p).role = .down from hrole]
        refine (if_neg (by rw [hm]; decide)).trans ?_
        rw [hu]
      · change b.relayedJoin p dig depth plan = _
        unfold Block.relayedJoin
        rw [show (b.port p).role = .up from hrole, hd]
        exact if_pos hsb
      · change b.relayedJoin p dig depth plan = _
        unfold Block.relayedJoin
        rw [show (b.port p).role = .up from hrole, hd]
        exact if_neg (by rw [hsb]; decide)
      · change b.relayedJoin p dig depth plan = _
        rcases hrole with hrole | hrole | ⟨hrole, hplan⟩
        · unfold Block.relayedJoin
          rw [show (b.port p).role = .off from hrole]
        · unfold Block.relayedJoin
          rw [show (b.port p).role = .alt from hrole]
        · unfold Block.relayedJoin
          rw [show (b.port p).role = .up from hrole, hplan]
      · refine (if_neg (by rw [show (b.port p).refusedAt = none from ha]; decide)).trans (if_pos ?_)
        rw [hi, hm, Bool.and_true, Bool.true_and]
        exact bne_iff_ne.mpr hrole
      · have hjoin {c : Block} (hc : b.joinEnd p peer self dig depth plan = c) : run ok = .next (s.to c) := by
          refine hgo h _ ((if_neg (by rw [show (b.port p).refusedAt = none from ha]; decide)).trans ((if_neg ?_).trans hc))
          simp only [Bool.and_eq_true, bne_iff_ne]
          rintro ⟨⟨hiso, hmas⟩, hdown⟩
          rcases hi with hi | hi | hi
          · rw [hi] at hiso; exact nomatch hiso
          · rw [hi] at hmas; exact nomatch hmas
          · exact hdown hi
        refine ⟨fun hrole => hjoin ?_, fun hrole hm hj => hjoin ?_, fun hrole hm hj => hjoin ?_, fun hrole => hjoin ?_,
          fun hrole hm => ⟨fun c hj => hjoin ?_, fun m hj => hjoin ?_⟩, fun hrole => ⟨_, hjoin rfl, ?_⟩⟩
        all_goals
          unfold Block.joinEnd
          rw [show (b.port p).role = _ from hrole]
        · exact (if_neg (by rw [hm]; decide)).trans (if_neg (by rw [hj]; decide))
        · exact (if_neg (by rw [hm]; decide)).trans (if_pos hj)
        · refine (if_pos hm).trans ?_
          rw [decideJoin_error hj]
        · refine (if_pos hm).trans ?_
          rw [decideJoin_ok hj]
          rfl
        · dsimp only
          have hport : ((b.linkUp p peer).port p) = { b.port p with
              st := .up, peer := peer, frame := 0, sent := 0, drops := 0, keyFrames := 0, lastValid := b.now, keyedAt := b.now, refusedAt := none, idle := 0 } :=
            port_modPort ..
          refine ⟨rfl, rfl, rfl, rfl, rfl, congrArg Port.st hport, congrArg Port.peer hport, fun d hd => ?_⟩
          rw [hd]
          rfl
      · simp only [List.mem_cons, List.not_mem_nil, or_false] at h
        rcases h with h | h | h | h
        · exact hgo h _ rfl
        · exact hgo h _ rfl
        · exact hgo h _ rfl
        · have hfree : (b.port p).refusedAt = none := ha.resolve_left fun hne => hne h
          exact hgo h _ (if_neg (by rw [hfree]; decide))
    · refine done_same ?_
      rw [show (s.toBlock.port p).retryAt = none from h]
    · refine done_to ?_
      rw [show (s.toBlock.port p).retryAt = some t from h]
    · refine done_same ?_
      rw [show (s.toBlock.port p).refusedAt = none from h]
    · refine done_to ?_
      rw [show (s.toBlock.port p).refusedAt = some t from h]
    · unfold Block.stageFails
      rw [port_fabricF0, port_modPort]
    · unfold Block.stageFails
      rw [port_fabricF0, port_modPort]
  · exact congrArg Port.sent (Vector.getElem_set_self (xs := b.wty.ports) (i := p) _)
  · intro b x
    refine ⟨fun h => ⟨fun g => ?_, ?_, ?_⟩, fun h => ⟨fun hn => ?_, fun g hg => ⟨fun hd => ?_, fun hd => ?_⟩, ?_, ?_⟩, fun h => ?_, fun hr hs => ?_, fun y => ?_, fun h => ?_, fun t h => ?_⟩
    · exact done_same (if_pos h)
    · exact done_same (if_pos h)
    · exact done_same (if_pos h)
    · exact done_to ((if_neg (not_not_intro h)).trans (if_pos ⟨rfl, hn⟩))
    · have hfew : ¬ 7 ≤ (b.port p).drops := Nat.not_le.mpr hd
      refine done_to ((if_neg (not_not_intro h)).trans ((if_neg ?_).trans (if_neg hfew)))
      rintro ⟨htag, hframe⟩
      rcases hg with hg | hg
      · exact hg hframe
      · rw [hg] at htag; exact nomatch htag
    · refine done_to ((if_neg (not_not_intro h)).trans ((if_neg ?_).trans (if_pos hd)))
      rintro ⟨htag, hframe⟩
      rcases hg with hg | hg
      · exact hg hframe
      · rw [hg] at htag; exact nomatch htag
    · exact done_to (if_neg (not_not_intro h))
    · exact done_to (if_neg (not_not_intro h))
    · exact done_same (if_pos h)
    · intro b'
      have hno : ¬ ((b.port p).role = .off ∨ (b.port p).st = .fenced) := not_or.mpr ⟨hr, hs⟩
      exact ⟨fun h => done_to ((if_neg hno).trans (if_pos h)), fun h => done_to ((if_neg hno).trans (if_neg h))⟩
    · exact syncFrame_spec s p y
    · refine done_same ?_
      rw [show s.toBlock.wty.holdSince = none from h]
    · refine done_to ?_
      rw [show s.toBlock.wty.holdSince = some t from h]

end Sys2Proof.Machine

/-! SUPPORT. Members, masters, replicas and spread jobs of the fabric (chapter 14). -/
namespace Sys2Proof.Machine

/-! ### What the warm pool and a key's reservation leave alone -/

/-- Waking wales leaves the slices alone. -/
theorem slices_wakeSome (p : Wale → Bool) (q n : Nat) (b : Block) : (Block.wakeSome p q n b).slices = b.slices := by
  induction n generalizing b with
  | zero => rfl
  | succ n ih =>
    unfold Block.wakeSome
    dsimp only
    split
    · exact ih _
    · rfl
/-- Keeping the warm pool leaves the slices alone. -/
theorem slices_refill (b : Block) : b.refill.slices = b.slices := by
  unfold Block.refill
  split
  · rfl
  · refine List.foldlRecOn (motive := fun c : Block => c.slices = b.slices) _ _ rfl fun c hc q _ => ?_
    dsimp only
    split
    · rw [slices_wakeSome, slices_wakeSome, hc]
    · exact hc
/-- Changing a key's entry leaves the jobs alone. -/
theorem jobs_modKey (b : Block) (h : W32) (f : Key → Key) : (b.modKey h f).jobs = b.jobs := by
  unfold Block.modKey
  split <;> rfl
/-- Counting a job on its keys leaves the jobs alone. -/
theorem jobs_reserveKeys (l : List W32) (b : Block) :
    (l.foldl (fun (b : Block) (h : W32) => b.modKey h (fun k => { k with reserved := k.reserved + 1 })) b).jobs = b.jobs :=
  List.foldlRecOn (motive := fun c : Block => c.jobs = b.jobs) l _ rfl fun _ hc _ _ => (jobs_modKey ..).trans hc
/-- An empty list's deficit leaves the jobs alone. -/
theorem jobs_dryDeficit (b : Block) (lvl s : Nat) : (b.dryDeficit lvl s).jobs = b.jobs := by
  unfold Block.dryDeficit
  dsimp only
  split
  · rfl
  · split <;> rfl
/-- An empty list's deficit leaves the slices alone. -/
theorem slices_dryDeficit (b : Block) (lvl s : Nat) : (b.dryDeficit lvl s).slices = b.slices := by
  unfold Block.dryDeficit
  dsimp only
  split
  · rfl
  · split <;> rfl

/-! ### A guard of three conditions -/

/-- One of the three holds. -/
theorem or3_true {x y z : Bool} (h : x = true ∨ y = true ∨ z = true) : (x || y || z) = true := by
  rwa [Bool.or_eq_true, Bool.or_eq_true, or_assoc]
/-- None of the three holds. -/
theorem or3_not {x y z : Bool} (hx : x = false) (hy : y = false) (hz : z = false) : ¬ (x || y || z) = true := by
  rw [hx, hy, hz]
  decide

/-! ### The size of a lease (R339) -/

/-- A lease never exceeds what remains. -/
theorem leaseSize_le (left members : Nat) : leaseSize left members ≤ left := Nat.min_le_left ..
/-- A lease is at most 1,024. -/
theorem leaseSize_le_1024 (left members : Nat) : leaseSize left members ≤ 1024 := Nat.le_trans (Nat.min_le_right ..) (Nat.min_le_left ..)
/-- Something remains: the lease is at least one. -/
theorem one_le_leaseSize {left members : Nat} (h : left ≠ 0) : 1 ≤ leaseSize left members :=
  Nat.le_min.mpr ⟨Nat.pos_of_ne_zero h, Nat.le_min.mpr ⟨by decide, Nat.le_max_left ..⟩⟩

/-! ### A zeroise notice and the policy (R341, R342) -/

/-- The links to the sender of a notice go down, and it is isolated. -/
def Block.cutSender (b : Block) (m : BitVec 12) : Block :=
  (List.finRange 4).foldl (fun (b : Block) (q : PortId) => if (b.port q).peer = m then b.linkDown q else b)
    (b.modWty (fun f => { f with isolated := m :: f.isolated.filter (· != m) }))
/-- The replicas shared with the sender of a notice go. -/
def Block.dropShared (b : Block) (m : BitVec 12) : Block :=
  (b.slices.filter (fun x => x.2.replicated && x.2.members.contains m)).foldl (fun (b : Block) (x : Nat × Slice) => b.dropReplicas x.1) b
/-- The store is swept and every job ends. -/
def Block.sweepAll (b : Block) : Block := Block.failJobs (b.zeroiseLine.jobsWhere (fun _ => true)) St.aborted 4 b.zeroiseLine
/-- A notice is noted and sent on, and at the master its sender is quarantined. -/
def Block.noticed (b : Block) (p : PortId) (m : BitVec 12) (term : W64) : Block :=
  let b := ((b.modWty (fun f => { f with seenNotices := (m, term) :: f.seenNotices })).sendNotice (some p) m term.toNat).fabricF0 p 5 0x28 (m.setWidth 32)
  if b.wty.master = true then b.modWty (fun f => { f with
    members := Tab.put f.members m.toNat { (Tab.get {} f.members m.toNat : Member) with quarantined := true, joined := false } }) else b
/-- What the device's policy adds to a notice. -/
def Block.obeyNotice (b : Block) (pol : Nat) (m : BitVec 12) : Block :=
  let b := if pol = 0 then b else b.cutSender m
  let b := if pol < 2 then b else b.dropShared m
  if pol < 3 then b else b.sweepAll

/-- Policy 0 adds nothing. -/
theorem obeyNotice_zero (b : Block) (m : BitVec 12) : b.obeyNotice 0 m = b := rfl
/-- Policy 1 cuts the sender off. -/
theorem obeyNotice_one (b : Block) (m : BitVec 12) : b.obeyNotice 1 m = b.cutSender m := rfl
/-- Policy 2 drops what is shared with it too. -/
theorem obeyNotice_two (b : Block) (m : BitVec 12) : b.obeyNotice 2 m = (b.cutSender m).dropShared m := rfl
/-- Policy 3 sweeps the store too. -/
theorem obeyNotice_three (b : Block) (m : BitVec 12) : b.obeyNotice 3 m = ((b.cutSender m).dropShared m).sweepAll := rfl

section Notice
variable {s : State} {p : PortId} {m : BitVec 12} {term : W64}
  (hguard : ¬ ((s.toBlock.port p).st ≠ .up ∨ s.toBlock.wty.seenNotices.contains (m, term) = true))
include hguard
/-- A new notice is taken, and the policy obeyed. -/
theorem exec_notice : exec (.zeroiseNotice p m term) s = .next (s.to ((s.toBlock.noticed p m term).obeyNotice s.toBlock.wty.fzPolicy.toNat m)) := by
  change execZeroiseNotice p m term s = _
  unfold execZeroiseNotice
  extract_lets b pol b₁ b₂ put b₃ b₄ b₅ b₆
  refine done_to ?_
  rw [if_neg hguard]
  have h₃ : s.toBlock.noticed p m term = b₃ := by
    unfold Block.noticed
    have h₂ : ((s.toBlock.modWty (fun f => { f with seenNotices := (m, term) :: f.seenNotices })).sendNotice (some p) m term.toNat).fabricF0 p 5 0x28 (m.setWidth 32) = b₂ := rfl
    rw [h₂]
  rw [h₃]
  have h₅ : (if pol = 0 then b₃ else b₃.cutSender m) = b₅ := rfl
  have h₆ : (if pol < 2 then b₅ else b₅.dropShared m) = b₆ := rfl
  unfold Block.obeyNotice
  change (if pol < 3 then b₆ else b₆.sweepAll) = _
  rw [← h₆, ← h₅]
end Notice

/-! ### A job a neighbour has forwarded (R344) -/

/-- The job a neighbour's descriptor makes here. -/
def Block.takenJob (b : Block) (p : PortId) (sl : SliceId) (desc input param : Bytes) (remote : Nat) (e : Entry) : Job :=
  let d := parseDesc desc
  let op := native d.opcode.toNat
  let k := if e.namesKey d then (b.visibleKey sl d.handle).getD {} else {}
  let k2 := if handle2Op op && !e.customer then (b.visibleKey sl d.handle2).getD {} else {}
  { id := b.dsp.next, slice := sl, ring := 0, index := 0, desc := d, entry := e,
    level := if (b.slice sl).ceiling.val < d.priority.toNat % 8 then (b.slice sl).ceiling else Fin.ofNat 8 d.priority.toNat,
    admittedAt := b.now, readySince := b.now, levelAt := b.now, useHeld := e.namesKey d && (keyNeed e op).secret,
    order := b.orderOf sl op e d k, keyObj := k, keyTwo := k2, reservedKst := ((b.knownKey sl e d).map entrySpace).getD 0,
    input := input, param := param, fixed := d.inLen, remote := some (p, remote) }
/-- A job joins the end of its ready list, and its keys are held for it. -/
def Block.takesIn (b : Block) (j : Job) : Block :=
  let b := b.dryDeficit j.level j.list
  let b := { b with jobs := b.jobs ++ [j], dsp := { b.dsp with next := j.id + 1 } }
  j.usedKeys.foldl (fun (b : Block) (h : W32) => b.modKey h (fun k => { k with reserved := k.reserved + 1 })) b

/-- Settles O56: each frame by the role of the device that takes it. -/
theorem fabricMembers : Obligations.FabricMembers := by
  refine ⟨fun s p m n => ?_, fun s h m k c p term => ?_, fun s id j p sl d i q n => ?_⟩
  · intro b x mem
    have hlive (hs : x.st = .up) (hj : b.joined = true) : ¬ (x.st ≠ .up ∨ (!b.joined) = true) := by
      rw [hs, hj]
      decide
    have hno {v : Bool} (h : v = false) : ¬ v = true := Bool.eq_false_iff.mp h
    refine ⟨fun h => done_same (if_pos (h.imp id (congrArg not ·))), fun hs hj hm => ⟨fun h => ?_, fun h hq => ?_⟩, fun hs hj hm hr he => ?_,
      fun hs hj hm hr he => ⟨fun h => ?_, fun d hd hp => ?_⟩, fun hs hj hm hr => ⟨fun hu => ?_, fun u hu => ?_⟩,
      fun h => done_same (if_pos (h.imp (congrArg not ·) (congrArg not ·))), fun hm hj => done_to (if_neg ?_), fun h => done_same (if_pos ?_),
      fun hj hm hl => done_to (if_neg ?_), fun h => done_same (if_pos ?_), fun hs he hl hn => done_to (if_neg ?_), fun h => done_same (if_pos (congrArg not h)),
      fun h => done_to (if_neg (hno (congrArg not h))), fun h => done_same (if_pos ?_), fun hl hc hm => done_to (if_neg ?_), fun h => done_same (if_pos h),
      fun h => done_to (if_neg (not_not_intro h)), rfl⟩
    · refine done_same ((if_neg (hlive hs hj)).trans ((if_pos hm).trans (if_pos (h.imp (fun ⟨h1, h2⟩ => ?_) id))))
      rw [show (Tab.get {} s.toBlock.wty.members m.toNat : Member).joined = false from h1, show (Tab.get {} s.toBlock.wty.members m.toNat : Member).lost = false from h2]
      rfl
    · refine done_to ((if_neg (hlive hs hj)).trans ((if_pos hm).trans (if_neg (not_or.mpr ⟨?_, hno hq⟩))))
      rw [Bool.and_eq_true, Bool.not_eq_true', Bool.not_eq_true']
      rintro ⟨h1, h2⟩
      rcases h with h | h
      · rw [show (Tab.get {} s.toBlock.wty.members m.toNat : Member).joined = true from h] at h1; exact nomatch h1
      · rw [show (Tab.get {} s.toBlock.wty.members m.toNat : Member).lost = true from h] at h2; exact nomatch h2
    · exact done_to ((if_neg (hlive hs hj)).trans ((if_neg (hno hm)).trans ((if_pos hr).trans (if_pos he))))
    · refine done_same ((if_neg (hlive hs hj)).trans ((if_neg (hno hm)).trans ((if_pos hr).trans ((if_neg he).trans ?_))))
      rcases h with h | h
      · rw [show s.toBlock.pathTo m = none from h]
      · rw [show s.toBlock.pathTo m = some p from h]
        exact if_pos rfl
    · refine done_to ((if_neg (hlive hs hj)).trans ((if_neg (hno hm)).trans ((if_pos hr).trans ((if_neg he).trans ?_))))
      rw [show s.toBlock.pathTo m = some d from hd]
      exact if_neg hp
    · refine done_same ((if_neg (hlive hs hj)).trans ((if_neg (hno hm)).trans ((if_neg hr).trans ?_)))
      rw [show s.toBlock.upLink = none from hu]
    · refine done_to ((if_neg (hlive hs hj)).trans ((if_neg (hno hm)).trans ((if_neg hr).trans ?_)))
      rw [show s.toBlock.upLink = some u from hu]
    · exact not_or.mpr ⟨hno (congrArg not hm), hno (congrArg not hj)⟩
    · exact or3_true (h.imp (congrArg not ·) id)
    · exact or3_not (congrArg not hj) hm hl
    · rcases h with h | h
      · exact (congrArg (· || _) (or3_true (.inl (congrArg not h)))).trans (Bool.true_or _)
      rcases h with h | h
      · exact (congrArg (· || _) (or3_true (.inr (.inl (congrArg not h))))).trans (Bool.true_or _)
      rcases h with h | h
      · exact (congrArg (· || _) (or3_true (.inr (.inr (congrArg not h))))).trans (Bool.true_or _)
      · exact (congrArg (_ || ·) (decide_eq_true h)).trans (Bool.or_true _)
    · rw [Bool.or_eq_true, not_or]
      exact ⟨or3_not (congrArg not hs) (congrArg not he) (congrArg not hl), hno (decide_eq_false (Nat.not_le.mpr hn))⟩
    · exact or3_true (h.imp (congrArg not ·) id)
    · exact or3_not (congrArg not hl) hc hm
  · intro b
    have hno {v : Bool} (h : v = false) : ¬ v = true := Bool.eq_false_iff.mp h
    refine ⟨fun hk hu hj hl => ?_, fun hk => ?_, fun hk h => ?_, fun h => done_same (if_pos (or3_true ?_)), fun hj hr hm => ?_, fun h => done_same (if_pos ?_),
      fun hs hseen => ?_⟩
    · intro left n
      have hguard : ¬ (!k.underLease || !b.joined || b.wty.lostMaster) = true := or3_not (congrArg not hu) (congrArg not hj) hl
      refine ⟨fun hm => done_to ?_, fun hm hw => done_same ?_, fun hm hw => done_to ?_, leaseSize_le .., leaseSize_le_1024 .., one_le_leaseSize⟩
      all_goals rw [show s.toBlock.key h = some k from hk]
      · exact (if_neg hguard).trans (if_pos hm)
      · exact (if_neg hguard).trans ((if_neg hm).trans (if_pos (congrArg not hw)))
      · exact (if_neg hguard).trans ((if_neg hm).trans (if_neg (hno (congrArg not hw))))
    · refine done_same ?_
      rw [show s.toBlock.key h = none from hk]
    · refine done_same ?_
      rw [show s.toBlock.key _ = some k from hk]
      exact if_pos (or3_true (h.imp (congrArg not ·) (Or.imp (congrArg not ·) id)))
    · exact h.imp (congrArg not ·) (Or.imp (congrArg not ·) fun ⟨hm, hc⟩ => Bool.and_eq_true_iff.mpr ⟨hm, congrArg not hc⟩)
    · intro set b₁ b₂
      have hguard : ¬ (!b.joined || !(b.slice c.slice).replicated || (b.wty.master && !b.wty.committing)) = true := by
        refine or3_not (congrArg not hj) (congrArg not hr) ?_
        rcases hm with hm | hm
        · rw [hm, Bool.false_and]
        · rw [hm]; exact Bool.and_false _
      have hb₂ : (if (b₁.wty.standby && c.member == b₁.self) = true then b₁.modWty (fun f => { f with eligible := c.behind == 0 }) else b₁) = b₂ :=
        if_congr (by rw [Bool.and_eq_true, beq_iff_eq]; rfl) rfl rfl
      have hrun : exec (.replicationChange c) s = .next (s.to (if 65536 < c.behind then b₂.fabricF0 0 2 0x27 (c.member.setWidth 32) else b₂)) := by
        rw [← hb₂]
        exact done_to (if_neg hguard)
      exact ⟨fun h => hrun.trans (by rw [if_neg (Nat.not_lt.mpr h)]), fun h => hrun.trans (by rw [if_pos h])⟩
    · exact h.imp id List.contains_iff_mem.mpr
    · have hguard : ¬ ((b.port p).st ≠ .up ∨ b.wty.seenNotices.contains (m, term) = true) :=
        not_or.mpr ⟨not_not_intro hs, fun h => hseen (List.contains_iff_mem.mp h)⟩
      intro b₁ b₂ isolated b₃ shared b₄ b₅
      have h₂ : s.toBlock.noticed p m term = b₂ := by
        unfold Block.noticed
        have h₁ : ((s.toBlock.modWty (fun f => { f with seenNotices := (m, term) :: f.seenNotices })).sendNotice (some p) m term.toNat).fabricF0
          p 5 0x28 (m.setWidth 32) = b₁ := rfl
        rw [h₁]
      have h₃ : b₂.cutSender m = b₃ := rfl
      have h₄ : b₃.dropShared m = b₄ := rfl
      have h₅ : b₄.sweepAll = Block.failJobs (b₅.jobsWhere (fun _ => true)) St.aborted 4 b₅ := rfl
      rw [← h₅, ← h₄, ← h₃, ← h₂]
      rw [exec_notice hguard]
      exact ⟨fun hp => by rw [show s.toBlock.wty.fzPolicy = 0 from hp]; exact congrArg (fun c => Host.Outcome.next (s.to c)) (obeyNotice_zero _ m),
        fun hp => by rw [show s.toBlock.wty.fzPolicy = 1 from hp]; exact congrArg (fun c => Host.Outcome.next (s.to c)) (obeyNotice_one _ m),
        fun hp => by rw [show s.toBlock.wty.fzPolicy = 2 from hp]; exact congrArg (fun c => Host.Outcome.next (s.to c)) (obeyNotice_two _ m),
        fun hp => by rw [show s.toBlock.wty.fzPolicy = 3 from hp]; exact congrArg (fun c => Host.Outcome.next (s.to c)) (obeyNotice_three _ m)⟩
  · intro b
    have hno {v : Bool} (h : v = false) : ¬ v = true := Bool.eq_false_iff.mp h
    refine ⟨fun hj => ⟨done_same ?_, fun r => done_same ?_⟩, fun hj hm => done_same ?_, fun hj h r => done_same ?_,
      fun hj hp he => ⟨?_, fun y => done_to ?_⟩, fun hj hm => done_to ?_, fun h => done_same (if_pos h), fun h hd => done_to ?_, fun h hd hr ha => ?_⟩
    · rw [show s.toBlock.job id = none from hj]
    · rw [show s.toBlock.job id = none from hj]
    · rw [show s.toBlock.job id = some j from hj]
      exact if_pos (congrArg not hm)
    · rw [show s.toBlock.job id = some j from hj]
      exact if_pos h
    · intro fixed z back
      have hslice : b.slice j.slice = back.slice j.slice := congrArg (Tab.get ({} : Slice) · j.slice.val)
        (show b.slices = back.slices from
          ((slices_refill { b.dryDeficit j.level j.list with jobs := z :: b.jobs.filter (fun y => y.id != id) }).trans (slices_dryDeficit b j.level j.list)).symm)
      have hrun : exec (.forwardedResult id none) s =
          .next (s.to (if (back.slice j.slice).st = .active ∨ j.remote.isSome = true then back else back.failJob id St.aborted 1)) := by
        refine done_to ?_
        rw [show s.toBlock.job id = some j from hj]
        exact if_neg (not_or.mpr ⟨not_not_intro hp, hno he⟩)
      rw [hslice]
      exact ⟨fun h => hrun.trans (by rw [if_pos (h.imp_right Option.isSome_iff_ne_none.mpr)]),
        fun h hr => hrun.trans (by rw [if_neg (not_or.mpr ⟨h, by rw [hr]; decide⟩)])⟩
    · rw [show s.toBlock.job id = some j from hj]
      exact if_neg (not_or.mpr ⟨not_not_intro hp, hno he⟩)
    · rw [show s.toBlock.job id = some j from hj]
      exact if_neg (hno (congrArg not hm))
    · refine (if_neg (not_not_intro h)).trans (if_pos (or3_true (hd.imp (congrArg not ·) (Or.imp (congrArg not ·) bne_iff_ne.mpr))))
    · have hgo : ¬ (!b.dispatches || !(b.slice sl).replicated || (b.slice sl).st != .active) = true :=
        or3_not (congrArg not hd) (congrArg not hr) (bne_eq_false_iff_eq.mpr ha)
      refine ⟨fun hu => done_to ((if_neg (not_not_intro h)).trans ((if_neg hgo).trans ?_)), fun e st dt hu hc => ⟨fun hst => ?_, fun hq hf => ?_⟩,
        fun e hu hc => ?_⟩
      · rw [show s.toBlock.usable sl (parseDesc d).opcode = none from hu]
        rfl
      · refine done_to ((if_neg (not_not_intro h)).trans ((if_neg hgo).trans ?_))
        rw [show s.toBlock.usable sl (parseDesc d).opcode = some e from hu]
        dsimp only
        rw [show s.toBlock.admitCheck sl e (parseDesc d) = some (st, dt) from hc]
        exact if_pos hst
      · refine done_to ((if_neg (not_not_intro h)).trans ((if_neg hgo).trans ?_))
        rw [show s.toBlock.usable sl (parseDesc d).opcode = some e from hu]
        dsimp only
        rw [show s.toBlock.admitCheck sl e (parseDesc d) = some (st, dt) from hc]
        exact if_neg (not_or.mpr ⟨hq, hf⟩)
      · let k := b.takenJob p sl d i q n e
        refine ⟨b.takesIn k, k, done_to ((if_neg (not_not_intro h)).trans ((if_neg hgo).trans ?_)), ?_, rfl, rfl, rfl, rfl, rfl, rfl, rfl⟩
        · rw [show s.toBlock.usable sl (parseDesc d).opcode = some e from hu]
          dsimp only
          rw [show s.toBlock.admitCheck sl e (parseDesc d) = none from hc]
          rfl
        · exact (jobs_reserveKeys k.usedKeys _).trans (congrArg (· ++ [k]) (jobs_dryDeficit b k.level k.list))

end Sys2Proof.Machine

/-! SUPPORT. The rail, temperature, clocks and ageing (chapter 15). -/
namespace Sys2Proof.Machine

/-! ### The rail (R355, R358) -/

/-- The rail moves by at most 10 mV, and that is commanded; otherwise it stays where it is. -/
theorem moveRail_spec (b : Block) :
    (b.moveRail.pwr.rail = b.pwr.rail ∨
      (b.moveRail.pwr.rail ≤ b.pwr.rail + 10 ∧ b.pwr.rail ≤ b.moveRail.pwr.rail + 10 ∧ b.moveRail.pwr.moving = true ∧
        b.moveRail.link = .pmbus b.moveRail.pwr.rail :: b.link)) ∧
    { b.moveRail with pwr := b.pwr, link := b.link } = b := by
  unfold Block.moveRail
  dsimp only
  split
  · exact ⟨.inl rfl, rfl⟩
  · split
    · exact ⟨.inl rfl, rfl⟩
    · refine ⟨.inr ⟨?_, ?_, rfl, rfl⟩, rfl⟩
      · change (if b.pwr.rail < b.railNeed then min b.railNeed (b.pwr.rail + 10) else max b.railNeed (b.pwr.rail - 10)) ≤ _
        split <;> omega
      · change _ ≤ (if b.pwr.rail < b.railNeed then min b.railNeed (b.pwr.rail + 10) else max b.railNeed (b.pwr.rail - 10)) + 10
        split <;> omega

/-! ### Temperature (R359, R360) -/

/-- What a sample of the temperatures leaves, once its alarm is decided. -/
def Block.takeTemps (b : Block) (t : Tjs) : Block :=
  let scaled : Int := Tjs.hottest t * 10000 - (b.pwr.vout * b.pwr.iout : Nat)
  let b := b.modPwr (fun p => { p with
    tj := t, tcase := scaled / 10000,
    coolSince := if p.derated && decide (scaled < 10000000) then some (p.coolSince.getD b.now) else none })
  let b := (List.finRange 4).foldl (fun (b : Block) (q : QuadId) => b.modQuad q (fun z => { z with
    hold := if 1400 ≤ Tjs.ofQuad t q then true else if Tjs.ofQuad t q ≤ 1350 then false else z.hold })) b
  if decide (10500000 < scaled) && !b.pwr.derated then
    ((b.modPwr (fun p => { p with derated := true })).derateQuads true).powerNote 0x31
  else b
/-- The quadrants' holds leave the tamper domain and the power controller alone. -/
theorem holdQuads_same (f : QuadId → Quad → Quad) (l : List QuadId) (b : Block) :
    (l.foldl (fun (b : Block) (q : QuadId) => b.modQuad q (f q)) b).tam = b.tam ∧ (l.foldl (fun (b : Block) (q : QuadId) => b.modQuad q (f q)) b).pwr = b.pwr :=
  List.foldlRecOn (motive := fun c : Block => c.tam = b.tam ∧ c.pwr = b.pwr) l _ ⟨rfl, rfl⟩ fun _ hc _ _ => hc
/-- Moving the selectors leaves the tamper domain and the power controller alone. -/
theorem derateQuads_same (b : Block) (on : Bool) : (b.derateQuads on).tam = b.tam ∧ (b.derateQuads on).pwr = b.pwr :=
  List.foldlRecOn (motive := fun c : Block => c.tam = b.tam ∧ c.pwr = b.pwr) _ _ ⟨rfl, rfl⟩ fun _ hc _ _ => hc
/-- A THERMAL note goes to the collector alone. -/
theorem thermalNote_same (b : Block) : (b.powerNote 0x31).tam = b.tam ∧ (b.powerNote 0x31).pwr = b.pwr := ⟨rfl, rfl⟩
/-- What a sample keeps: the temperatures, the estimate, and derating from 105 °C on. -/
theorem takeTemps_spec (b : Block) (t : Tjs) :
    let scaled : Int := Tjs.hottest t * 10000 - (b.pwr.vout * b.pwr.iout : Nat)
    let c := b.takeTemps t
    c.tam = b.tam ∧ c.pwr.tj = t ∧ c.pwr.tcase = scaled / 10000 ∧ (scaled ≤ 10500000 → c.pwr.derated = b.pwr.derated) ∧
      (10500000 < scaled → c.pwr.derated = true) := by
  intro scaled c
  let d := b.modPwr (fun p => { p with
    tj := t, tcase := scaled / 10000,
    coolSince := if p.derated && decide (scaled < 10000000) then some (p.coolSince.getD b.now) else none })
  let held := (List.finRange 4).foldl (fun (b : Block) (q : QuadId) => b.modQuad q (fun z => { z with
    hold := if 1400 ≤ Tjs.ofQuad t q then true else if Tjs.ofQuad t q ≤ 1350 then false else z.hold })) d
  obtain ⟨htam, hpwr⟩ : held.tam = d.tam ∧ held.pwr = d.pwr := holdQuads_same _ _ d
  have hc : c = if decide (10500000 < scaled) && !held.pwr.derated then
      ((held.modPwr (fun p => { p with derated := true })).derateQuads true).powerNote 0x31 else held := rfl
  clear_value held
  rw [hc]
  split
  case isTrue hhot =>
    rw [Bool.and_eq_true, decide_eq_true_iff] at hhot
    rw [(thermalNote_same _).1, (thermalNote_same _).2, (derateQuads_same _ _).1, (derateQuads_same _ _).2]
    exact ⟨htam, congrArg Power.tj hpwr, congrArg Power.tcase hpwr, fun h => absurd hhot.1 (Int.not_lt.mpr h), fun _ => rfl⟩
  case isFalse hcool =>
    refine ⟨htam, congrArg Power.tj hpwr, congrArg Power.tcase hpwr, fun _ => (congrArg Power.derated hpwr).trans rfl, fun h => ?_⟩
    rw [decide_eq_true h, Bool.true_and, Bool.not_eq_true', Bool.not_eq_false] at hcool
    exact hcool
/-- The temperatures of a sample. -/
def temps (t : Tjs) : List Int := t.wales.toList ++ t.nets.toList ++ [t.rim, t.kst]
/-- A temperature of a sample is a wale's, a network's, the Rim's or the key store's. -/
theorem mem_temps {t : Tjs} {k : Int} : k ∈ temps t ↔ k ∈ t.wales.toList ∨ k ∈ t.nets.toList ∨ k = t.rim ∨ k = t.kst := by
  unfold temps
  rw [List.mem_append, List.mem_append, List.mem_cons, List.mem_singleton, or_assoc]
/-- A sample alarms where a temperature is outside the limits of Table 12.3. -/
theorem sampled_outside (t : Tjs) : (temps t).any (fun x => outside 6 (.temperature x)) = true ↔
    ∃ k, (k ∈ t.wales.toList ∨ k ∈ t.nets.toList ∨ k = t.rim ∨ k = t.kst) ∧ (1500 < k ∨ k < -650) := by
  rw [List.any_eq_true]
  refine exists_congr fun k => and_congr mem_temps ?_
  unfold outside
  simp

/-- A sample on a core that is up. -/
theorem exec_thermalSample {s : State} (t : Tjs) (h : s.toBlock.boot.coreUp = true) :
    exec (.thermalSample t) s = .next (s.to ((if (temps t).any (fun x => outside 6 (.temperature x)) then
      s.toBlock.alarmOn 6 (sensorDetail 6) else s.toBlock.alarmOff 6).takeTemps t).startRuns) := by
  change execThermalSample t s = _
  unfold execThermalSample
  extract_lets b all b₀ scaled b₁ b₂ b₃
  refine done_to ?_
  rw [if_neg (by rw [h]; decide)]
  rfl

/-! ### The poll of the rail (R358) -/

/-- What a poll of the rail that is answered does. -/
theorem pmbusPoll_spec {s : State} (h : s.toBlock.boot.rimUp = true) (m : PmReading) :
    let b := s.toBlock
    let far := b.pwr.rail + 10 < m.vout ∨ m.vout + 10 < b.pwr.rail
    let bad := m.fault = true ∨ (200000 ≤ b.elapsed b.pwr.commandedAt ∧ far)
    let read (k : Nat) : Block := b.modPwr (fun p => { p with
      vout := m.vout, iout := m.iout, retries := k, overSince := if b.pwr.limit < m.iout then some (p.overSince.getD b.now) else none,
      ioutHold := p.ioutHold && !decide (m.iout * 100 < b.pwr.limit * 95) });
    (¬ bad → exec (.pmbusPoll (some m)) s = .next (s.to (read 0))) ∧
    (bad → b.pwr.retries < 3 → exec (.pmbusPoll (some m)) s = .next (s.to (read (b.pwr.retries + 1)))) ∧
    (bad → 3 ≤ b.pwr.retries → exec (.pmbusPoll (some m)) s = .next (s.to (read (b.pwr.retries + 1)).avsFault)) := by
  intro b far bad read
  have hbad : (m.fault || (decide (200000 ≤ b.elapsed b.pwr.commandedAt) &&
      (decide (b.pwr.rail + 10 < m.vout) || decide (m.vout + 10 < b.pwr.rail)))) = decide bad := by
    unfold bad far
    rw [Bool.decide_or, Bool.decide_and, Bool.decide_or, Bool.decide_eq_true]
  have hrun (c : Block) (hc : read (if decide bad then b.pwr.retries + 1 else 0) = c) :
      exec (.pmbusPoll (some m)) s = .next (s.to (if decide bad && decide (3 ≤ b.pwr.retries) then c.avsFault else c)) := by
    rw [← hc, ← hbad]
    refine done_to ((if_neg (by rw [h]; decide)).trans ?_)
    simp only [decide_eq_true_eq]
    rfl
  refine ⟨fun hb => ?_, fun hb hr => ?_, fun hb hr => ?_⟩
  · refine (hrun _ rfl).trans ?_
    rw [decide_eq_false hb]
    rfl
  · refine (hrun _ rfl).trans ?_
    rw [decide_eq_true hb, decide_eq_false (Nat.not_le.mpr hr)]
    rfl
  · refine (hrun _ rfl).trans ?_
    rw [decide_eq_true hb, decide_eq_true hr]
    rfl

/-! ### The end of an ageing run (R362 to R367) -/

/-- What the end of an ageing run does. -/
theorem ageingRunEnd_spec {s : State} {w : WaleId} (h : (s.toBlock.wale w).age.running = true) (need v : Nat) :
    let b := s.toBlock
    let bin := (b.quad (w.val / 16)).bin.val
    let b₁ := b.modAge w (fun a => { a with
      running := false, runWanted := false, deferred := false, cold := false, lastRun := b.now, oscAt := b.now, runKhz := BitVec.ofNat 32 v, need := need,
      offset := min 175 (max (a.offset - 5) (roundUp (need - Config.vnew w bin) 5)) })
    let b₂ := b₁.modAge w (fun a => { a with index := b₁.indexAt w bin, left := b₁.hoursLeft w })
    let ended (b : Block) : Prop :=
      let b' := (b.warnAge w).keepAge w
      exec (.ageingRunEnd w need v) s =
        .next (s.to (if b'.waleAvail w then b'.modAge w (fun a => { a with calibrating := true }) else b'.startRuns));
    (b.marginFence w = false → need ≤ b₂.reach → ended (b₂.planWale w).moveRail) ∧
    (b.marginFence w = false → b₂.reach < need → ended (b₂.marginFails w)) ∧
    (b.marginFence w = true → (b₂.wale w).age.index ≤ 950 → ended (b₂.unfence (.wale w))) ∧
    (b.marginFence w = true → 950 < (b₂.wale w).age.index → ended b₂) := by
  intro b bin b₁ b₂ ended
  have hrun (c : Block) (hc : (if b.marginFence w then (if (b₂.wale w).age.index ≤ 950 then b₂.unfence (.wale w) else b₂)
      else if b₂.reach < need then b₂.marginFails w else (b₂.planWale w).moveRail) = c) : ended c := by
    subst hc
    exact done_to (if_neg (by rw [h]; decide))
  refine ⟨fun hm hr => hrun _ ?_, fun hm hr => hrun _ ?_, fun hm hi => hrun _ ?_, fun hm hi => hrun _ ?_⟩
  · rw [hm, if_neg (Nat.not_lt.mpr hr)]
    rfl
  · rw [hm, if_pos hr]
    rfl
  · rw [hm, if_pos hi]
    rfl
  · rw [hm, if_neg (Nat.not_le.mpr hi)]
    rfl

/-- Settles O57: the rail's step by its bound, and the polls and runs by the cases of their functions. -/
theorem powerAndAgeing : Obligations.PowerAndAgeing := by
  refine ⟨moveRail_spec, fun s v m t q n w => ?_⟩
  intro b z x
  have hno {v : Bool} (h : v = false) : ¬ v = true := Bool.eq_false_iff.mp h
  refine ⟨fun h o => done_same (if_pos (congrArg not h)), fun h => ⟨done_to (if_neg (hno (congrArg not h))), fun h1 h2 => done_to ?_, fun hfar => done_to ?_⟩,
    fun h o => done_same (if_pos (congrArg not h)), fun h => ⟨done_to (if_neg (hno (congrArg not h))), ?_⟩, fun h => done_same ?_, fun u h => done_to ?_,
    fun h => done_same (if_pos (congrArg not h)), fun h a => ?_, fun h => done_same ?_, fun u hu hd => done_to ?_,
    fun h => done_same (if_pos ?_), fun hw ht hr hn => done_to (if_neg ?_), fun hw ht hr hn => ?_, fun h => done_same ?_, fun u hu => ⟨fun h => done_same ?_, fun h1 h2 h3 h4 => done_to ?_⟩,
    fun h f g => done_same (if_pos ?_), fun h1 h2 h3 h4 f g => done_to (if_neg ?_),
    fun h => ⟨done_same (if_pos (congrArg not h)), done_same (if_pos (congrArg not h))⟩,
    fun h => ⟨done_to (if_neg (hno (congrArg not h))), done_to (if_neg (hno (congrArg not h)))⟩, fun h need => done_same (if_pos (congrArg not h)), fun h need => ?_⟩
  · refine (if_neg (hno (congrArg not h))).trans ?_
    have hnear : (decide (v ≤ b.pwr.rail + 5) && decide (b.pwr.rail ≤ v + 5)) = true := by
      rw [decide_eq_true h1, decide_eq_true h2]; rfl
    exact congrArg (fun c : Block => (c.modPwr (fun p => { p with vout := v, moving := false })).moveRail) (if_pos hnear)
  · refine (if_neg (hno (congrArg not h))).trans ?_
    have hnear : ¬ (decide (v ≤ b.pwr.rail + 5) && decide (b.pwr.rail ≤ v + 5)) = true := by
      rw [Bool.and_eq_true, decide_eq_true_iff, decide_eq_true_iff]
      omega
    exact congrArg (fun c : Block => (c.modPwr (fun p => { p with vout := v, moving := false })).moveRail) (if_neg hnear)
  · exact pmbusPoll_spec h m
  · rw [show s.toBlock.pwr.overSince = none from h]
  · rw [show s.toBlock.pwr.overSince = some u from h]
  · intro known scaled ha
    have hrun : exec (.thermalSample t) s = .next (s.to (a.takeTemps t).startRuns) := by
      rw [exec_thermalSample t h]
      rcases ha with ⟨hout, ha⟩ | ⟨hin, ha⟩
      · rw [if_pos ((sampled_outside t).mpr hout), ha]
      · rw [if_neg, ha]
        intro hany
        obtain ⟨k, hk, hout⟩ := (sampled_outside t).mp hany
        have := hin k hk
        omega
    obtain ⟨htam, htj, htc, hd0, hd1⟩ := takeTemps_spec a t
    exact ⟨_, hrun, htam, htj, htc, hd0, hd1⟩
  · rcases h with h | h
    · rw [show s.toBlock.pwr.coolSince = none from h]
    · cases hu : s.toBlock.pwr.coolSince with
      | none => rfl
      | some u => exact if_pos (congrArg not h)
  · rw [show s.toBlock.pwr.coolSince = some u from hu]
    exact if_neg (hno (congrArg not hd))
  · rcases h with h | h | h
    · exact .inl h
    · exact .inr (.inl (Option.isSome_iff_ne_none.mpr h))
    · exact .inr (.inr (.inl (congrArg not h)))
  · rintro (h | h | h | ⟨h, -⟩)
    · exact h hw
    · rw [show (b.quad q).binTo = none from ht] at h; exact nomatch h
    · rw [hr] at h; exact nomatch h
    · exact absurd h (Nat.not_lt.mpr hn)
  · intro raised
    have hraised : (List.range 16).all (fun k =>
        let w := 16 * q.val + k
        !b.waleAvail w || ((b.wale w).age.planned.isNone && !(b.wale w).age.calibrating)) = true ↔ raised := by
      rw [List.all_eq_true]
      refine forall_congr' fun k => ?_
      rw [List.mem_range, Bool.or_eq_true, Bool.and_eq_true, Bool.not_eq_true', Bool.not_eq_true', Option.isNone_iff_eq_none, ← Bool.not_eq_true]
      exact imp_congr_right fun _ => Decidable.imp_iff_not_or.symm
    refine ⟨fun h => done_same (if_pos (.inr (.inr (.inr ⟨hn, ?_⟩)))), fun hl hall => done_to (if_neg ?_)⟩
    · rintro (h | h | h | ⟨-, h | h⟩)
      · exact h hw
      · rw [show (b.quad q).binTo = none from ht] at h; exact nomatch h
      · rw [hr] at h; exact nomatch h
      · rw [Bool.not_eq_true'] at h
        exact Bool.eq_false_iff.mp h (hraised.mpr hall)
      · rw [hl] at h; exact nomatch h
    · refine h.symm.imp (fun hnot => ?_) id
      rw [Bool.not_eq_true']
      exact Bool.eq_false_iff.mpr fun hall => hnot (hraised.mp hall)
  · rw [show (s.toBlock.wale w).age.planned = none from h]
  · rw [show (s.toBlock.wale w).age.planned = some u from hu]
    refine if_pos ?_
    rw [Bool.or_eq_true, Bool.or_eq_true, Bool.or_eq_true, or_assoc, or_assoc]
    exact h.imp (congrArg not ·) (Or.imp (congrArg not ·) (Or.imp (congrArg not ·) id))
  · rw [show (s.toBlock.wale w).age.planned = some u from hu]
    refine if_neg ?_
    rw [h1, h2, h3, h4]
    decide
  · rw [Bool.or_eq_true, Bool.or_eq_true, Bool.or_eq_true, or_assoc, or_assoc]
    exact h.imp (congrArg not ·) (Or.imp id fun h => .inl (Option.isSome_iff_ne_none.mpr h))
  · have hrest : (x.st != .warm && x.st != .clockGated && x.st != .gated) = false := by
      rcases h4 with h | h | h <;> rw [h] <;> rfl
    rw [h1, h2, h3, hrest]
    decide
  · exact ageingRunEnd_spec h need v

end Sys2Proof.Machine

/-! SUPPORT. What the machine holds after reset, and what a core reset keeps and loses (Tables 9.5 and 16.6). -/
namespace Sys2Proof.Machine

/-! ### Placing the notes that are still in their merge window -/

/-- Everything but the fault log, its copy in flash, the host's registers and the link is `b`'s; the count of boots and the seal are kept too. -/
def SameButLog (b c : Block) : Prop :=
  ∃ f fa h l, c = { b with flt := f, flash := { b.flash with faults := fa }, host := h, link := l } ∧ f.boot = b.flt.boot ∧ f.sealed = b.flt.sealed
theorem SameButLog.refl (b : Block) : SameButLog b b := ⟨b.flt, b.flash.faults, b.host, b.link, rfl, rfl, rfl⟩
theorem SameButLog.trans {a b c : Block} (h : SameButLog a b) (k : SameButLog b c) : SameButLog a c := by
  obtain ⟨f, fa, h, l, rfl, hb, hs⟩ := h
  obtain ⟨f', fa', h', l', rfl, kb, ks⟩ := k
  exact ⟨f', fa', h', l', rfl, kb.trans hb, ks.trans hs⟩
/-- A note placed in the log. -/
theorem SameButLog.placeNote (b : Block) (n : Note) : SameButLog b (b.placeNote n) := by
  cases h : b.holdsBack n with
  | true =>
    rw [placeNote_held h]
    exact .refl b
  | false =>
    unfold Block.holdsBack at h
    unfold Block.placeNote
    dsimp only
    cases hk : b.flt.kept.find? (fun k => k.1 == n.source && k.2.1 == n.kind) <;>
    · rw [hk] at h
      dsimp only [Option.any_none, Option.any_some] at h ⊢
      rw [if_neg (Bool.eq_false_iff.mp h)]
      split
      · exact ⟨_, _, _, _, rfl, rfl, rfl⟩
      · obtain ⟨h, l, he, -⟩ := event_eq _ 2
        rw [he]
        exact ⟨_, _, _, _, rfl, rfl, rfl⟩
/-- The notes in their merge window placed. -/
theorem SameButLog.placeMerging (n : Nat) (b : Block) : SameButLog b (Block.placeMerging n b) := by
  induction n generalizing b with
  | zero => exact .refl b
  | succ n ih =>
    unfold Block.placeMerging
    split
    · exact .refl b
    · refine .trans (.trans ?_ (.placeNote _ _)) (ih _)
      exact ⟨_, b.flash.faults, b.host, b.link, rfl, rfl, rfl⟩

/-! ### What a reset leaves of slices, keys and wales -/

/-- A slice comes out of a reset FREE, QUIESCED or FROZEN. -/
theorem afterReset_st (x : Slice) : x.afterReset.st ∈ [SliceSt.free, .quiesced, .frozen] := by
  unfold Slice.afterReset
  cases x.st
  case free | receiving => exact List.mem_cons_self
  case frozen => exact List.mem_cons_of_mem _ (List.mem_cons_of_mem _ List.mem_cons_self)
  case quiesced | active | quiescing | wedged => exact List.mem_cons_of_mem _ List.mem_cons_self
/-- What the sweep leaves of the keys are tombstones. -/
theorem tombstone_of_mem {t : Tab Key} {e : Nat × Key} (h : e ∈ tombstones t) : e.2.tombstone = true := by
  unfold tombstones at h
  obtain ⟨p, -, rfl⟩ := List.mem_map.mp h
  rfl
/-- An entry of a table made from the numbers of a list. -/
theorem get_map {α : Type} (d : α) (f : Nat → α) {l : List Nat} {i : Nat} (h : i ∈ l) : Tab.get d (l.map (fun k => (k, f k))) i = f i := by
  induction l with
  | nil => exact nomatch h
  | cons k r ih =>
    rw [List.map_cons, Tab.get]
    split
    case isTrue hk => rw [hk]
    case isFalse hk => exact ih ((List.mem_cons.mp h).resolve_left (Ne.symm hk))

/-- Has a reset changed the state of a slice, of those it restores or of those it does not know? -/
theorem moved_iff (b : Block) (src : Tab Slice) :
    (src.any (fun p => decide (p.2.afterReset.st ≠ (b.slice p.1).st)) || b.slices.any (fun p => p.2.st != .free && !src.any (fun q => q.1 == p.1))) = true ↔
      (∃ e ∈ src, e.2.afterReset.st ≠ (b.slice e.1).st) ∨ (∃ e ∈ b.slices, e.2.st ≠ .free ∧ ∀ q ∈ src, q.1 ≠ e.1) := by
  rw [Bool.or_eq_true, List.any_eq_true, List.any_eq_true]
  refine or_congr (exists_congr fun e => and_congr_right fun _ => decide_eq_true_iff) (exists_congr fun e => and_congr_right fun _ => ?_)
  rw [Bool.and_eq_true, bne_iff_ne, Bool.not_eq_true', List.any_eq_false]
  exact and_congr_right fun _ => forall_congr' fun q => imp_congr_right fun _ => not_congr beq_iff_eq

/-- Settles O60: the reset machine evaluates to its values, and a core reset keeps what placing its notes keeps. -/
theorem resetValues : Obligations.ResetValues := by
  refine ⟨?_, fun b => ?_⟩
  · refine ⟨rfl, rfl, rfl, rfl, ⟨rfl, Nat.le_refl _, Nat.le_refl _, by decide, by decide⟩, rfl, rfl, rfl, rfl, by decide, rfl, rfl, rfl, rfl, rfl, rfl, rfl, rfl, rfl, rfl, rfl,
      fun w => ⟨rfl, rfl⟩, rfl, rfl, rfl, by decide, by decide⟩
  · obtain ⟨f, fa, h, l, hp, hboot, hseal⟩ := SameButLog.placeMerging b.flt.merging.length b
    unfold Block.coreReset
    rw [hp]
    refine ⟨rfl, rfl, rfl, rfl, hboot, hseal, rfl, rfl, rfl, rfl, rfl, rfl, rfl, rfl, rfl, rfl, rfl, rfl, rfl, rfl, rfl, ?_, ?_, rfl, rfl, rfl, rfl, rfl, rfl, rfl,
      rfl, rfl, rfl, rfl, rfl, rfl, ?_, rfl, rfl, rfl, rfl, ?_, fun e => tombstone_of_mem, rfl, rfl, rfl, rfl, rfl, fun e he => ?_, fun w => ?_⟩
    · exact (ite_eq_or_eq _ (0x10 : Byte) 0).symm
    · refine Iff.trans ?_ (moved_iff b _)
      exact ⟨fun hev => Classical.byContradiction fun hno => absurd ((if_neg hno).symm.trans hev) (by decide), fun hm => if_pos hm⟩
    · exact show ∀ q : Fin 4, ({} : Dispatcher).warm[q] = 0x00101004 by decide
    · exact (ite_eq_or_eq _ KstSt.closed KstSt.locked).symm
    · obtain ⟨p, -, rfl⟩ := List.mem_map.mp he
      exact ⟨afterReset_st p.2, rfl, rfl, rfl, rfl, rfl⟩
    · unfold Block.wale
      rw [get_map ({} : Wale) _ (List.mem_range.mpr w.isLt)]
      refine ⟨?_, rfl, rfl, rfl, rfl, rfl, rfl, rfl, rfl, rfl⟩
      exact (ite_eq_or_eq _ WaleSt.fenced WaleSt.gated).symm

end Sys2Proof.Machine

/-! SUPPORT. The tick of the time base while no command waits (log 10). -/
namespace Sys2Proof.Machine

/-- A port that is not up sends nothing. -/
theorem sendPeriodic_idle {b : Block} {p : PortId} (h : (b.port p).st ≠ .up) : b.sendPeriodic p = b := if_pos h
/-- Where no port is up nothing is sent. -/
theorem sendPeriodic_none {b : Block} (h : ∀ p, (b.port p).st ≠ .up) (l : List PortId) : l.foldl Block.sendPeriodic b = b := by
  induction l with
  | nil => rfl
  | cons p r ih => rw [List.foldl_cons, sendPeriodic_idle (h p), ih]
/-- No fence waits: none takes effect. -/
theorem takeFences_none {b : Block} (h : b.flt.fencesDue = []) : b.takeFences = b := by
  unfold Block.takeFences
  rw [h]
  rfl
/-- Time that passes leaves the fences that wait. -/
theorem fencesDue_setTime (b : Block) (t : W64) : (b.setTime t).flt.fencesDue = b.flt.fencesDue := rfl
/-- Time that passes leaves the ports. -/
theorem port_setTime (b : Block) (t : W64) (p : PortId) : (b.setTime t).port p = b.port p := rfl
/-- With no fence waiting and no port up a tick does no more. -/
theorem quiet_tick {b : Block} (hf : b.flt.fencesDue = []) (hp : ∀ p, (b.port p).st ≠ .up) : (List.finRange 4).foldl Block.sendPeriodic b.takeFences = b := by
  rw [takeFences_none hf]
  exact sendPeriodic_none hp _
/-- A step with an empty queue. -/
theorem step_tick {s : State} (h : s.pending = []) : step s = .next (s.to s.toBlock.tick) := by
  unfold step
  rw [h]
  cases s
  subst h
  rfl

/-- Settles O2: a tick by the domain that has power, and a quiet one by what no link and no fence changes. -/
theorem emptyQueueTicks : Obligations.EmptyQueueTicks := by
  intro s hs b g n paced
  rw [step_tick hs]
  have hto {c d : Block} (h : c = d) : Host.Outcome.next (s.to c) = (.next (s.to d) : Host.Outcome State Fault Refusal) := h ▸ rfl
  refine ⟨fun hc ha hb => hto ?_, fun hc h => hto ?_, fun hc => ?_⟩
  · refine (if_pos (congrArg not hc)).trans (if_neg ?_)
    rw [ha, hb]
    decide
  · refine (if_pos (congrArg not hc)).trans (if_pos ?_)
    rwa [Bool.or_eq_true]
  · have hon : ¬ (!s.toBlock.boot.coreUp) = true := by
      rw [show s.toBlock.boot.coreUp = true from hc]
      decide
    have hrun (h : n ≠ 0) : s.toBlock.tick = (List.finRange 4).foldl Block.sendPeriodic (paced.setTime (b.now + BitVec.ofNat 64 n)).takeFences :=
      (if_neg hon).trans (if_neg h)
    refine ⟨fun h => hto ((if_neg hon).trans (if_pos h)), fun h => hto (hrun h), fun h hf hp => ?_⟩
    have hfences : (paced.setTime (b.now + BitVec.ofNat 64 n)).flt.fencesDue = [] := (fencesDue_setTime ..).trans hf
    have hports (p : PortId) : ((paced.setTime (b.now + BitVec.ofNat 64 n)).port p).st ≠ .up := by
      rw [port_setTime]
      exact hp p
    have hsmall : n < 2 ^ 64 := by
      unfold n
      (repeat' split) <;> decide
    have hpassed : (b.now + BitVec.ofNat 64 n - b.now).toNat = n := by
      rw [BitVec.add_comm, BitVec.add_sub_cancel, BitVec.toNat_ofNat, Nat.mod_eq_of_lt hsmall]
    exact ⟨_, hto ((hrun h).trans (quiet_tick hfences hports)), hs, rfl, rfl, congrArg s.bat.pass hpassed, rfl, rfl⟩

end Sys2Proof.Machine

/-! SUPPORT. The jobs of the lattice and hash-based schemes (chapter 02). -/
namespace Sys2Proof.Machine

/-- A single check on decode. -/
theorem firstFail_one (bad : Bool) (st : W16) (d : W32) : firstFail [(bad, st, d)] = if bad = true then some (st, d) else none := rfl

/-- Settles O34: each job's checks one by one, then its draw and its run. -/
theorem latticeSchemeJobs : Obligations.LatticeSchemeJobs := by
  intro s id
  refine ⟨worksPure_of_work rfl, worksPure_of_work rfl, ?_, worksPure_of_work rfl, worksPure_of_work rfl, worksPure_of_work rfl,
    fun k c h => ?_, fun k c h => ?_, worksPure_of_work rfl, fun k c h => ?_, fun k c h => ?_⟩
  · refine worksPure_of rfl (fun b j => ?_) (fun _ => rfl) (fun _ _ _ => rfl)
    rw [firstFail_one]
    refine if_congr ?_ rfl rfl
    unfold kemEkOk
    rw [Bool.and_eq_true, Bool.not_eq_true', ← Bool.not_eq_true, List.all_eq_true, List.any_eq_true]
    simp
  all_goals
    simp only [List.mem_cons, Prod.mk.injEq, List.not_mem_nil, or_false] at h
  · rcases h with ⟨rfl, rfl⟩ | ⟨rfl, rfl⟩ | ⟨rfl, rfl⟩
    all_goals exact works_of_workWith rfl
  · rcases h with ⟨rfl, rfl⟩ | ⟨rfl, rfl⟩ | ⟨rfl, rfl⟩
    all_goals exact worksPure_of_work rfl
  · rcases h with ⟨rfl, rfl⟩ | ⟨rfl, rfl⟩
    all_goals exact worksPure_of_work rfl
  · rcases h with ⟨rfl, rfl⟩ | ⟨rfl, rfl⟩
    all_goals exact worksPure_of_work rfl

/-- A stateful key generation: the checks of its input, its template, then the key with its first bottom-level tree. -/
theorem statefulKeygen_spec (s : State) (id o t : Nat) (a : Alg) (f : Bytes → Option Shape) {c : Instr}
    (hc : exec c s = done (s.toBlock.statefulKeygen id o t a f) s) :
    WorksPure s id (only o) c (fun b j => if f j.input = none then some (St.badParam, 0x30) else templateFails (fun _ => t) 1 b j)
      (fun j => Config.freeNat 10 j.op) (fun b j d =>
        let pk := algBytes a t [d, j.input] (statefulPkLen t j.input)
        let sh := (f j.input).getD ⟨0, 1, 0⟩
        let c := j.reservedCtr.getD 0
        match b.fromTemplate j.slice j.template t 1 with
        | .error e => .error e
        | .ok k =>
          let k : Key := { k with secret := d, pub := pk, ctr := BitVec.ofNat 32 c }
          .ok { out := pk, effects := [.createKey { k with
            stateful := some { b := k.granule.toNat, height := sh.height, levels := sh.levels, bottom := sh.bottom, base := b.counter c,
                               trees := 1, parents := if sh.levels ≤ 1 then [] else [k.treeSig 0] } } true] }) := by
  refine worksPure_of hc (fun b j => ?_) (fun _ => rfl) (fun b j d => ?_)
  · cases f j.input with
    | none => rfl
    | some sh => rfl
  · exact newKey_bind rfl fun k => rfl

/-- Settles O35: each job's checks one by one, then its run. -/
theorem hashSchemeJobs : Obligations.HashSchemeJobs := by
  intro s id
  refine ⟨worksPure_of_work rfl, worksPure_of_work rfl, fun k c h => ?_, fun k c h => ?_, fun o t a f c h => ?_, fun o a c h => ?_, fun o c h => ?_, fun o c h => ?_⟩
  all_goals
    simp only [List.mem_cons, Prod.mk.injEq, List.not_mem_nil, or_false] at h
  · rcases h with ⟨rfl, rfl⟩ | ⟨rfl, rfl⟩
    all_goals exact worksPure_of_work rfl
  · rcases h with ⟨rfl, rfl⟩ | ⟨rfl, rfl⟩
    all_goals exact worksPure_of_work rfl
  · rcases h with ⟨rfl, rfl, rfl, rfl, rfl⟩ | ⟨rfl, rfl, rfl, rfl, rfl⟩ | ⟨rfl, rfl, rfl, rfl, rfl⟩
    · exact statefulKeygen_spec (c := .hssKeygen id) s id 0x0500 0x500 .hssPk hssShape rfl
    · exact statefulKeygen_spec (c := .xmssKeygen id) s id 0x0600 0x600 .xmssPk (fun b => xmssShape (ofBe b)) rfl
    · exact statefulKeygen_spec (c := .xmssmtKeygen id) s id 0x0610 0x601 .xmssPk (fun b => xmssmtShape (ofBe b)) rfl
  · rcases h with ⟨rfl, rfl, rfl⟩ | ⟨rfl, rfl, rfl⟩ | ⟨rfl, rfl, rfl⟩
    all_goals exact worksPure_of_work rfl
  · rcases h with ⟨rfl, rfl⟩ | ⟨rfl, rfl⟩ | ⟨rfl, rfl⟩ | ⟨rfl, rfl⟩
    all_goals exact worksPure_of_work rfl
  · rcases h with ⟨rfl, rfl⟩ | ⟨rfl, rfl⟩
    all_goals exact worksPure_of_work rfl

/-! ### One-time keys (R51, R53, R54) -/

/-- Is a pair of wales spare for work of priority 0? -/
theorem sparePair_iff (b : Block) : b.sparePair = true ↔ b.dispatches = true ∧ ∃ q < 4,
    2 ≤ ((List.range 16).filter (fun w => b.freeWale (16 * q + w) && !b.tuning (16 * q + w))).length ∧ ∀ x ∈ b.jobs, x.level ≠ 0 → b.couldRun q x = false := by
  unfold Block.sparePair
  rw [Bool.and_eq_true, List.any_eq_true]
  refine and_congr_right fun _ => exists_congr fun q => ?_
  rw [List.mem_range, Bool.and_eq_true, decide_eq_true_iff, Bool.not_eq_true', List.any_eq_false]
  refine and_congr_right fun _ => and_congr_right fun _ => forall₂_congr fun x _ => ?_
  rw [Bool.and_eq_true, bne_iff_ne, not_and, Bool.not_eq_true]

/-- Settles O36: a counter write by its outcome, and a tree's generation by the key's use. -/
theorem oneTimeKeys : Obligations.OneTimeKeys := by
  intro s id j k t b
  refine ⟨fun hj hk ht => ?_, fun sl i => ?_, sparePair_iff b⟩
  · have hstate : (s.toBlock.key j.desc.handle).bind (fun k => k.stateful.map (fun t => (k, t))) = some (k, t) := by
      rw [show s.toBlock.key j.desc.handle = some k from hk, Option.bind_some, ht]
      rfl
    refine ⟨fun h ok => done_same ?_, fun hp ha hu => ?_⟩
    · rw [show s.toBlock.job id = some j from hj]
      dsimp only
      rw [hstate]
      refine if_pos ?_
      rw [Bool.or_eq_true, Bool.or_eq_true, bne_iff_ne, decide_eq_true_iff]
      exact h.imp_left .inl
    have hgo : ¬ (j.phase != .loading || !b.awaitsIndex j || decide (j.oneTime < t.c)) = true := by
      rw [hp, ha, decide_eq_false (Nat.not_lt.mpr hu)]
      decide
    refine ⟨done_to ?_, ?_⟩
    · rw [show s.toBlock.job id = some j from hj]
      dsimp only
      rw [hstate]
      exact (if_neg hgo).trans (if_pos rfl)
    · refine done_to ?_
      rw [show s.toBlock.job id = some j from hj]
      dsimp only
      rw [hstate]
      exact (if_neg hgo).trans (if_neg Bool.false_ne_true)
  · intro h used hk ht
    have hstate : (s.toBlock.key h).bind (fun k => k.stateful.map (fun t => (k, t))) = some (k, t) := by
      rw [show s.toBlock.key h = some k from hk, Option.bind_some, ht]
      rfl
    have hdue : (decide (used ≤ t.u) && decide (t.trees * 2 ^ t.bottom < 2 ^ t.height) && decide (1 < t.levels) && b.sparePair) = true ↔
        used ≤ t.u ∧ t.trees * 2 ^ t.bottom < 2 ^ t.height ∧ 1 < t.levels ∧ b.sparePair = true := by
      rw [Bool.and_eq_true, Bool.and_eq_true, Bool.and_eq_true, decide_eq_true_iff, decide_eq_true_iff, decide_eq_true_iff, and_assoc, and_assoc]
    refine ⟨fun hno => done_same ?_, fun hu hh hl hp => ?_⟩
    · rw [hstate]
      refine if_neg fun hyes => ?_
      obtain ⟨hu, hh, hl, hp⟩ := hdue.mp hyes
      rcases hno with h | h | h | h
      · exact absurd hu (Nat.not_le.mpr h)
      · exact absurd hh (Nat.not_lt.mpr h)
      · exact absurd hl (Nat.not_lt.mpr h)
      · rw [h] at hp; exact nomatch hp
    · intro t'
      have htrees : k.withTrees (t.trees + 1) = { k with stateful := some t' } := by
        unfold Key.withTrees
        rw [ht, Option.map_some, if_neg (Nat.not_le.mpr hl)]
      rw [← htrees]
      refine done_to ?_
      rw [hstate]
      exact if_pos (hdue.mpr ⟨hu, hh, hl, hp⟩)

end Sys2Proof.Machine

/-! SUPPORT. The jobs of HQC, Classic McEliece, RSA and the curves (chapter 03). -/
namespace Sys2Proof.Machine

/-! ### An object that is absent from now on (R23, R60) -/

/-- What a table finds under a number after an entry was put there. -/
theorem find_put {α : Type} (t : Tab α) (i j : Nat) (x : α) :
    (Tab.put t i x).find? (fun p => p.1 == j) = if j = i then some (i, x) else t.find? (fun p => p.1 == j) := by
  by_cases hj : j = i
  · subst hj
    rw [if_pos rfl]
    induction t with
    | nil => simp [Tab.put]
    | cons p r ih =>
      unfold Tab.put
      split
      · simp
      split
      · simp
      · rename_i hk _
        rw [List.find?_cons_of_neg (by simpa using hk), ih]
  · rw [if_neg hj]
    have hi : ¬ ((i, x).1 == j) = true := by simpa using Ne.symm hj
    induction t with
    | nil => exact List.find?_cons_of_neg hi
    | cons p r ih =>
      unfold Tab.put
      split
      · rename_i hk
        simp [hk, Ne.symm hj]
      split
      · exact List.find?_cons_of_neg hi
      · rw [List.find?_cons, List.find?_cons, ih]
/-- A key's entry after one was put. -/
theorem key_putKey (b : Block) (h g : W32) (k : Key) : (b.putKey h k).key g = if g = h then some k else b.key g := by
  unfold Block.key Block.putKey
  rw [find_put, apply_ite (Option.map Prod.snd)]
  exact if_congr BitVec.toNat_inj rfl rfl
/-- The same where the change is journalled. -/
theorem key_setKey (b : Block) (h g : W32) (k : Key) : (b.setKey h k).key g = if g = h then some k else b.key g := by
  unfold Block.setKey
  split
  · exact key_putKey ..
  · exact key_putKey b h g k
/-- A key's entry loses its reference to a retained object. -/
def Block.forgetPk (b : Block) (h : W32) : Block :=
  match b.key h with
  | some k => b.setKey h { k with pkObject := none }
  | none => b
/-- No other key's entry changes, and its own refers to none. -/
theorem key_forgetPk {b : Block} {h g : W32} {k : Key} (hk : (b.forgetPk h).key g = some k) : k.pkObject = none ∨ (b.key g = some k ∧ g ≠ h) := by
  unfold Block.forgetPk at hk
  cases hb : b.key h with
  | none =>
    rw [hb] at hk
    exact .inr ⟨hk, fun heq => nomatch (heq ▸ hk).symm.trans hb⟩
  | some y =>
    rw [hb] at hk
    dsimp only at hk
    rw [key_setKey] at hk
    split at hk
    · exact .inl (congrArg Key.pkObject (Option.some.inj hk)).symm
    · exact .inr ⟨hk, ‹_›⟩
/-- Forgetting a retained object leaves the object table alone. -/
theorem ddr_forgetPk (b : Block) (h : W32) : (b.forgetPk h).ddr = b.ddr := by
  unfold Block.forgetPk Block.setKey
  split
  · split <;> rfl
  · rfl
/-- After a list of entries has lost its references, an entry that still has one is none of them, and as it was. -/
theorem key_forgetAll (l : List Nat) (b : Block) {g : W32} {k : Key}
    (hk : (l.foldl (fun (b : Block) h => b.forgetPk (BitVec.ofNat 32 h)) b).key g = some k) :
    k.pkObject = none ∨ (b.key g = some k ∧ ∀ h ∈ l, g ≠ BitVec.ofNat 32 h) := by
  induction l generalizing b with
  | nil => exact .inr ⟨hk, fun h hh => nomatch hh⟩
  | cons h r ih =>
    rcases ih _ hk with hnone | ⟨hb, hr⟩
    · exact .inl hnone
    · exact (key_forgetPk hb).imp_right fun ⟨hb, hne⟩ => ⟨hb, List.forall_mem_cons.mpr ⟨hne, hr⟩⟩
/-- Nor does it touch the object table. -/
theorem ddr_forgetAll (l : List Nat) (b : Block) : (l.foldl (fun (b : Block) h => b.forgetPk (BitVec.ofNat 32 h)) b).ddr = b.ddr :=
  List.foldlRecOn (motive := fun c : Block => c.ddr = b.ddr) l _ rfl fun _ hc _ _ => (ddr_forgetPk ..).trans hc
/-- What an absent object leaves: it is not found, and no key of its slice refers to it. -/
theorem absentObject_spec (b : Block) (sl : SliceId) (n : Nat) :
    let t := b.absentObject sl n
    t.ddrObject sl n = none ∧ ∀ h k, t.key h = some k → h.toNat / 2 ^ 21 = sl.val → k.pkObject ≠ some n := by
  intro t
  let hs := (b.kst.keys.filter (fun p => p.1 / 2 ^ 21 == sl.val && p.2.pkObject == some n)).map (·.1)
  let c : Block := { b with ddr := { b.ddr with objects := b.ddr.objects.filter (fun p => !(p.slice == sl && p.number.toNat == n)) } }
  have ht : t = hs.foldl (fun (b : Block) h => b.forgetPk (BitVec.ofNat 32 h)) c := rfl
  refine ⟨?_, fun h k hk hsl href => ?_⟩
  · have hddr : t.ddr = c.ddr := ht ▸ ddr_forgetAll hs c
    unfold Block.ddrObject
    rw [hddr]
    refine List.find?_eq_none.mpr fun o ho => ?_
    have hkept := (List.mem_filter.mp ho).2
    rw [Bool.not_eq_true'] at hkept
    exact Bool.eq_false_iff.mp hkept
  · rw [ht] at hk
    rcases key_forgetAll hs c hk with hnone | ⟨hb, hno⟩
    · exact nomatch hnone.symm.trans href
    · obtain ⟨p, hp, rfl⟩ := Option.map_eq_some_iff.mp (show (b.kst.keys.find? (fun p => p.1 == h.toNat)).map (·.2) = some k from hb)
      have hnum : p.1 = h.toNat := by simpa using List.find?_some hp
      refine hno p.1 (List.mem_map.mpr ⟨p, List.mem_filter.mpr ⟨List.mem_of_find?_eq_some hp, ?_⟩, rfl⟩) ?_
      · rw [hnum, hsl, href]
        simp
      · rw [hnum, BitVec.ofNat_toNat, BitVec.setWidth_eq]

/-- The checks of a retained public key read back (R60, R210). -/
theorem retainedFails_spec (b : Block) (j : Job) :
    let o := j.object
    (fld o 0 4 ≠ 0x574F424A ∨ fld o 4 2 ≠ 1 ∨ fld o 6 1 ≠ 2 ∨ 1 < fld o 7 1 ∨ fld o 0xC 4 ≠ 0 ∨ o.length ≠ 48 + fld o 0x2C 4 →
      b.retainedFails j = some (St.inputInvalid, 9)) ∧
    (∀ e, b.retainedFails j = some e → e = (St.inputInvalid, 9) ∨ e = (St.inputInvalid, 0xA) ∨ e = (St.inputInvalid, 6)) ∧
    (b.retainedFails j = none → algBytes .sha3of 5 [o.drop 48] 32 = j.keyObj.pkDigest ∧ (fld o 8 2 = j.slice.val ∨ fld o 8 2 ∈ (b.slice j.slice).aka)) := by
  intro o
  have hfails : b.retainedFails j = if (fld o 0 4 != 0x574F424A || fld o 4 2 != 1 || fld o 6 1 != 2 || decide (1 < fld o 7 1) || fld o 0xC 4 != 0 ||
        o.length != 48 + fld o 0x2C 4 + 0) = true then some (St.inputInvalid, 9)
      else if (!(b.knownAs j.slice).contains (fld o 8 2)) = true then some (St.inputInvalid, 0xA)
      else if algBytes .sha3of 5 [o.drop 48] 32 = j.keyObj.pkDigest then none else some (St.inputInvalid, 6) := by
    unfold Block.retainedFails objectFails
    refine (match_firstFail some _ _).trans ?_
    rw [checkedBy_cons, checkedBy_cons, checkedBy_nil]
    rfl
  simp only [Bool.or_eq_true, bne_iff_ne, decide_eq_true_eq, or_assoc, Nat.add_zero] at hfails
  rw [hfails]
  refine ⟨fun h => if_pos h, fun e he => ?_, fun hn => ?_⟩
  · split at he
    · exact .inl (Option.some.inj he).symm
    split at he
    · exact .inr (.inl (Option.some.inj he).symm)
    split at he
    · exact nomatch he
    · exact .inr (.inr (Option.some.inj he).symm)
  · split at hn
    · exact nomatch hn
    split at hn
    · exact nomatch hn
    split at hn
    case isFalse => exact nomatch hn
    rename_i h2 h3
    refine ⟨h3, ?_⟩
    rw [Bool.not_eq_true', Bool.not_eq_false, List.contains_iff_mem] at h2
    exact List.mem_cons.mp h2

/-- Settles O37: each job's checks one by one, then its draw and its run; a retained key by the checks of its object. -/
theorem classicalJobs : Obligations.ClassicalJobs := by
  intro s id plain free
  refine ⟨worksPure_of_work rfl, ?_, worksPure_of_work rfl, ?_, ?_, worksPure_of_work rfl, ?_, fun b j => ?_, absentObject_spec, ?_,
    worksPure_of_work rfl, worksPure_of_work rfl, worksPure_of_work rfl, ?_, worksPure_of_work rfl, ?_, worksPure_of_work rfl, worksPure_of_work rfl,
    worksPure_of_work rfl, worksPure_of_work rfl, worksPure_of_work rfl, worksPure_of_work rfl, fun k c h => ?_, fun k c h => ?_, worksPure_of_work rfl, fun c sig => ?_⟩
  · refine worksPure_of rfl (fun b j => ?_) (fun _ => rfl) (fun _ _ _ => rfl)
    rw [firstFail_one]
    refine if_congr ?_ rfl rfl
    unfold hqcPadOk
    rw [Bool.and_eq_true, Bool.not_eq_true', decide_eq_false_iff_not, Nat.not_lt]
  · refine worksPure_of rfl (fun _ _ => rfl) (fun _ => rfl) (fun b j d => newKey_bind rfl fun k => ?_)
    cases j.desc.pkRetain with
    | false => rfl
    | true => rfl
  · refine works_of rfl (fun b j => ?_) (fun j => ?_) (fun b j m => ?_)
    · rw [firstFail_one]
      refine if_congr ?_ rfl rfl
      rw [Bool.and_eq_true, Bool.not_eq_true']
    · refine if_congr ?_ rfl rfl
      rw [Bool.or_eq_true, Option.isNone_iff_eq_none]
    · dsimp only
      cases j.desc.supplied with
      | false => rfl
      | true => rfl
  · refine works_of rfl (fun _ _ => rfl) (fun _ => rfl) (fun b j d => ?_)
    unfold Block.overRetained
    cases b.retainedFails j with
    | none => rfl
    | some e => rfl
  · exact retainedFails_spec b j
  · refine worksPure_of rfl (fun b j => ?_) (fun _ => rfl) (fun b j d => newKey_bind rfl fun k => rfl)
    refine (match_firstFail some _ _).trans ?_
    rw [checkedBy_cons, checkedBy_cons, checkedBy_nil]
    refine if_congr ?_ rfl (if_congr ?_ rfl rfl)
    · rw [Bool.not_eq_true', ← Bool.not_eq_true, Bool.and_eq_true, Bool.and_eq_true, decide_eq_true_iff, decide_eq_true_iff, beq_iff_eq, and_assoc]
    · rw [Bool.or_eq_true, beq_iff_eq, decide_eq_true_iff]
  · refine ⟨_, _, _, worksPure_of_work rfl, fun b j d h => ⟨if_pos h, if_neg ?_, ?_⟩⟩
    · rw [h, bne_self_eq_false, Bool.false_and]
      exact Bool.false_ne_true
    · intro modulus
      refine ⟨fun hbad => if_pos ?_, fun hm ho => ⟨_, (if_neg ?_).trans (if_pos h), ?_⟩⟩
      · rw [Bool.or_eq_true, decide_eq_true_iff, Bool.not_eq_true']
        exact hbad
      · rw [Bool.or_eq_true, decide_eq_true_iff, ho]
        rintro (h | h)
        · exact absurd hm (Nat.not_lt.mpr h)
        · exact nomatch h
      · unfold algBytes
        rw [List.length_map, List.length_range]
        exact Nat.min_le_left _ _
  · refine worksPure_of rfl (fun _ _ => rfl) (fun _ => rfl) (fun b j d => newKey_bind rfl fun k => rfl)
  · simp only [List.mem_cons, Prod.mk.injEq, List.not_mem_nil, or_false] at h
    rcases h with ⟨rfl, rfl⟩ | ⟨rfl, rfl⟩ | ⟨rfl, rfl⟩
    all_goals exact worksPure_of_work rfl
  · simp only [List.mem_cons, Prod.mk.injEq, List.not_mem_nil, or_false] at h
    rcases h with ⟨rfl, rfl⟩ | ⟨rfl, rfl⟩ | ⟨rfl, rfl⟩
    all_goals exact worksPure_of_work rfl
  · unfold rsOk scalarOk
    rw [Bool.and_eq_true, Bool.and_eq_true, Bool.and_eq_true]
    simp only [decide_eq_true_eq, and_assoc]

end Sys2Proof.Machine

/-! SUPPORT. The combiners, KDFs, key wraps, AEAD, FROST and fabric jobs (Table 3.12, R69 to R74, R346, R347). -/
namespace Sys2Proof.Machine

/-! ### Rising lists and the least of a list -/

/-- A list of numbers rises where each is below all that follow. -/
theorem rising_iff (l : List Nat) : rising l = true ↔ l.Pairwise (· < ·) := by
  match l with
  | [] => exact ⟨fun _ => .nil, fun _ => rfl⟩
  | [a] => exact ⟨fun _ => List.pairwise_singleton .., fun _ => rfl⟩
  | a :: c :: r =>
    rw [rising, Bool.and_eq_true, decide_eq_true_iff, rising_iff (c :: r), List.pairwise_cons (l := c :: r)]
    refine and_congr_left fun hr => ⟨fun hac x hx => ?_, fun h => h c List.mem_cons_self⟩
    rcases List.mem_cons.mp hx with rfl | hx
    · exact hac
    · exact Nat.lt_trans hac ((List.pairwise_cons.mp hr).1 x hx)
/-- The least of what a search found so far and of a list. -/
theorem least_spec (l : List Nat) (a : Nat) : ∃ i, l.foldl (fun a x => some (match a with | some y => min x y | none => x)) (some a) = some i ∧
    (i = a ∨ i ∈ l) ∧ i ≤ a ∧ ∀ x ∈ l, i ≤ x := by
  induction l generalizing a with
  | nil => exact ⟨a, rfl, .inl rfl, Nat.le_refl _, fun x h => nomatch h⟩
  | cons x r ih =>
    obtain ⟨i, hi, hmem, hle, hall⟩ := ih (min x a)
    refine ⟨i, hi, ?_, Nat.le_trans hle (Nat.min_le_right ..), List.forall_mem_cons.mpr ⟨Nat.le_trans hle (Nat.min_le_left ..), hall⟩⟩
    rcases hmem with rfl | hmem
    · rcases Nat.le_total x a with h | h
      · exact .inr (by rw [Nat.min_eq_left h]; exact List.mem_cons_self)
      · exact .inl (Nat.min_eq_right h)
    · exact .inr (List.mem_cons_of_mem _ hmem)
/-- The least of a list is one of it and below every other; an empty list has none. -/
theorem lowest_spec (l : List Nat) : (lowest l = none ↔ l = []) ∧ ∀ i, lowest l = some i → i ∈ l ∧ ∀ x ∈ l, i ≤ x := by
  cases l with
  | nil => exact ⟨⟨fun _ => rfl, fun _ => rfl⟩, fun i h => nomatch h⟩
  | cons a r =>
    obtain ⟨i, hi, hmem, hle, hall⟩ := least_spec r a
    have hlow : lowest (a :: r) = some i := hi
    refine ⟨by simp [hlow], fun k hk => ?_⟩
    obtain rfl := Option.some.inj (hlow.symm.trans hk)
    exact ⟨List.mem_cons.mpr hmem, List.forall_mem_cons.mpr ⟨hle, hall⟩⟩

/-! ### Handles in turn -/

/-- As many handles are assigned as are asked for. -/
theorem length_assignMany (b : Block) (sc n : Nat) : (b.assignMany sc n).2.length = n := by
  induction n generalizing b with
  | zero => rfl
  | succ n ih => exact congrArg (· + 1) (ih _)

/-! ### Unwrapping (R69, R71) -/

/-- What a wrap's content describes has its template's length. -/
theorem keyLen_unwrapped (k : Key) (m : Bytes) : (k.unwrapped m).keyLen = k.keyLen := by
  unfold Key.unwrapped
  dsimp only
  split <;> rfl
/-- A public half derived leaves the length. -/
theorem keyLen_withPub (p : Bool) (k : Key) (pub : Bytes) : (if p then k else { k with pub := pub }).keyLen = k.keyLen := by
  cases p <;> rfl
/-- An unwrapped key: its template, the integrity of the blob, then what the blob holds. -/
theorem unwrap_spec (s : State) (id o : Nat) {c : Instr} (hc : exec c s = done (s.toBlock.unwrap id o) s) :
    WorksPure s id (only o) c
      (fun b j => if statefulType (fld j.param 0 2) = true ∨ j.desc.parAddr = 0 then some (St.badParam, 0x44)
        else templateFails (fun j => fld j.param 0 2) 4 b j) (fun j => if aeadType (fld j.param 0 2) then 4 else 0) (fun b j d =>
      let t := fld j.param 0 2
      let args := [j.keyObj.secret, j.input]
      match b.fromTemplate j.slice j.template t 4 with
      | .error e => .error e
      | .ok k =>
        if Config.ask .unwrapOk j.op args = false then .error (St.inputInvalid, 7) else
        let m := algBytes .kwUnwrap j.op args (if o = 0x0D31 then j.input.length - 8 else (Config.decoded .kwUnwrap j.op args).headD 0)
        let want := wrappedLen t k.keyLen.toNat m
        let u := { k with secret := [], pub := [] }.unwrapped m
        let u : Key := if frostKey t then u else { u with pub := if aeadType t then d else derivedPub t u u.secret }
        if m.length ≠ (if o = 0x0D31 then roundUp want 8 else want) ∨ secretOk t u.secret = false then .error (St.inputInvalid, 0x41)
        else if secretAgrees t k.keyLen.toNat u.secret u.pub = false then .error (St.inputInvalid, 0x42)
        else .ok { effects := [.createKey u true] }) := by
  refine worksPure_of hc (fun b j => ?_) (fun _ => rfl) (fun b j d => newKey_bind rfl fun k => ?_)
  · refine if_congr ?_ rfl rfl
    rw [Bool.or_eq_true, beq_iff_eq]
  · refine if_congr (by rw [Bool.not_eq_true']) rfl ?_
    refine (match_firstFail Except.error _ _).trans ?_
    rw [checkedBy_cons, checkedBy_cons, checkedBy_nil]
    refine if_congr ?_ rfl (if_congr ?_ rfl rfl)
    · rw [Bool.or_eq_true, bne_iff_ne, Bool.not_eq_true']
    · rw [Bool.not_eq_true', keyLen_withPub, keyLen_unwrapped]

/-- Settles O38: each job's checks one by one, then its draw and its run; the lowest failing identifier as the least of a list. -/
theorem symmetricAndThresholdJobs : Obligations.SymmetricAndThresholdJobs := by
  refine ⟨fun s id lost dest => ?_, rising_iff, lowest_spec⟩
  intro plain
  refine ⟨worksPure_of_work rfl, worksPure_of_work rfl, fun o a c h => ?_, fun o c h => ?_, fun k hk => if_neg (Bool.eq_false_iff.mp hk), fun o c h => ?_,
    fun o ct tag c h => ?_, fun o pt c h => ?_, ?_, length_assignMany, worksPure_of_work rfl, worksPure_of_work rfl, worksPure_of_work rfl, worksPure_of_work rfl, ?_,
    worksPure_of_work rfl⟩
  · simp only [List.mem_cons, Prod.mk.injEq, List.not_mem_nil, or_false] at h
    rcases h with ⟨rfl, rfl, rfl⟩ | ⟨rfl, rfl, rfl⟩ | ⟨rfl, rfl, rfl⟩ | ⟨rfl, rfl, rfl⟩
    all_goals exact worksPure_of_work rfl
  · simp only [List.mem_cons, Prod.mk.injEq, List.not_mem_nil, or_false] at h
    rcases h with ⟨rfl, rfl⟩ | ⟨rfl, rfl⟩
    all_goals exact worksPure_of_work rfl
  · simp only [List.mem_cons, Prod.mk.injEq, List.not_mem_nil, or_false] at h
    rcases h with ⟨rfl, rfl⟩ | ⟨rfl, rfl⟩
    · exact unwrap_spec (c := .unwrapKw id) s id 0x0D31 rfl
    · exact unwrap_spec (c := .unwrapKwp id) s id 0x0D33 rfl
  · simp only [List.mem_cons, Prod.mk.injEq, List.not_mem_nil, or_false] at h
    rcases h with ⟨rfl, rfl, rfl, rfl⟩ | ⟨rfl, rfl, rfl, rfl⟩
    all_goals exact worksPure_of_work rfl
  · simp only [List.mem_cons, Prod.mk.injEq, List.not_mem_nil, or_false] at h
    rcases h with ⟨rfl, rfl, rfl⟩ | ⟨rfl, rfl, rfl⟩
    all_goals exact worksPure_of_work rfl
  · refine works_of rfl (fun b j => ?_) (fun _ => rfl) (fun b j d => ?_)
    · refine if_congr ?_ rfl rfl
      rw [Bool.not_eq_true', ← Bool.not_eq_true, Bool.and_eq_true, Bool.and_eq_true, decide_eq_true_iff, decide_eq_true_iff, decide_eq_true_iff, and_assoc]
    · unfold Block.newKey
      cases b.fromTemplate j.slice j.template (0x1200 + j.set) 1 with
      | error e => rfl
      | ok k => rfl
  · refine worksPure_of rfl (fun _ _ => rfl) (fun _ => rfl) (fun b j d => ?_)
    refine (match_firstFail Except.error _ _).trans ?_
    rw [checkedBy_cons, checkedBy_cons, checkedBy_cons, checkedBy_nil]
    refine if_congr ?_ rfl (if_congr decide_eq_true_iff rfl ?_)
    · rw [Bool.not_eq_true', Bool.and_eq_false_iff, decide_eq_false_iff_not, decide_eq_false_iff_not, Nat.not_le, Nat.not_le]
      exact Iff.rfl
    · cases lost with
      | none => rfl
      | some m => rfl

end Sys2Proof.Machine

/-! SUPPORT. The primitive, digest and random jobs (chapters 04 and 11). -/
namespace Sys2Proof.Machine

/-- A conditioned block is 16 bytes. -/
theorem length_conditioned (b : Block) (n : Nat) : (b.conditioned n).length = 16 * n := by
  unfold Block.conditioned
  split
  · rw [Block.anyBytes, List.length_map, List.length_range]
  · simp [List.length_flatMap, algBytes, List.map_const', List.sum_replicate_nat, Nat.mul_comm]

/-! ### What serving the wale DRBGs and drawing leave alone -/

/-- A relay leaves the factory pattern. -/
theorem pattern_relaySeed (b : Block) (q : Nat) (d : Fin 4) : (b.relaySeed q d).rng.pattern = b.rng.pattern := by
  unfold Block.relaySeed
  dsimp only
  split
  · rfl
  · split
    · rfl
    · split <;> rfl
/-- A reseed leaves the factory pattern. -/
theorem pattern_reseedSeeder (b : Block) (q : Nat) : (b.reseedSeeder q).rng.pattern = b.rng.pattern := by
  unfold Block.reseedSeeder
  split
  · exact pattern_relaySeed ..
  · split <;> rfl
/-- A request leaves the factory pattern. -/
theorem pattern_seedRequest (b : Block) (q n : Nat) : (b.seedRequest q n).rng.pattern = b.rng.pattern := by
  unfold Block.seedRequest
  dsimp only
  split
  · exact pattern_reseedSeeder b q
  · rfl
/-- A draw leaves the factory pattern. -/
theorem pattern_seedDraw (b : Block) (q n : Nat) : (b.seedDraw q n).rng.pattern = b.rng.pattern :=
  List.foldlRecOn (motive := fun c : Block => c.rng.pattern = b.rng.pattern) _ _ rfl fun _ hc _ _ => (pattern_seedRequest ..).trans hc
/-- The jobs are as they were. -/
theorem SameButRng.jobs {b c : Block} (h : SameButRng b c) : c.jobs = b.jobs := by
  unfold SameButRng at h
  rw [← h]
/-- Serving the wale DRBGs that wait leaves the jobs. -/
theorem jobs_serveSeeds (q n : Nat) (b : Block) : (Block.serveSeeds q n b).jobs = b.jobs := by
  induction n generalizing b with
  | zero => rfl
  | succ n ih =>
    unfold Block.serveSeeds
    dsimp only
    split
    · rfl
    · split
      · rfl
      · exact (ih _).trans (sameButRng_seedDraw _ q 48).jobs
/-- Serving them all leaves each job as it was. -/
theorem job_serveRanks_eq (b : Block) (q id : Nat) : (b.serveRanks q).job id = b.job id := by
  unfold Block.job
  rw [show (b.serveRanks q).jobs = b.jobs from jobs_serveSeeds ..]

/-- Settles O39: the checks of Table 4.8 one by one, and the random jobs by what their quadrant holds. -/
theorem primitiveAndRandomJobs : Obligations.PrimitiveAndRandomJobs := by
  intro s id
  refine ⟨fun o p c h => ?_, fun o p c h => ?_, worksPure_of_work rfl, fun j hj => ?_, fun j hj => ?_, length_conditioned⟩
  · simp only [List.mem_cons, Prod.mk.injEq, List.not_mem_nil, or_false] at h
    rcases h with ⟨rfl, rfl, rfl⟩ | ⟨rfl, rfl, rfl⟩ | ⟨rfl, rfl, rfl⟩ | ⟨rfl, rfl, rfl⟩ | ⟨rfl, rfl, rfl⟩ | ⟨rfl, rfl, rfl⟩
    all_goals exact worksPure_of_work rfl
  · simp only [List.mem_cons, Prod.mk.injEq, List.not_mem_nil, or_false] at h
    rcases h with ⟨rfl, rfl, rfl⟩ | ⟨rfl, rfl, rfl⟩
    all_goals exact worksPure_of_work rfl
  · obtain ⟨hjob, hrun, hpass, hop, hmaker⟩ := hj
    intro b
    have hexec : exec (.random id) s = .next (s.to (b.work id (only 0x0F00) noPre (fun j => j.desc.outCap)
        (fun b _ d => .ok { out := d, detail := b.patternDetail }))) := by
      refine done_to ?_
      rw [show s.toBlock.job id = some j from hjob]
      dsimp only
      rw [if_pos]
      rw [hrun, beq_iff_eq.mp hop]
      rfl
    have hmine : b.job id = some j := (job_serveRanks_eq ..).trans hjob
    have hgo : ¬ (j.phase != .running || j.passes != 0 || !only 0x0F00 j.op || j.entry.customer) = true := by
      rw [hrun, hpass, hop, hmaker]
      decide
    rw [hexec]
    unfold Block.work Block.workWith
    rw [hmine]
    dsimp only
    rw [if_neg hgo]
    refine ⟨fun hs ho => ?_, fun hs ho => ?_⟩
    · refine congrArg (fun c => Host.Outcome.next (s.to c)) (if_pos ?_)
      rw [hs, bne_iff_ne.mpr (Nat.ne_of_gt ho)]
      rfl
    · have hdraw : ¬ (j.desc.outCap != 0 && !b.serves j.quad) = true := by
        rw [hs, Bool.not_true, Bool.and_false]
        exact Bool.false_ne_true
      refine congrArg (fun c => Host.Outcome.next (s.to c)) ((if_neg hdraw).trans ?_)
      rw [if_neg (Nat.ne_of_gt ho)]
      unfold Block.patternDetail
      rw [pattern_seedDraw]
  · obtain ⟨hjob, hrun, hpass, hop, hmaker⟩ := hj
    intro b n got t
    have hgo : ¬ (j.phase != .running || j.op != 0x0F01 || j.entry.customer) = true := by
      rw [hrun, hmaker, beq_iff_eq.mp hop]
      decide
    have hexec : exec (.fullEntropy id) s = .next (s.to (
        if j.desc.outCap ≤ got.length then t.presentResult j (.ok { out := got, detail := b.patternDetail })
        else if b.healthy j.quad = 0 ∧ !b.reviving j.quad then b.present id { status := St.entropyUnavailable, detail := 2 }
        else t.modJob id (fun x => { x with input := got }))) := by
      refine done_to ?_
      rw [show s.toBlock.job id = some j from hjob]
      exact if_neg hgo
    refine ⟨fun h => ?_, fun h ho => ?_, fun h ho => ?_⟩
    · rw [hexec, if_pos h]
      rfl
    · rw [hexec, if_neg (Nat.not_le.mpr h), if_pos ⟨ho.1, congrArg not ho.2⟩]
    · rw [hexec, if_neg (Nat.not_le.mpr h), if_neg fun hn => ho ⟨hn.1, by simpa using hn.2⟩]

end Sys2Proof.Machine

/-! SUPPORT. The journal, the sweep and the start of a customer's run (R131, R244, R252, R318). -/
namespace Sys2Proof.Machine

/-! ### A commit (R244) -/

/-- Writing a change leaves the list of changes, the count of commits and the battery domain. -/
theorem writeChange_same (b : Block) (c : Change) :
    (b.writeChange c).kst.lag = b.kst.lag ∧ (b.writeChange c).kst.commits = b.kst.commits ∧ (b.writeChange c).bat = b.bat ∧ (b.writeChange c).now = b.now := by
  unfold Block.writeChange
  cases c with
  | key h =>
    dsimp only
    split <;> exact ⟨rfl, rfl, rfl, rfl⟩
  | slice s => exact ⟨rfl, rfl, rfl, rfl⟩
  | policies => exact ⟨rfl, rfl, rfl, rfl⟩
/-- A counter raised changes the battery domain alone. -/
theorem raiseCounter_same (b : Block) (n v : Nat) : (b.raiseCounter n v).kst = b.kst ∧ (b.raiseCounter n v).now = b.now := by
  unfold Block.raiseCounter
  split <;> exact ⟨rfl, rfl⟩
/-- A counter takes a greater value that it holds. -/
theorem counter_raiseCounter {b : Block} {n v : Nat} (h : b.counter n < v) (hv : v < 2 ^ 64) : (b.raiseCounter n v).counter n = v := by
  unfold Block.raiseCounter
  rw [if_pos ⟨h, hv⟩]
  unfold Block.counter
  rw [Tab.get_put, if_pos rfl]
/-- A commit writes the oldest change and counts itself. -/
theorem commitOne_spec {b : Block} {c : Change} {r : List Change} (h : b.kst.lag = c :: r) :
    b.commitOne.kst.lag = r ∧ b.commitOne.kst.commits = b.kst.commits + 1 ∧ b.commitOne.kst.lastCommit = b.now ∧ b.commitOne.flash.written = true ∧
      b.commitOne.flash.epoch = b.commitOne.counter 0 ∧ (b.counter 0 + 1 < 2 ^ 64 → b.commitOne.counter 0 = b.counter 0 + 1) := by
  let w := { b with kst := { b.kst with lag := r } }.writeChange c
  obtain ⟨hlag, hcommits, hbat, hnow⟩ := writeChange_same { b with kst := { b.kst with lag := r } } c
  have hcount : w.counter 0 = b.counter 0 := congrArg (fun x : Battery => Tab.get 0 x.counters 0) hbat
  obtain ⟨hk, ht⟩ := raiseCounter_same w 0 (w.counter 0 + 1)
  unfold Block.commitOne
  rw [h]
  refine ⟨(congrArg KeyStore.lag hk).trans hlag, (congrArg (fun k : KeyStore => k.commits + 1) hk).trans (congrArg (· + 1) hcommits), ht.trans hnow, rfl, rfl, fun hb => ?_⟩
  exact (counter_raiseCounter (Nat.lt_succ_self _) (hcount ▸ hb)).trans (congrArg (· + 1) hcount)

/-! ### The sweep (R252, R318) -/

/-- What the sweep leaves of a key: a tombstone without secret, of a key that expired at a reset or was one before. -/
theorem tombstones_spec {t : Tab Key} {p : Nat × Key} (h : p ∈ tombstones t) :
    p.2.tombstone = true ∧ p.2.secret = [] ∧ ∃ k, (p.1, k) ∈ t ∧ (k.expire = true ∨ k.tombstone = true) := by
  unfold tombstones at h
  obtain ⟨q, hq, rfl⟩ := List.mem_map.mp h
  obtain ⟨hmem, hkeep⟩ := List.mem_filter.mp hq
  exact ⟨rfl, rfl, q.2, hmem, (Bool.or_eq_true ..).mp hkeep⟩

/-- Settles O42: a commit takes the oldest change, and a sweep leaves tombstones alone. -/
theorem journalAndSweep : Obligations.JournalAndSweep := by
  intro s id j w b
  refine ⟨fun h => done_same (if_pos ?_), fun c r h hc => ⟨done_to (if_neg ?_), commitOne_spec h⟩, fun h => ⟨fun hk => done_same ?_, fun hk => done_to ?_⟩, fun h => ?_,
    fun p => tombstones_spec, fun hj hc => done_same ?_, fun hj hc hw hp => ?_⟩
  · rw [Bool.or_eq_true, List.isEmpty_iff]
    exact h.imp_right (congrArg not ·)
  · rw [h, hc, Bool.not_true, Bool.or_false]
    exact Bool.false_ne_true
  · change b.sweepEnd = b
    unfold Block.sweepEnd
    rw [if_pos (bne_iff_ne.mpr hk)]
    exact if_neg (Bool.eq_false_iff.mp h)
  · have hsweep : ¬ (b.kst.st != .sweeping) = true := by
      rw [hk]
      decide
    unfold Block.sweepEnd
    rw [if_neg hsweep]
    exact if_neg (Bool.eq_false_iff.mp h)
  · have hseal : exec .sweepEnd s = .next (s.to (if b.kst.st != .sweeping then b else { b with kst := { b.kst with st := .zeroised, keys := tombstones b.kst.keys } }).seal) := by
      refine done_to ?_
      unfold Block.sweepEnd
      refine if_pos ?_
      split <;> exact h
    refine ⟨_, hseal, rfl, ?_⟩
    by_cases hk : b.kst.st = .sweeping
    · rw [if_neg (by rw [hk]; decide)]
      exact ⟨rfl, rfl, rfl, rfl, rfl, rfl, rfl, rfl, fun _ => ⟨rfl, rfl⟩⟩
    · rw [if_pos (bne_iff_ne.mpr hk)]
      exact ⟨rfl, rfl, rfl, rfl, rfl, rfl, rfl, rfl, fun h => absurd h hk⟩
  · rw [show s.toBlock.job id = some j from hj]
    exact if_neg (Bool.eq_false_iff.mp hc)
  · intro x hx hst hi hr hsp y
    have hwork : x.job.bind b.job = some j := by
      rw [hx]
      exact hj
    have hgo : b.startWork w = b.modWale w (fun y => y.begin j b.now none [] []) := by
      unfold Block.startWork
      dsimp only
      rw [show (b.wale w).job.bind b.job = some j from hwork]
      refine if_pos ?_
      rw [show (b.wale w).st = .running from hst, hp, show (b.wale w).micro.issuing = false from hi, show (b.wale w).micro.released = none from hr,
        show (b.wale w).spells w (.waitWork w) = true from hsp]
      rfl
    refine ⟨done_to ?_, if_pos hc, rfl, hc⟩
    rw [show s.toBlock.job id = some j from hj]
    dsimp only
    rw [if_pos hc, hw]
    exact hgo

end Sys2Proof.Machine

/-! SUPPORT. The mailbox commands that only read. -/
namespace Sys2Proof.Machine

/-! ### Commands of a slice -/

/-- A command on the mailbox of a slice checks its state and is served. -/
theorem onOwn_of {s : State} {i : Instr} {code : W16} {r : Req} {len : Nat → Bool} {states : List SliceSt} {body : Block → SliceId → Block × Reply}
    (h : exec i s = done (s.toBlock.ownCmd code r len states body) s) : OnOwn s i code r len states body := by
  have hown : (fun b : Block => r.box.bind (fun n : SliceId =>
        if states.contains (b.slice n).st then none else some (St.contextBusy, BitVec.ofNat 32 (b.slice n).st.code))) =
      fun b : Block => r.box.bind (fun n => if (b.slice n).st ∈ states then none else some (St.contextBusy, BitVec.ofNat 32 (b.slice n).st.code)) :=
    funext fun b => congrArg r.box.bind (funext fun n => if_congr List.contains_iff_mem rfl rfl)
  unfold OnOwn
  rw [← hown]
  exact submitsIn_of_commandIn h
/-- A command on a wale's register. -/
theorem walRead_spec {s : State} {r : Req} {i : Instr} {code : W16} {f : Block → Nat → Nat} (h : exec i s = done (s.toBlock.walRead code r f) s) :
    Submits s i { code := code, len := exactly 4 } r (fun b =>
      if fld r.payload 2 2 ≠ 0 then (b, .fail St.badParam 0)
      else if h : fld r.payload 0 2 < 64 then (b, .ok (le 4 (f b (⟨fld r.payload 0 2, h⟩ : WaleId)))) else (b, .fail St.badParam 1)) := by
  refine submits_of h fun b => ?_
  unfold walIndex
  by_cases h0 : fld r.payload 2 2 ≠ 0
  · rw [if_pos h0, if_pos h0]
  rw [if_neg h0, if_neg h0]
  by_cases hw : fld r.payload 0 2 < 64
  · rw [dif_pos hw, dif_pos hw]
  · rw [dif_neg hw, dif_neg hw]

/-! ### What the device draws for a requester (R271) -/

/-- No seeder delivers: nothing is drawn. -/
theorem drawDevice_none {b : Block} {n : Nat} (h : ∀ q < 4, b.delivers q = false) : b.drawDevice n = none := by
  unfold Block.drawDevice
  rw [List.find?_eq_none.mpr fun q hq => Bool.eq_false_iff.mp (h q (List.mem_range.mp hq))]
/-- The lowest-numbered that delivers gives the bytes. -/
theorem drawDevice_some {b : Block} {n q : Nat} (hq : q < 4) (h : b.delivers q = true) (hlow : ∀ k < q, b.delivers k = false) :
    b.drawDevice n = some (b.draw n, b.seedDraw q n) := by
  have hfind : (List.range 4).find? b.delivers = some q := by
    rw [List.find?_range_eq_some]
    exact ⟨h, List.mem_range.mpr hq, fun k hk => by rw [hlow k hk]; rfl⟩
  unfold Block.drawDevice
  rw [hfind]
/-- The host interface is as it was. -/
theorem SameButRng.host {b c : Block} (h : SameButRng b c) : c.host = b.host := by
  unfold SameButRng at h
  rw [← h]
/-- A draw leaves the connections. -/
theorem spdm_drawDevice {b c : Block} {n : Nat} {x : Bytes} (h : b.drawDevice n = some (x, c)) (v : SpdmVia) : c.spdm v = b.spdm v := by
  unfold Block.drawDevice at h
  split at h
  · obtain ⟨-, rfl⟩ := Prod.mk.inj (Option.some.inj h)
    unfold Block.spdm
    rw [(sameButRng_seedDraw ..).host]
  · exact nomatch h

/-- What the four registers of the firmware give. -/
theorem flatMap_range_four (f : Nat → Bytes) : (List.range 4).flatMap f = f 0 ++ f 1 ++ f 2 ++ f 3 := by
  simp [List.range_succ]

/-! ### SPDM measurements (R261) -/

/-- A measurement that is answered: with Busy where no seeder delivers, else with the bytes, a fresh nonce and, where asked, a signature. -/
theorem measured_spec (b : Block) (via : SpdmVia) (secured signed : Bool) (block : Byte) (nonce d : Bytes) :
    let head (code p1 : Byte) : Bytes := [if (b.spdm via).version = 0 then 0x10 else (b.spdm via).version, code, p1, 0]
    let said := if signed then b.spdmSigned via secured 0x60 0 (block :: nonce) d else
      match b.drawDevice 32 with
      | none => b.spdmError via secured 0x03
      | some (n, c) => c.spdmSays via secured 0x60 0 0 (d ++ n)
    (b.drawDevice 32 = none → said = b.emit (.spdm via secured (head 0x7F 0x03))) ∧
    (∀ x b', b.drawDevice 32 = some (x, b') → said = b'.emit (.spdm via secured (head 0x60 0 ++ (if signed
      then d ++ x ++ algBytes .ecSig 0x48 [block :: nonce, x, d] 96 else d ++ x)))) := by
  intro head said
  refine ⟨fun h => ?_, fun x b' h => ?_⟩
  · unfold said Block.spdmSigned
    rw [h]
    cases signed <;> rfl
  · unfold said Block.spdmSigned
    rw [h]
    dsimp only
    unfold Block.spdmSays
    rw [spdm_drawDevice h]
    cases signed <;> rfl

/-- Settles O44: each command answers what the statement gives; a measurement by what the seeders deliver. -/
theorem mailboxReads : Obligations.MailboxReads := by
  intro s r p wal
  refine ⟨submits_of_command rfl, submits_of_command rfl, walRead_spec rfl, walRead_spec rfl, walRead_spec (f := fun b w => (b.wale w).csb.toNat) rfl, submits_of_lcCmd rfl,
    submits_of_command rfl, submits_of_command rfl, submits_of_command rfl, submits_of_command rfl, submits_of_command rfl, submits_of_command rfl, fun b keys h => ?_,
    submits_of_command rfl, submits_of_command rfl, submits_of_command rfl, submits_of_command rfl, submits_of_command rfl, ?_, ?_, ⟨_, submits_of_command rfl, fun b n h => ?_⟩,
    submits_of_command rfl, submits_of_command rfl, submits_of_command rfl, submits_of_command rfl, submits_of_command rfl, submits_of_command rfl,
    ⟨_, submitsIn_of_commandIn rfl, fun b sl => ?_⟩, submitsIn_of_commandIn rfl, onOwn_of rfl, onOwn_of rfl, ?_, fun b n => ⟨drawDevice_none, fun q => drawDevice_some⟩⟩
  · unfold Block.aliasKeys Block.deviceKeys Block.idSeed
    rw [h]
    refine ⟨?_, rfl⟩
    rw [flatMap_range_four]
    rfl
  · refine submits_of rfl fun b => ?_
    by_cases hbad : 1 < fld p 0 1 ∨ fld p 1 3 ≠ 0
    · exact (if_pos hbad).trans (if_pos hbad).symm
    · refine (if_neg hbad).trans (Eq.trans ?_ (if_neg hbad).symm)
      have hle : ¬ 1 < fld p 0 1 := fun h => hbad (.inl h)
      by_cases h0 : fld p 0 1 = 0
      · have h1 : ¬ fld p 0 1 = 1 := by omega
        rw [if_neg h1]
        dsimp only
        rw [if_pos (show fld r.payload 0 1 = 0 from h0), ← List.filter_reverse]
        have hsame : (fun x : W32 × Note => fld p 4 4 == 0 || decide (b.flt.place (fld p 4 4) ≤ b.flt.place x.1.toNat)) =
            fun x => decide (fld p 4 4 = 0 ∨ b.flt.place (fld p 4 4) ≤ b.flt.place x.1.toNat) :=
          funext fun x => by rw [Bool.decide_or]; rfl
        rw [← hsame]
      · have h1 : fld p 0 1 = 1 := by omega
        rw [if_pos h1]
        dsimp only
        rw [if_neg (show ¬ fld r.payload 0 1 = 0 from h0), ← List.filter_reverse]
  · refine submits_of rfl fun b => ?_
    have hnow (x : FenceRec) : b.flt.recNow x = if ∃ n ∈ b.flt.log, n.1 = x.seq then x else { x with seq := 0 } :=
      if_congr (by rw [List.any_eq_true]; simp only [beq_iff_eq]) rfl rfl
    simp only [hnow]
  · rw [h]
    exact ⟨_, rfl⟩
  · simp only [List.append_assoc]
    exact ⟨_, rfl⟩
  · intro via secured signed block nonce b n c run head answers
    refine ⟨fun h => done_same (if_pos (congrArg not h)), fun h => ?_⟩
    have hup : ¬ (!b.boot.rimUp) = true := by
      rw [h]
      decide
    have hserves : (!c.serves secured) = true ↔ c.algs = false ∨ (secured = true ∧ c.sessions = 0) := by
      unfold SpdmConn.serves
      cases c.algs <;> cases secured <;> simp
    refine ⟨fun h => done_to ((if_neg hup).trans (if_pos (hserves.mpr h))), fun ha hs => ?_⟩
    have hgo : ¬ (!c.serves secured) = true := fun hno => (hserves.mp hno).elim (fun h => nomatch h.symm.trans ha) fun h => hs h.1 h.2
    refine ⟨fun h1 h16 => ?_, fun hq => ?_, fun hno => done_to ?_⟩
    · obtain ⟨hnone, hsome⟩ := measured_spec b via secured signed block nonce (Tab.get {} b.att.regs (n - 1) : Bank).sha2
      exact ⟨fun hd => done_to ((if_neg hup).trans ((if_neg hgo).trans ((if_pos ⟨h1, h16⟩).trans (hnone hd)))),
        fun x b' hd => done_to ((if_neg hup).trans ((if_neg hgo).trans ((if_pos ⟨h1, h16⟩).trans (hsome x b' hd))))⟩
    · have hn : ¬ (1 ≤ n ∧ n ≤ 16) := by omega
      obtain ⟨hnone, hsome⟩ := measured_spec b via secured signed block nonce (b.statement 1 nonce none [] [])
      exact ⟨fun hd => done_to ((if_neg hup).trans ((if_neg hgo).trans ((if_neg hn).trans ((if_pos hq).trans (hnone hd))))),
        fun x b' hd => done_to ((if_neg hup).trans ((if_neg hgo).trans ((if_neg hn).trans ((if_pos hq).trans (hsome x b' hd)))))⟩
    · have hn : ¬ (1 ≤ n ∧ n ≤ 16) := by omega
      have hq : ¬ n = 0xFD := by omega
      exact (if_neg hup).trans ((if_neg hgo).trans ((if_neg hn).trans (if_neg hq)))

end Sys2Proof.Machine

/-! SUPPORT. The slice commands and the quiesce timers (chapter 09). -/
namespace Sys2Proof.Machine

/-- A command on a named slice, whose meaning is spelt otherwise than its statement. -/
theorem onSlice_of {s : State} {i : Instr} {code : W16} {r : Req} {len : Nat → Bool} {states : List SliceSt} {body body' : Block → SliceId → Block × Reply}
    (h : exec i s = done (s.toBlock.sliceCmd code r len states body') s) (hb : ∀ b sl, body' b sl = body b sl) : OnSlice s i code r len states body := by
  obtain rfl : body' = body := funext₂ hb
  exact submitsIn_of_commandIn h
/-- A command on a slice's own mailbox, the same. -/
theorem onOwn_like {s : State} {i : Instr} {code : W16} {r : Req} {len : Nat → Bool} {states : List SliceSt} {body body' : Block → SliceId → Block × Reply}
    (h : exec i s = done (s.toBlock.ownCmd code r len states body') s) (hb : ∀ b sl, body' b sl = body b sl) : OnOwn s i code r len states body := by
  obtain rfl : body' = body := funext₂ hb
  exact onOwn_of h

/-- Settles O46: each command is the meaning the statement gives it, and the timers by the slice's state. -/
theorem sliceCommands : Obligations.SliceCommands := by
  intro s r sl p locked
  refine ⟨submitsIn_of_commandIn rfl, onSlice_of rfl fun _ _ => rfl, onSlice_of rfl fun b n => ?_, onSlice_of rfl fun b n => rfl, onSlice_of rfl fun b n => rfl, onSlice_of rfl fun b n => rfl,
    onSlice_of rfl fun b n => rfl, fun h => ⟨done_same (if_pos (.inl h)), done_same (if_pos (.inl h))⟩, fun h => ⟨fun hf => ⟨done_same (if_pos (.inr ?_)), done_to (if_neg ?_)⟩,
      fun hf => ⟨done_same (if_pos (.inr hf)), done_to (if_neg ?_)⟩⟩, onSlice_of rfl fun b n => ?_, onOwn_like rfl fun b n => ?_⟩
  · rfl
  · rw [h, hf]
    decide
  · rw [h, hf]
    decide
  · exact if_congr Option.isNone_iff_eq_none rfl rfl
  · refine if_congr Iff.rfl rfl (if_congr (or_congr Iff.rfl (and_congr Iff.rfl ?_)) rfl rfl)
    rw [Bool.not_eq_true']
  · rw [hf]
    rfl

end Sys2Proof.Machine

/-! SUPPORT. Migration (R226 to R231). -/
namespace Sys2Proof.Machine

/-- A command of migration on a named slice, whose meaning is spelt otherwise than its statement. -/
theorem onSlice_of_migCmd {s : State} {i : Instr} {code : W16} {r : Req} {len : Nat → Bool} {st : SliceSt} {body' : Block → SliceId → Bytes → Block × Reply}
    {body : Block → SliceId → Block × Reply} (h : exec i s = done (s.toBlock.migCmd code r len st body') s) (hb : ∀ b n, body' b n (r.payload.drop 4) = body b n) :
    OnSlice s i code r (fun n => decide (4 ≤ n) && len (n - 4)) [st] body :=
  onSlice_of h hb

/-- A key's change keeps the changes that wait for the journal. -/
theorem lag_modKey (b : Block) (h : W32) (f : Key → Key) : (b.modKey h f).kst.lag = b.kst.lag := by
  unfold Block.modKey
  split <;> rfl
/-- The change of a key goes to the journal with every stateful key of a list. -/
theorem mem_lag_foldl (f : Stateful → Stateful) (c : Change) (l : List (W32 × Key)) (b : Block) (h : c ∈ b.kst.lag ∨ ∃ k, k ∈ l ∧ c = .key k.1) :
    c ∈ (l.foldl (fun (b : Block) (k : W32 × Key) => (b.modKey k.1 (fun k => { k with stateful := k.stateful.map f })).change (.key k.1)) b).kst.lag := by
  induction l generalizing b with
  | nil =>
    obtain h | ⟨k, hk, -⟩ := h
    · exact h
    · exact nomatch hk
  | cons x l ih =>
    refine ih _ ?_
    obtain h | ⟨k, hk, rfl⟩ := h
    · exact .inl (List.mem_append_left _ ((lag_modKey ..).symm ▸ h))
    · obtain rfl | hk := List.mem_cons.mp hk
      · exact .inl (List.mem_append_right _ List.mem_cons_self)
      · exact .inr ⟨k, hk, rfl⟩

/-- Settles O47: each command is the meaning the statement gives it; the changes of stateful keys by induction over the slice's keys. -/
theorem migrationCommands : Obligations.MigrationCommands := by
  intro s r q mig thaw
  refine ⟨submitsIn_of_commandIn rfl, onSlice_of_migCmd (i := .migSave r) rfl fun b n => ?_, onSlice_of_migCmd (i := .migRestore r) rfl fun b n => ?_,
    onSlice_of_migCmd (i := .migAbandon r) rfl fun b n => rfl, onSlice_of_migCmd (i := .migCommit r) rfl fun b n => rfl,
    onSlice_of_migCmd (i := .migUnfreeze r) rfl fun b n => rfl, onSlice_of_migCmd (i := .migCancel r) rfl fun b n => rfl, fun b n f h k hk hs => ?_⟩
  · dsimp only
    refine if_congr Iff.rfl rfl ((match_firstFail_pair (fun st e => (b, Reply.fail st e)) _ _).trans ?_)
    rw [checkedBy_cons, checkedBy_cons, checkedBy_cons, checkedBy_nil]
    refine if_congr (iff_of_eq (Bool.not_eq_true' _)) rfl (if_congr ?_ rfl (if_congr (iff_of_eq (Bool.not_eq_true' _)) rfl rfl))
    rw [Bool.or_eq_true, Bool.and_eq_true, bne_iff_ne, bne_iff_ne, bne_iff_ne]
  · rfl
  · exact mem_lag_foldl f _ _ b (.inr ⟨(h, k), List.mem_filter.mpr ⟨hk, hs⟩, rfl⟩)

end Sys2Proof.Machine

/-! SUPPORT. The SPDM and TDISP responder (R165, R166, R225, R261). -/
namespace Sys2Proof.Machine

/-- What a message does once the requester may be served and the connection itself has nothing to say to it. -/
def Block.spdmServed (b : Block) (v : SpdmVia) (sec : Bool) (m : SpdmMsg) : Block :=
  match m with
  | .getCertificate _ | .challenge _ _ | .keyExchange _ | .endSession => b.spdmSession v sec m
  | _ => b.tdispRequest v sec m

section
variable {s : State} {v : SpdmVia} {sec : Bool} {m : SpdmMsg}

/-- While the Rim is down nothing is answered. -/
theorem spdm_down (h : s.toBlock.boot.rimUp = false) : exec (.spdmMessage ⟨v, sec, m⟩) s = .next s :=
  done_same (if_pos (congrArg not h))
/-- The negotiation is answered first. -/
theorem spdm_negotiated {b : Block} (h : s.toBlock.boot.rimUp = true) (hn : s.toBlock.spdmNegotiate v sec m = some b) :
    exec (.spdmMessage ⟨v, sec, m⟩) s = .next (s.to b) := by
  refine done_to ((if_neg (by rw [h]; decide)).trans ?_)
  rw [hn]
/-- A request that may not be served yet is unexpected. -/
theorem spdm_refused (h : s.toBlock.boot.rimUp = true) (hn : s.toBlock.spdmNegotiate v sec m = none) (hs : (s.toBlock.spdm v).serves sec = false) :
    exec (.spdmMessage ⟨v, sec, m⟩) s = .next (s.to (s.toBlock.spdmError v sec 0x04)) := by
  refine done_to ((if_neg (by rw [h]; decide)).trans ?_)
  rw [hn]
  exact if_pos (congrArg not hs)
/-- Any other is. -/
theorem spdm_served (h : s.toBlock.boot.rimUp = true) (hn : s.toBlock.spdmNegotiate v sec m = none) (hs : (s.toBlock.spdm v).serves sec = true) :
    exec (.spdmMessage ⟨v, sec, m⟩) s = .next (s.to (s.toBlock.spdmServed v sec m)) := by
  refine done_to ((if_neg (by rw [h]; decide)).trans ?_)
  rw [hn]
  exact if_neg (by rw [hs]; decide)
end

/-- Requests are served behind the negotiation, secured ones within a session. -/
theorem SpdmConn.serves_iff (c : SpdmConn) (sec : Bool) : c.serves sec = true ↔ c.algs = true ∧ (sec = true → c.sessions ≠ 0) := by
  unfold SpdmConn.serves
  cases c.algs <;> cases sec <;> simp

section
variable {b : Block} {v : SpdmVia} {sec : Bool} {code p1 : Byte} {asked body : Bytes}

/-- No seeder delivers: Busy. -/
theorem spdmSigned_none (h : b.drawDevice 32 = none) : b.spdmSigned v sec code p1 asked body = b.spdmError v sec 0x03 := by
  unfold Block.spdmSigned
  rw [h]
/-- A fresh nonce and the signature. -/
theorem spdmSigned_some {n : Bytes} {c : Block} (h : b.drawDevice 32 = some (n, c)) :
    b.spdmSigned v sec code p1 asked body = c.spdmSays v sec code p1 0 (body ++ n ++ spdmSignature asked n body) := by
  unfold Block.spdmSigned
  rw [h]
/-- A challenge of slot 0 is signed over the digest of its chain. -/
theorem spdmSession_challenge : b.spdmSession v sec (.challenge 0 asked) = b.spdmSigned v sec 0x03 0 asked (sha384 (b.certChain 1 (Config.statementLen 7))) :=
  if_neg (c := (0 : Byte) ≠ 0) (t := b.spdmError v sec 0x01) fun h => h rfl
/-- A key exchange begins a handshake where a seeder delivers. -/
theorem spdmSession_keyExchange (hk : (b.spdm v).kex = true) :
    b.spdmSession v false (.keyExchange asked) = match b.drawDevice 32 with
      | none => b.spdmError v false 0x03
      | some (x, d) => (d.setSpdm v { b.spdm v with handshakes := (b.spdm v).handshakes + 1 }).spdmSigned v false 0x64 0 asked (algBytes .ecdh 0x48 [x, asked] 96) :=
  if_neg (by rw [hk]; decide)
end

/-- Settles O49: the negotiation by its message, and any other request by whether it may be served. -/
theorem spdmResponder : Obligations.SpdmResponder := by
  intro s v sec sl k b x h c run said answers
  refine ⟨fun hup m => spdm_down hup, fun hup => ⟨spdm_negotiated hup rfl, fun n hn => spdm_negotiated hup (congrArg some (if_pos hn)),
    fun n h2 h3 => spdm_negotiated hup (congrArg some (if_neg (not_or.mpr ⟨h2, h3⟩))), fun as hs dh ae hv => spdm_negotiated hup (congrArg some (if_neg hv)),
    fun hh => ⟨spdm_negotiated hup (congrArg some (if_neg hh)), spdm_negotiated hup (congrArg some (if_neg hh))⟩,
    fun hh ok => spdm_negotiated hup (congrArg some (if_pos hh)), fun hno m hm => ?_, fun ha hsec => ?_⟩⟩
  · have hs : c.serves sec = false := Bool.eq_false_iff.mpr fun hs => by
      obtain ⟨ha, hsec⟩ := (c.serves_iff sec).mp hs
      obtain hno | ⟨hno, h0⟩ := hno
      · exact nomatch hno.symm.trans ha
      · exact hsec hno h0
    simp only [List.mem_cons, List.not_mem_nil, or_false] at hm
    rcases hm with rfl | rfl | rfl | rfl | rfl | rfl | rfl | rfl
    all_goals exact spdm_refused hup rfl hs
  · have hs : c.serves sec = true := (c.serves_iff sec).mpr ⟨ha, hsec⟩
    refine ⟨⟨spdm_served hup rfl hs, fun nonce => ⟨fun hd => next_to (spdm_served hup rfl hs) (spdmSession_challenge.trans (spdmSigned_none hd)),
        fun d b' hd => next_to (spdm_served hup rfl hs) (spdmSession_challenge.trans (spdmSigned_some hd))⟩⟩,
      fun slot nonce h0 => ⟨next_to (spdm_served hup rfl hs) (if_pos h0), next_to (spdm_served hup rfl hs) (if_pos h0)⟩, fun h0 hk share => ?_,
      fun h1 => ?_, fun h0 m hm => ?_, fun n hq hp hu hide => next_to (spdm_served hup rfl hs) (if_pos ⟨hq, ?_, hu, hide⟩),
      fun hno => next_to (spdm_served hup rfl hs) (if_neg ?_), fun hl hst => next_to (spdm_served hup rfl hs) (if_pos ⟨hl, hst⟩),
      fun hno => next_to (spdm_served hup rfl hs) (if_neg fun hl => hno.elim (· hl.1) (· hl.2)), spdm_served hup rfl hs, _, spdm_served hup rfl hs⟩
    · subst h0
      have hkex := spdmSession_keyExchange (asked := share) hk
      refine ⟨fun hd => next_to (spdm_served hup rfl hs) (hkex.trans ?_), fun d b' hd => ⟨fun hd' => next_to (spdm_served hup rfl hs) (hkex.trans ?_),
        fun n b₂ hd' => ⟨algBytes .ecdh 0x48 [d, share] 96 ++ n ++ spdmSignature share n (algBytes .ecdh 0x48 [d, share] 96), next_to (spdm_served hup rfl hs) (hkex.trans ?_)⟩⟩⟩
      · rw [hd]
        rfl
      · rw [hd]
        exact spdmSigned_none hd'
      · rw [hd]
        exact spdmSigned_some hd'
    · subst h1
      exact ⟨spdm_served hup rfl hs, spdm_served hup rfl hs, spdm_served hup rfl hs⟩
    · subst h0
      simp only [List.mem_cons, List.not_mem_nil, or_false] at hm
      rcases hm with rfl | rfl | rfl
      all_goals exact spdm_served hup rfl hs
    · rintro ⟨hq, hp, hu, hide⟩
      obtain hno | hno | hno | hno | hno := hno
      · exact hno hq
      · rw [hno] at hp
        exact nomatch hp
      · rw [hno] at hp
        exact nomatch hp
      · exact hno hu
      · exact nomatch hno.symm.trans hide
    · change (x.pasid.bind id).isSome = true
      rw [hp]
      rfl

end Sys2Proof.Machine

/-! SUPPORT. Fabric, power, ageing and firmware commands. -/
namespace Sys2Proof.Machine

/-- Some port of the device is as a test says. -/
theorem ports_any {b : Block} {f : Port → Bool} {P : Port → Prop} (h : ∀ x, f x = true ↔ P x) : b.wty.ports.any f = true ↔ ∃ x ∈ b.wty.ports.toList, P x := by
  rw [← Vector.any_toList, List.any_eq_true]
  simp only [h]
/-- A reset by command is answered before the device restarts. -/
theorem devReset_spec (s : State) (r : Req) (f : BootFacts) (c : Cmd) (hc : c = { code := 0x00B5, states := anyLife, recovery := true }) :
    Goes s s.toBlock (.devReset r f) c r (fun b => Checked s b (.devReset r f) c r none
      (exec (.devReset r f) s = .next (s.to ((b.reply r 0x00B5 (.ok [])).fullReset f true)))) := by
  subst hc
  refine goes_of_taken (fun hn => taken_idle hn) (fun hy => ⟨hy, rfl⟩) fun x hx => ⟨fun e he => hx.trans (done_to ?_), fun hr => hx.trans (done_to ?_)⟩
  · dsimp only
    rw [he]
  · dsimp only
    rw [hr]

/-- Settles O51: each command is the meaning the statement gives it, its conditions read as propositions. -/
theorem fabricPowerAndFirmwareCommands : Obligations.FabricPowerAndFirmwareCommands := by
  intro s r f p owned wty
  refine ⟨submits_of (i := .wtyPlanSet r) rfl fun b => ?_, submits_of (i := .wtyPortCfg r) rfl fun b => rfl, submits_of (i := .wtyTimeCfg r) rfl fun b => rfl,
    submits_of (i := .wtyMemberAdmit r) rfl fun b => ?_, submits_of (i := .wtyFzPolicySet r) rfl fun b => rfl, submits_of (i := .wtySliceJoin r) rfl fun b => ?_,
    submits_of (i := .wtySliceLeave r) rfl fun b => ?_, submits_of (i := .wtyTakeover r) rfl fun b => ?_, submits_of rfl fun b => rfl,
    submits_of rfl fun b => ?_, submitsWait_of rfl fun b => rfl, submits_of rfl fun b => ?_, submits_of rfl fun b => rfl, submits_of rfl fun b => rfl,
    submits_of rfl fun b => ?_, submits_of rfl fun b => ?_, ⟨_, submits_of_command rfl, fun b => ⟨fun h => ?_, fun t ht hs => ?_⟩⟩, submits_of rfl fun b => rfl,
    devReset_spec s r f _ rfl⟩
  · refine if_congr ?_ rfl rfl
    rw [Bool.or_eq_true, Bool.and_eq_true, Bool.not_eq_true', ports_any fun x => beq_iff_eq]
  · exact if_congr Iff.rfl rfl (if_congr (iff_of_eq (Bool.not_eq_true' _)) rfl rfl)
  · dsimp only
    cases b.named r.payload [.quiesced] with
    | error e => rfl
    | ok n => exact if_congr Iff.rfl rfl (if_congr (iff_of_eq (Bool.not_eq_true' _)) rfl rfl)
  · rfl
  · cases b.wty.standby <;> cases b.wty.eligible <;> cases b.wty.lostMaster <;> simp
  · generalize b.slices.find? _ = x
    cases x with
    | some x => rfl
    | none =>
      refine if_congr ?_ rfl rfl
      rw [Bool.or_eq_true, List.any_eq_true, beq_iff_eq]
      simp only [beq_iff_eq]
  · refine if_congr Iff.rfl rfl (if_congr ?_ rfl ?_)
    · rw [Bool.or_eq_true, Bool.and_eq_true, Bool.not_eq_true', decide_eq_true_iff]
    · dsimp only
      simp only [Option.isNone_iff_eq_none]
      rfl
  · dsimp only
    generalize b.imageRefused r.payload = x
    cases x <;> rfl
  · exact if_congr beq_iff_eq rfl rfl
  · dsimp only
    split
    · next ht hs =>
      obtain h | h := h
      · exact absurd (beq_iff_eq.mp ht) h
      · exact nomatch h.symm.trans hs
    · rfl
  · have hc : b.boot.toCommit = true := beq_iff_eq.mpr ht
    dsimp only
    rw [hc, hs]
    rfl

end Sys2Proof.Machine

/-! SUPPORT. Noise sources, conditioners, seeders and wale DRBGs (chapter 11). -/
namespace Sys2Proof.Machine

/-- What a change of a source gives for the source it changes is all that counts. -/
theorem modSource_congr {b : Block} {i : Nat} {f g : Source1 → Source1} (h : f (b.source i) = g (b.source i)) : b.modSource i f = b.modSource i g := by
  unfold Block.modSource
  rw [h]

/-! ### Sources -/

/-- Did a source fail within the last second (R268)? -/
def Block.failedLately (b : Block) (i : Nat) : Bool :=
  match (b.source i).lastFail with
  | some t => decide (b.elapsed t < 1000000000)
  | none => false
theorem failedLately_iff (b : Block) (i : Nat) : b.failedLately i = true ↔ ∃ u, (b.source i).lastFail = some u ∧ b.elapsed u < 1000000000 := by
  unfold Block.failedLately
  cases (b.source i).lastFail with
  | none => simp
  | some t => simp
/-- A healthy source that fails is noted, and fenced where it has failed within the last second, else started again. -/
theorem sourceFails_healthy {b : Block} {i t : Nat} (hp : b.rng.pattern = none) (hs : (b.source i).st = .healthy) :
    let b' := ((b.discardHeld i).modSource i (fun x => { x with
      st := .suspect, lastFail := some b.now, failures := if x.failures = 0xFFFFFFFF then x.failures else x.failures + 1 })).note
        (Src.noise i) 0x0A 0 (testDetail t (b.source i).code)
    b.sourceFails i t = (if b.failedLately i then b'.fenceSource i t else b'.startSource i).settleEntropy := by
  refine (if_neg (by rw [hp]; decide)).trans ?_
  rw [hs]
  rfl

section
variable {s : State} {i : SourceId} {n : Nat}

/-- A block of samples steps the servo. -/
theorem servoBlock_run (hst : (s.toBlock.source i).st = .starting ∨ (s.toBlock.source i).st = .healthy) (hn : n ≤ 4096) :
    let b := s.toBlock
    let x := b.source i
    let code := if 2112 < n then x.code - 1 else if n < 1984 then min 1023 (x.code + 1) else x.code
    let rail := if x.code = 0 ∨ x.code = 1023 then x.rail + 1 else 0
    let quiet := if x.st = .starting ∧ 2 ≤ x.quiet then x.quiet else if 1984 ≤ n ∧ n ≤ 2112 then x.quiet + 1 else 0
    let b' := b.modSource i (fun x => { x with code := code, samples := x.samples + 4096, rail := if 16 ≤ rail then 0 else rail, quiet := quiet })
    exec (.servoBlock i n) s = .next (s.to (if 16 ≤ rail then b'.sourceFails i 3 else b').checkWake) := by
  intro b x code rail quiet b'
  have hgo : ¬ ((x.st ≠ .starting ∧ x.st ≠ .healthy) ∨ 4096 < n) := by
    rintro (⟨h1, h2⟩ | h)
    · exact hst.elim h1 h2
    · omega
  have hb : b.modSource i (fun y => { y with
      code := code, samples := y.samples + 4096, rail := if 16 ≤ rail then 0 else rail,
      quiet := if (x.st == .starting && decide (2 ≤ x.quiet)) = true then y.quiet else if 1984 ≤ n ∧ n ≤ 2112 then y.quiet + 1 else 0 }) = b' := by
    refine modSource_congr ?_
    have hq : (if (x.st == .starting && decide (2 ≤ x.quiet)) = true then x.quiet else if 1984 ≤ n ∧ n ≤ 2112 then x.quiet + 1 else 0) = quiet :=
      if_congr (by rw [Bool.and_eq_true, beq_iff_eq, decide_eq_true_iff]) rfl rfl
    exact congrArg (fun k => { b.source i with code := code, samples := (b.source i).samples + 4096, rail := if 16 ≤ rail then 0 else rail, quiet := k }) hq
  rw [← hb]
  exact done_to (congrArg Block.checkWake (if_neg hgo))
end

/-! ### Seeders -/

/-- Time that passes leaves the seeders. -/
theorem seeder_advanceTo (b : Block) (t : W64) (d q : Nat) : (b.advanceTo t d).seeder q = b.seeder q := by
  unfold Block.advanceTo
  split <;> rfl
/-- A seeder that does not relay reseeds from its own noise, once 384 fresh bits are ready. -/
theorem reseedSeeder_own {b : Block} {q : Nat} (h : (b.seeder q).st = .seeded ∨ b.donorFor q = none) :
    b.reseedSeeder q = if 3 ≤ Tab.get 0 b.rng.blocks q then (b.takeBlocks q 3).reseeded q else b := by
  have hown : b.reseedSeeder q = if b.hasSeed q then (b.takeBlocks q 3).reseeded q else b := by
    unfold Block.reseedSeeder
    obtain h | h := h
    · rw [h]
    · rw [h]
      cases (b.seeder q).st <;> rfl
  exact hown.trans (if_congr decide_eq_true_iff rfl rfl)
/-- One that relays reseeds from its donor's. -/
theorem reseedSeeder_relayed {b : Block} {q : Nat} {d : Fin 4} (h : (b.seeder q).st = .relayed) (hd : b.donorFor q = some d) :
    b.reseedSeeder q = b.relaySeed q d := by
  unfold Block.reseedSeeder
  rw [h, hd]
/-- A donor without 384 fresh bits gives none. -/
theorem relaySeed_wait {b : Block} {q : Nat} {d : Fin 4} (h : Tab.get 0 b.rng.blocks d < 3) : b.relaySeed q d = b :=
  if_pos (by rw [Bool.not_eq_true']; exact decide_eq_false (Nat.not_le.mpr h))
/-- A request is served where the seeder serves and a wale waits: an urgent one first. -/
theorem serveSeeds_one (b : Block) (q : Nat) :
    let l : List WaleId := (b.seeder q).queue.filter (fun (w : WaleId) => (b.wale w).drbgWant)
    (b.serves q = false ∨ l = [] → Block.serveSeeds q 1 b = b) ∧
    (∀ v, b.serves q = true →
      (l.find? (fun (w : WaleId) => (b.wale w).drbgUrgent) = some v ∨ (l.find? (fun (w : WaleId) => (b.wale w).drbgUrgent) = none ∧ l.head? = some v)) →
      Block.serveSeeds q 1 b = ((b.modSeeder q (fun z => { z with queue := l.filter (· != v) })).seedDraw q 48).modWale v
        (fun y => { y with drbgWant := false, drbgSent := true })) := by
  intro l
  refine ⟨fun h => ?_, fun v hs hv => ?_⟩
  · by_cases hs : b.serves q = false
    · exact if_pos (congrArg not hs)
    · have hl := h.resolve_left hs
      refine (if_neg (by rwa [Bool.not_eq_true'])).trans ?_
      rw [show (b.seeder q).queue.filter (fun (w : WaleId) => (b.wale w).drbgWant) = [] from hl]
      rfl
  · refine (if_neg (by rw [hs]; decide)).trans ?_
    have hfirst : (l.find? (fun (w : WaleId) => (b.wale w).drbgUrgent)).orElse (fun _ => l.head?) = some v := by
      obtain h | ⟨h0, h⟩ := hv
      · rw [h]
        rfl
      · rw [h0]
        exact h
    rw [hfirst]
    rfl

/-- A seeder whose known-answer test has passed delivers its own noise or its donor's, or waits for a source. -/
theorem modSeeder_instantiated (b : Block) (q : Nat) :
    let noise := b.healthy q != 0 || b.rng.pattern.isSome
    let own := b.healthy q ≠ 0 ∨ b.rng.pattern ≠ none
    b.modSeeder q (fun x => { x with
      seeded := true, withheld := false, ts := b.now, since := 0, lastReseed := b.now, katAt := b.now,
      st := if noise then .seeded else if x.donor.isSome then .relayed else .paused, donor := if noise then none else x.donor }) =
    b.modSeeder q (fun x => { x with
      seeded := true, withheld := false, ts := b.now, since := 0, lastReseed := b.now, katAt := b.now,
      st := if own then .seeded else if x.donor ≠ none then .relayed else .paused, donor := if own then none else x.donor }) := by
  intro noise own
  have h : noise = true ↔ own := by
    unfold noise own
    rw [Bool.or_eq_true, bne_iff_ne, Option.isSome_iff_ne_none]
  simp only [h, Option.isSome_iff_ne_none]

/-- Settles O52: the sources by their state, the seeders by the noise at hand, and a request by the first wale in rank. -/
theorem randomnessEvents : Obligations.RandomnessEvents := by
  refine ⟨fun s i n ok => ?_, fun b i t hp hs => ?_, fun s q w ok => ?_⟩
  · intro b x fine
    refine ⟨fun h => done_to (congrArg Block.checkWake (if_pos h)), fun hst hn => ?_, rfl, fun h => done_to (congrArg Block.checkWake (if_pos h)),
      fun hn hst => done_to (congrArg Block.checkWake ((if_neg (by omega)).trans (if_pos hst))),
      fun hn hst => done_to (congrArg Block.checkWake ((if_neg (by omega)).trans (if_neg (not_not_of hst)))),
      fun h => done_to (congrArg Block.checkWake (if_pos h)), fun hst hq => ?_, fun h => done_to (congrArg Block.checkWake (if_pos h)),
      fun hst hq => done_to (congrArg Block.checkWake (if_neg ?_))⟩
    · have hrun := servoBlock_run hst hn
      refine ⟨fun hr => next_to hrun (congrArg Block.checkWake ((if_neg (Nat.not_le.mpr hr)).trans (modSource_congr (by rw [if_neg (Nat.not_le.mpr hr)])))),
        fun hr => next_to hrun (congrArg Block.checkWake ((if_pos hr).trans (congrArg (Block.sourceFails · i 3) (modSource_congr (by rw [if_pos hr])))))⟩
    · have hgo : ¬ (x.st ≠ .starting ∨ x.quiet < 2) := fun h => h.elim (· hst) (Nat.not_lt.mpr hq)
      have hpass (h : ok = true ∨ b.rng.pattern ≠ none) : ¬ (!ok && b.rng.pattern.isNone) = true := by
        rw [Bool.and_eq_true, Bool.not_eq_true', Option.isNone_iff_eq_none]
        rintro ⟨h0, h1⟩
        exact h.elim (fun h => nomatch h.symm.trans h0) (· h1)
      exact ⟨fun hp => done_to (congrArg Block.checkWake ((if_neg hgo).trans (if_pos (Option.isNone_iff_eq_none.mpr hp)))),
        fun h hm => done_to (congrArg Block.checkWake ((if_neg hgo).trans ((if_neg (hpass h)).trans (if_pos (List.contains_iff_mem.mpr hm))))),
        fun h hm => done_to (congrArg Block.checkWake ((if_neg hgo).trans ((if_neg (hpass h)).trans (if_neg fun k => hm (List.contains_iff_mem.mp k)))))⟩
    · exact fun h => h.elim (· hst) (Nat.not_le.mpr hq)
  · intro b' recent
    have h := sourceFails_healthy (t := t) hp hs
    have hr := failedLately_iff b i
    exact ⟨fun hyes => h.trans (congrArg Block.settleEntropy (if_pos (hr.mpr hyes))),
      fun hno => h.trans (congrArg Block.settleEntropy (if_neg fun hyes => hno (hr.mp hyes)))⟩
  · intro b sd x fine srcs
    have hreq : (!x.drbgSeeded || x.drbgWant || x.drbgSent || !b.delivers (w.val / 16)) = true ↔
        x.drbgSeeded = false ∨ x.drbgWant = true ∨ x.drbgSent = true ∨ b.delivers (w.val / 16) = false := by
      simp only [Bool.or_eq_true, Bool.not_eq_true', or_assoc]
    have hint : (!x.drbgWant && !x.drbgSent || !b.delivers (w.val / 16)) = true ↔
        (x.drbgWant = false ∧ x.drbgSent = false) ∨ b.delivers (w.val / 16) = false := by
      simp only [Bool.or_eq_true, Bool.and_eq_true, Bool.not_eq_true']
    have hkat : (b.flt.fence.has (.seeder q) = true ∨ ((!sd.seeded) = true ∧ (!sd.withheld) = true)) ↔
        b.flt.fence.has (.seeder q) = true ∨ (sd.seeded = false ∧ sd.withheld = false) := by
      rw [Bool.not_eq_true', Bool.not_eq_true']
    refine ⟨fun hp => done_to (congrArg Block.checkWake (if_pos (Option.isSome_iff_ne_none.mpr hp))),
      fun hp hs => done_to (congrArg Block.checkWake ((if_neg (by rw [hp]; decide)).trans (if_pos (List.isEmpty_iff.mpr hs)))),
      fun hp hs => done_to (congrArg Block.checkWake ((if_neg (by rw [hp]; decide)).trans (if_neg fun h => hs (List.isEmpty_iff.mp h)))),
      fun hd => done_same (if_pos (congrArg not hd)), fun hd => ?_, fun hf hsd hh hst => ?_, fun h => done_to (congrArg Block.checkWake (if_pos (hkat.mpr h))),
      fun hf hsd => ?_, fun h => done_same (if_pos (hreq.mpr h)), fun h1 h2 h3 h4 => done_to (if_neg fun h => ?_), fun h => done_same (if_pos (hint.mpr h)),
      fun h hd => done_to (if_neg fun k => ?_), fun h => done_same (if_pos (congrArg not h)), fun h => done_to (if_neg (by rw [h]; decide)),
      fun h => done_same ((serveSeeds_one b q).1 h), fun v hs hv => done_to ((serveSeeds_one b q).2 v hs hv)⟩
    · intro b'
      have hsd : b'.seeder q = sd := by
        unfold b'
        split
        · exact seeder_advanceTo ..
        · rfl
      have hrun : exec (.seederReseed q) s = .next (s.to (b'.reseedSeeder q)) := done_to (if_neg (by rw [hd]; decide))
      rw [← hsd]
      exact ⟨fun h hlt => next_to hrun ((reseedSeeder_own h).trans (if_neg (Nat.not_le.mpr hlt))),
        fun h hle => next_to hrun ((reseedSeeder_own h).trans (if_pos hle)),
        fun d h hdon => ⟨fun hlt => next_to hrun ((reseedSeeder_relayed h hdon).trans (relaySeed_wait hlt)),
          fun _ => next_to hrun (reseedSeeder_relayed h hdon)⟩⟩
    · refine (if_pos ⟨hh, by rw [hf]; rfl⟩).trans ((if_neg ?_).trans (if_pos hst))
      rw [show (b.seeder q).seeded = true from hsd]
      decide
    · intro c b'
      have hgo : ¬ (b.flt.fence.has (.seeder q) = true ∨ ((!sd.seeded) = true ∧ (!sd.withheld) = true)) := by
        rw [hkat, hf]
        rintro (h | ⟨h0, h1⟩)
        · exact nomatch h
        · exact hsd.elim (fun h => nomatch h.symm.trans h0) fun h => nomatch h.symm.trans h1
      refine ⟨done_to (congrArg Block.checkWake ((if_neg hgo).trans (if_pos rfl))),
        fun h => done_to (congrArg Block.checkWake ((if_neg hgo).trans ((if_neg (by decide)).trans (if_pos h)))), fun h => ?_⟩
      intro own
      exact done_to (congrArg Block.checkWake ((if_neg hgo).trans ((if_neg (by decide)).trans ((if_neg (by rw [h]; decide)).trans
        (congrArg (fun b => b.settleEntropy.rootIfDue) (modSeeder_instantiated b' q))))))
    · obtain h | h | h | h := hreq.mp h
      · exact nomatch h1.symm.trans h
      · exact nomatch h.symm.trans h2
      · exact nomatch h.symm.trans h3
      · exact nomatch h4.symm.trans h
    · obtain ⟨k1, k2⟩ | k := hint.mp k
      · exact h.elim (fun h => nomatch h.symm.trans k1) fun h => nomatch h.symm.trans k2
      · exact nomatch hd.symm.trans k

end Sys2Proof.Machine

/-! SUPPORT. The tamper and battery events (chapter 12). -/
namespace Sys2Proof.Machine

/-! ### Alarms -/

/-- A source whose condition is present raises its alarm where the domain is watched and it was in none (R286, log 152). -/
theorem alarmOn_active {b : Block} {t : TamperId} {d : W32} (hw : b.watching = true) (h : b.tam.active.getLsbD t = true) : b.alarmOn t d = b :=
  (if_pos hw).trans (if_pos h)
theorem alarmOn_idle {b : Block} {t : TamperId} {d : W32} (hw : b.watching = true) (h : b.tam.active.getLsbD t = false) : b.alarmOn t d = b.tamperAlarm t d :=
  (if_pos hw).trans (if_neg (by rw [h]; decide))
theorem alarmOn_unwatched {b : Block} {t : TamperId} {d : W32} (hw : b.watching = false) : b.alarmOn t d = b.batteryAlarm t d :=
  if_neg (by rw [hw]; decide)
/-- A sample of a loop or switch: F + 1 abnormal ones in a row raise its source. -/
theorem sampled_few {b : Block} {t : TamperId} {n c k : Nat} (hc : c ≠ 0) (h : n ≤ b.filterOf t) : b.sampled t n c k = b :=
  (if_neg hc).trans (if_neg (Nat.not_lt.mpr h))
theorem sampled_enough {b : Block} {t : TamperId} {n c k : Nat} (hc : c ≠ 0) (h : b.filterOf t < n) :
    b.sampled t n c k = b.alarmOn t (BitVec.ofNat 32 (c + 16 * k)) :=
  (if_neg hc).trans (if_pos h)

/-! ### The Lid -/

/-- The first pair of which a test holds. -/
theorem find?_pairs_none {f : Fin 96 → Bool} {P : Fin 96 → Prop} (hf : ∀ k, f k = true ↔ P k) (h : ∀ k, ¬ P k) : (List.finRange 96).find? f = none :=
  List.find?_eq_none.mpr fun k _ hk => h k ((hf k).mp hk)
theorem find?_pairs_some {f : Fin 96 → Bool} {P : Fin 96 → Prop} {k : Fin 96} (hf : ∀ k, f k = true ↔ P k) (h : P k) (hlow : ∀ n < k, ¬ P n) :
    (List.finRange 96).find? f = some k := by
  refine List.find?_eq_some_iff_getElem.mpr ⟨(hf k).mpr h, k.val, by simp, by simp, fun n hn => ?_⟩
  rw [List.getElem_finRange, Bool.not_eq_true']
  exact Bool.eq_false_iff.mpr fun hk => hlow _ hn ((hf _).mp hk)

/-- A reading that strays by more than 8 %. -/
theorem strays_iff (x r : Nat) : strays x r = true ↔ 100 * (x - r) > 8 * r ∨ 100 * (r - x) > 8 * r := by
  unfold strays
  rw [Bool.or_eq_true, decide_eq_true_iff, decide_eq_true_iff]
/-- The latest reading of a pair is in the table. -/
theorem has_put {α : Type} (t : Tab α) (i : Nat) (x : α) : Tab.has (Tab.put t i x) i = true := by
  induction t with
  | nil => simp [Tab.put, Tab.has]
  | cons p r ih =>
    obtain ⟨k, v⟩ := p
    unfold Tab.put
    split
    · simp [Tab.has]
    · split
      · simp [Tab.has]
      · unfold Tab.has at ih ⊢
        rw [List.any_cons, ih, Bool.or_true]
/-- A pair at the Tj of its capture strays where its reading lies more than 8 % off its reference (R292). -/
theorem pairStrays_of {b : Block} {p : Nat} {x z : Nat} {r : Nat × Nat} (hr : Tab.has b.tam.lidRefs p = true) (hn : Tab.has b.tam.lidNow p = true)
    (hx : Tab.get (0, 0) b.tam.lidNow p = (x, z)) (hg : Tab.get (0, 0) b.tam.lidRefs p = r) (ht : Tjs.hottest b.pwr.tj = b.tam.lidTj)
    (h : 100 * (x - r.1) > 8 * r.1 ∨ 100 * (r.1 - x) > 8 * r.1 ∨ 100 * (z - r.2) > 8 * r.2 ∨ 100 * (r.2 - z) > 8 * r.2) : b.pairStrays p = true := by
  have href : b.lidRef p = r := (if_pos ht).trans hg
  unfold Block.pairStrays
  rw [hr, hn, hx, href]
  dsimp only
  rw [Bool.true_and, Bool.true_and, Bool.or_eq_true, strays_iff, strays_iff]
  exact or_assoc.mpr h

/-! ### Loops, switches and sensors -/

/-- A loop without a foreign code: the rows of Table 12.4 in order. -/
theorem loopResult_own {f g : LoopDrive} (hf : f.foreign = none) (hg : g.foreign = none) :
    loopResult f g = if f.low = true ∨ g.low = true then (2, 0)
      else if f.high = true ∨ g.high = true then (3, 0)
      else if f.ohms < 1000 ∧ g.ohms < 1000 then (6, 0)
      else if f.nA = 0 ∧ g.nA = 0 then (1, 0)
      else if f.inWindow = true ∧ g.nA < 2000 then (0, 0)
      else if f.nA < 2000 ∧ g.inWindow = true then (5, 0)
      else (([1, 2, 3, 5, 6][Config.freeNat 82 (f.nA + 2 ^ 32 * g.nA) % 5]?).getD 1, 0) := by
  unfold loopResult
  rw [hf, hg]
  exact if_congr (Bool.or_eq_true ..).to_iff rfl (if_congr (Bool.or_eq_true ..).to_iff rfl rfl)
/-- One with a foreign code names the loop it comes from. -/
theorem loopResult_foreign {f g : LoopDrive} {o : Fin 4} (h : f.foreign = some o ∨ (f.foreign = none ∧ g.foreign = some o)) : loopResult f g = (4, o.val) := by
  unfold loopResult
  obtain h | ⟨hf, hg⟩ := h
  · rw [h]
    rfl
  · rw [hf, hg]
    rfl
/-- A switch's resistance is one of the two rows' within 5 %. -/
theorem within5_iff (r n : Nat) : within5 r n = true ↔ 95 * r ≤ 100 * n ∧ 100 * n ≤ 105 * r := by
  unfold within5
  rw [Bool.and_eq_true, decide_eq_true_iff, decide_eq_true_iff]
/-- Table 12.5. -/
theorem switchResult_ohms (closed : Bool) (n : Nat) :
    (n < 1000 → switchResult closed (.ohms n) = 3) ∧ (50000 < n → switchResult closed (.ohms n) = 2) ∧
    (4465 ≤ n → n ≤ 4935 → switchResult closed (.ohms n) = if closed then 0 else 1) ∧
    (8930 ≤ n → n ≤ 9870 → switchResult closed (.ohms n) = if closed then 1 else 0) := by
  refine ⟨fun h => if_pos h, fun h => (if_neg (by omega)).trans (if_pos h), fun h1 h2 => ?_, fun h1 h2 => ?_⟩
  · exact (if_neg (by omega)).trans ((if_neg (by omega)).trans (if_pos ((within5_iff ..).mpr (by omega))))
  · refine (if_neg (by omega)).trans ((if_neg (by omega)).trans ((if_neg fun h => ?_).trans (if_pos ((within5_iff ..).mpr (by omega)))))
    have hlow := (within5_iff 4700 n).mp h
    omega
/-- T2, T5, T7 and T8 are disarmed while PWR_OK is low and while VDD_AON has fallen. -/
theorem disarmed_iff (b : Block) (t : TamperId) :
    b.disarmed t = true ↔ (b.tam.disarmed = true ∨ b.tam.falling = true) ∧ t ∈ ([2, 5, 7, 8] : List TamperId) := by
  unfold Block.disarmed
  rw [Bool.and_eq_true, Bool.or_eq_true]
  refine and_congr Iff.rfl ?_
  simp only [Bool.or_eq_true, beq_iff_eq, List.mem_cons, List.not_mem_nil, or_false, Fin.ext_iff, or_assoc]
  rfl

/-! ### Alarms on battery -/

/-- A response on battery destroys where it does on main power. -/
theorem onCell_code_lt (b : Block) (r : Resp) : (b.onCell r).code < 3 ↔ (b.actual r).code < 3 := by
  unfold Block.onCell
  split
  · next h =>
    rw [h]
    decide
  · rfl
theorem combine_length (act : Resp → Resp) (l : Option Resp) (n : W32) (es : List Event) : (combine act l n es).length = es.length := by
  induction es generalizing l n with
  | nil => rfl
  | cons e r ih => exact congrArg (· + 1) (ih ..)
theorem insertEvent_ne_nil (e : Event) (l : List Event) : insertEvent e l ≠ [] := by
  cases l with
  | nil => exact List.cons_ne_nil _ _
  | cons x r =>
    unfold insertEvent
    split <;> exact List.cons_ne_nil _ _
/-- A log with a record more holds one. -/
theorem enterEvent_ne_nil (act : Resp → Resp) (before : Option Resp) (batch : Nat) (seq : W32) (e : Event) (log : List Event) :
    enterEvent act before batch seq e log ≠ [] := by
  intro h
  obtain ⟨hnew, -⟩ := List.append_eq_nil_iff.mp h
  have hlen := combine_length act before (seq - BitVec.ofNat 32 batch) (insertEvent e (log.take batch).reverse)
  rw [List.reverse_eq_nil_iff.mp hnew] at hlen
  exact insertEvent_ne_nil _ _ (List.eq_nil_of_length_eq_zero hlen.symm)
/-- A bit set beside those that are. -/
theorem getLsbD_setBit_true {n : Nat} (v : BitVec n) (i : Fin n) (k : Nat) : (setBit v i true).getLsbD k = (v.getLsbD k || k == i.val) := by
  have hbit : (1#n <<< i.val).getLsbD k = (k == i.val) := by
    simp only [BitVec.getLsbD_shiftLeft, BitVec.getLsbD_one]
    grind
  exact (BitVec.getLsbD_or ..).trans (congrArg _ hbit)

/-- How many records of the newest time stamp the battery log holds, where that is now, and the response in force before them. -/
def Block.cellBatch (b : Block) : Nat × Option Resp :=
  if decide (0 < b.bat.batch) && b.bat.log.head?.any (fun e => e.rtc == b.bat.rtc) then (b.bat.batch, b.bat.before) else (0, b.bat.level)
/-- The battery domain with an alarm in its log and its flags (R298, R304). -/
def Block.cellLogged (b : Block) (t : TamperId) (d : W32) : Block :=
  { b with
    bat := { b.bat with
      seq := b.bat.seq + 1, sticky := setBit b.bat.sticky t true, battEvent := true,
      level := some (Resp.after b.bat.level (b.onCell (b.respOf t))), batch := b.cellBatch.1 + 1, before := b.cellBatch.2,
      log := (enterEvent b.onCell b.cellBatch.2 b.cellBatch.1 b.bat.seq ⟨0, b.bat.rtc, Src.tamper t, b.respOf t, b.onCell (b.respOf t), d, 0, 1⟩ b.bat.log).take 16,
      logOver := b.bat.logOver || decide (16 ≤ b.bat.log.length) },
    tam := { b.tam with active := setBit b.tam.active t true, details := Tab.put b.tam.details t d } }
/-- Root key and counters erased on battery, with an OTP step pending where a root key was present (R290, R303). -/
def Block.cellErased (b : Block) : Block :=
  { b with bat := { b.bat with
    rootKey := none, zeroised := true, zeroPin := b.bat.zeroPin || b.bat.rootKey.isSome, counters := b.bat.counters.filter (fun e => decide (e.1 < 64)),
    owners := [], evicted := [], otpPending := b.bat.otpPending + (if b.bat.rootKey.isSome then 1 else 0) } }.dropCarried
/-- A source whose condition is not watched on battery, is fused or is in alarm raises nothing. -/
theorem batteryAlarm_quiet {b : Block} {t : TamperId} {d : W32}
    (h : b.bat.onVbat = false ∨ onBattery t = false ∨ b.otp.fused.getLsbD t = true ∨ b.tam.active.getLsbD t = true) : b.batteryAlarm t d = b := by
  refine if_pos ?_
  simp only [Bool.or_eq_true, Bool.not_eq_true', or_assoc]
  exact h
/-- Any other is logged, and erases where its response says so. -/
theorem batteryAlarm_raised {b : Block} {t : TamperId} {d : W32} (hv : b.bat.onVbat = true) (ho : onBattery t = true) (hf : b.otp.fused.getLsbD t = false)
    (ha : b.tam.active.getLsbD t = false) :
    b.batteryAlarm t d = if (b.actual (b.respOf t)).code < 3 then b.cellLogged t d else (b.cellLogged t d).cellErased := by
  have hgo : ¬ (!b.bat.onVbat || !onBattery t || b.otp.fused.getLsbD t || b.tam.active.getLsbD t) = true := by
    rw [hv, ho, hf, ha]
    decide
  refine (if_neg hgo).trans ((if_congr (onCell_code_lt ..) ?_ ?_))
  · unfold Block.cellLogged Block.cellBatch
    split <;> rfl
  · unfold Block.cellLogged Block.cellBatch
    split <;> rfl

/-- The battery log behind an alarm. -/
theorem cellLogged_log (b : Block) (t : TamperId) (d : W32) :
    (b.cellLogged t d).bat.log.length ≤ 16 ∧ (b.cellLogged t d).bat.log ≠ [] ∧
    (b.bat.batch = 0 ∨ (∀ e ∈ b.bat.log.head?, e.rtc ≠ b.bat.rtc) → ∀ e ∈ (b.cellLogged t d).bat.log.head?, e.ts = 0 ∧ e.rtc = b.bat.rtc ∧ e.detail = d ∧
      e.source = Src.tamper t ∧ e.conf = b.respOf t ∧ e.eff = Resp.after b.bat.level (b.onCell (b.respOf t))) := by
  refine ⟨List.length_take_le .., fun h => ?_, fun halone e he => ?_⟩
  · obtain h | h := List.take_eq_nil_iff.mp h
    · exact nomatch h
    · exact enterEvent_ne_nil _ _ _ _ _ _ h
  · have hbatch : b.cellBatch = (0, b.bat.level) := by
      refine if_neg fun h => ?_
      rw [Bool.and_eq_true, decide_eq_true_iff, Option.any_eq_true] at h
      obtain ⟨hpos, x, hx, hr⟩ := h
      obtain h0 | hne := halone
      · omega
      · exact hne x hx (beq_iff_eq.mp hr)
    unfold Block.cellLogged at he
    rw [hbatch] at he
    obtain rfl := Option.some.inj he
    exact ⟨rfl, rfl, rfl, rfl, rfl, rfl⟩

/-- The job of an output cut off behind the zeroise line: it ends without output, and what it held is wiped (R289). -/
def Block.cutOutput (b : Block) (x : Xfer) : Block :=
  match b.job x.job with
  | some j => ((Block.wipeAll j.wales b).modQuad j.quad (fun z => z.dropJob j)).modJob j.id (fun j => { j with
      result := { status := St.aborted, detail := 5 }, ended := true, wales := [], pages := [], phase := .waiting, needDdr := false, needOut := false })
  | none => b
theorem cutOutput_none {b : Block} {x : Xfer} (h : b.job x.job = none) : b.cutOutput x = b := by
  unfold Block.cutOutput
  rw [h]
theorem cutOutput_some {b : Block} {x : Xfer} {j : Job} (h : b.job x.job = some j) :
    b.cutOutput x = ((Block.wipeAll j.wales b).modQuad j.quad (fun z => z.dropJob j)).modJob j.id (fun j => { j with
      result := { status := St.aborted, detail := 5 }, ended := true, wales := [], pages := [], phase := .waiting, needDdr := false, needOut := false }) := by
  unfold Block.cutOutput
  rw [h]

/-- Settles O53: each source by its conditions, and an alarm on battery by its log and what it erases. -/
theorem tamperAndBatteryEvents : Obligations.TamperAndBatteryEvents := by
  intro s t d p c b ended
  refine ⟨fun hf => ⟨if_pos hf, done_same (batteryAlarm_quiet (.inr (.inr (.inl hf))))⟩, fun ha => done_same (batteryAlarm_quiet (.inr (.inr (.inr ha)))),
    ⟨alarmOn_active, alarmOn_idle, alarmOn_unwatched⟩, fun v => ⟨rfl, rfl, bne_self_eq_false v, by cases v <;> rfl⟩,
    fun pairs => ⟨fun hw => done_same (if_pos (congrArg not hw)), fun hw => ?_⟩, fun x z hw => done_same (if_pos (congrArg not hw)),
    fun x z r hw ha hr hg ht hoff => ?_, fun x z hw => ?_, fun i fwd rev => ?_, fun f g => ?_, fun i seen => ?_,
    fun closed n => ⟨rfl, switchResult_ohms closed n⟩, fun ht => ⟨fun x => done_same (if_pos ht), done_same (if_pos ht)⟩, fun h2 h8 => ?_,
    fun v n r p c l => ?_, fun r u hw => done_same (if_pos (congrArg not hw)), fun r u hw hno => ?_, fun r u hw hok => ?_,
    fun h => done_same ?_, fun u h => done_to ?_, fun h => done_same ?_, fun u x hl hx => ?_, fun h => done_same (if_pos (congrArg not h)), fun u hz hl => done_to ?_,
    fun h ok => done_same (if_pos ?_), fun h1 h2 => ?_, fun h => done_same (batteryAlarm_quiet (h.imp_right .inl)), fun hv ho hf ha => ?_,
    fun h => ⟨done_to (if_pos h), done_to (if_neg (by rw [h]; decide)), done_same (if_pos h)⟩,
    fun h => ⟨done_same (if_neg (by rw [h]; decide)), done_same (if_pos (congrArg not h)), done_to (if_neg (by rw [h]; decide))⟩, rfl⟩
  · intro drive bad b'
    have hgo : ¬ (!b.watched) = true := by
      rw [hw]
      decide
    have hbad (k : Fin 96) : pairs.any (fun x => x.pair == k && (LidLine.wrong (drive k) x.line || LidLine.wrong (!drive k) x.partner)) = true ↔ bad k := by
      simp only [List.any_eq_true, Bool.and_eq_true, beq_iff_eq, Bool.or_eq_true, bad]
    refine ⟨fun h => done_to ((if_neg hgo).trans ?_), fun k hk hlow => done_to ((if_neg hgo).trans ?_)⟩
    · dsimp only
      rw [find?_pairs_none hbad h]
      rfl
    · dsimp only
      rw [find?_pairs_some hbad hk hlow]
  · let b' : Block := { b with tam := { b.tam with lidNow := Tab.put b.tam.lidNow p (x, z) } }
    have hs : b'.pairStrays p = true := pairStrays_of (b := b') hr (has_put ..) ((Tab.get_put ..).trans (if_pos rfl)) hg ht hoff
    exact done_to ((if_neg (by rw [hw]; decide)).trans ((if_pos hs).trans (alarmOn_active (b := b') (t := 1) hw ha)))
  · have hgo : ¬ (!b.watching) = true := by
      rw [hw]
      decide
    exact ⟨fun hs ha => done_to ((if_neg hgo).trans ((if_pos hs).trans (alarmOn_idle hw ha))),
      fun hs hk => done_to ((if_neg hgo).trans ((if_neg (Bool.eq_false_iff.mp hs)).trans
        (if_pos (List.any_eq_true.mpr (hk.imp fun k h => ⟨List.mem_range.mpr h.1, h.2⟩))))),
      fun h => done_to ((if_neg hgo).trans ((if_neg (Bool.eq_false_iff.mp (h p p.isLt))).trans
        (if_neg (Bool.eq_false_iff.mp (List.any_eq_false.mpr fun k hk => Bool.eq_false_iff.mp (h k (List.mem_range.mp hk)))))))⟩
  · intro r b'
    have hrun (hw : b.watched = true) : exec (.loopSample i fwd rev) s =
        done ((b' (if r.1 = 0 then 0 else b.tam.loopRun[i] + 1)).sampled ⟨9 + i.val, by omega⟩ (if r.1 = 0 then 0 else b.tam.loopRun[i] + 1) r.1 r.2) s :=
      congrArg (done · s) (if_neg (by rw [hw]; decide))
    refine ⟨fun hw => done_same (if_pos (congrArg not hw)), fun hw h => (hrun hw).trans (done_to ?_), fun hw h hf => (hrun hw).trans (done_to ?_),
      fun hw h hf => (hrun hw).trans (done_to ?_)⟩
    · rw [h]
      rfl
    · rw [if_neg h]
      exact sampled_few h hf
    · rw [if_neg h]
      exact sampled_enough h hf
  · refine ⟨fun o => loopResult_foreign, fun hf hg => ?_⟩
    rw [loopResult_own hf hg]
    refine ⟨fun h => if_pos h, fun h1 h2 => ?_⟩
    rw [if_neg (by rw [h1, h2]; decide)]
    refine ⟨fun h => if_pos h, fun h1 h2 => ?_⟩
    rw [if_neg (by rw [h1, h2]; decide)]
    refine ⟨fun h1 h2 => if_pos ⟨h1, h2⟩, fun h => ?_⟩
    rw [if_neg (by omega)]
    refine ⟨fun h1 h2 => if_pos ⟨h1, h2⟩, fun h => ?_⟩
    rw [if_neg (by omega)]
    have hwin (x : LoopDrive) (P : Prop) (h : x.inWindow = false ∨ P) : x.inWindow = true → P := fun hx => h.resolve_left (by rw [hx]; decide)
    refine ⟨fun h1 h2 => if_pos ⟨h1, h2⟩, fun h1 h2 h3 => ?_, fun h1 h2 => ?_⟩
    · exact (if_neg fun h => Nat.not_le.mpr h.2 (hwin f _ h3 h.1)).trans (if_pos ⟨h1, h2⟩)
    · rw [if_neg fun h => Nat.not_le.mpr h.2 (hwin f _ h1 h.1), if_neg fun h => Nat.not_le.mpr h.1 (hwin g _ h2.symm h.2)]
      have hcode : ∀ m < 5, (([1, 2, 3, 5, 6] : List Nat)[m]?).getD 1 ≠ 0 := by decide
      exact hcode _ (Nat.mod_lt _ (by decide))
  · intro k b'
    have hrun (hw : b.watched = true) : exec (.switchSample i seen) s =
        done ((b' (if k = 0 then 0 else b.tam.switchRun[i] + 1)).sampled ⟨13 + i.val, by omega⟩ (if k = 0 then 0 else b.tam.switchRun[i] + 1) k 0) s :=
      congrArg (done · s) (if_neg (by rw [hw]; decide))
    refine ⟨fun hw => done_same (if_pos (congrArg not hw)), fun hw h => (hrun hw).trans (done_to ?_), fun hw h hf => (hrun hw).trans (done_to ?_),
      fun hw h hf => (hrun hw).trans (done_to ?_)⟩
    · rw [h]
      rfl
    · rw [if_neg h]
      exact sampled_few h hf
    · rw [if_neg h]
      exact sampled_enough h hf
  · have hgo : ¬ (t.val < 2 ∨ 8 < t.val) := by omega
    refine ⟨done_to (if_neg hgo), fun x => ?_⟩
    intro b' off
    have hoff : (b'.disarmed t = true ∨ outside t x = false) ↔ off ∨ outside t x = false := or_congr (disarmed_iff b' t) Iff.rfl
    refine ⟨fun h => done_to ((if_neg hgo).trans (if_pos (hoff.mpr h))), fun h1 h2 => done_to ((if_neg hgo).trans (if_neg fun h => ?_))⟩
    obtain h | h := hoff.mp h
    · exact h1 h
    · exact nomatch h.symm.trans h2
  · refine ⟨?_, ?_, ?_, ?_, ?_, ?_, ?_⟩
    all_goals simp [outside, or_assoc, and_assoc]
  · exact done_to ((if_neg (by rw [hw]; decide)).trans (if_pos (congrArg not hno)))
  · have hgo : ¬ (!b.watching) = true := by
      rw [hw]
      decide
    have hagrees : ¬ (!(b.upsetShadow r u).shadowOk r) = true := by
      rw [hok]
      decide
    refine ⟨fun h => done_to ((if_neg hgo).trans ((if_neg hagrees).trans (if_pos (List.all_eq_true.mpr h)))),
      fun h => done_to ((if_neg hgo).trans ((if_neg hagrees).trans (if_neg fun hall => ?_)))⟩
    obtain ⟨k, hk, h⟩ := h
    exact nomatch h.symm.trans (List.all_eq_true.mp hall k hk)
  · rw [show s.toBlock.tam.haltAt = none from h]
  · rw [show s.toBlock.tam.haltAt = some u from h]
  · obtain h | h := h
    · rw [show s.toBlock.tam.lineAt = none from h]
    · rw [show (s.toBlock.chan c).xfer = none from h]
      cases s.toBlock.tam.lineAt <;> rfl
  · intro b' cut
    have hrun (n : Block) (h : (if !x.write then b else (b'.cutOutput x).closeXfer c { x with pieces := [], asked := [] }) = n) :
        exec (.zeroiseOutputTimeout c) s = done n s := by
      refine congrArg (done · s) (Eq.trans ?_ h)
      rw [show s.toBlock.tam.lineAt = some u from hl, show (s.toBlock.chan c).xfer = some x from hx]
      rfl
    refine ⟨fun h => hrun _ (if_pos (congrArg not h)), fun h => ⟨fun hj => hrun _ ((if_neg (by rw [h]; decide)).trans ?_),
      fun j hj => hrun _ ((if_neg (by rw [h]; decide)).trans ?_)⟩⟩
    · rw [cutOutput_none hj]
    · rw [cutOutput_some hj]
  · refine (if_neg (by rw [hz]; decide)).trans ?_
    dsimp only
    rw [show s.toBlock.tam.lineAt = some u from hl]
  · exact h.imp_right (congrArg not)
  · have hgo : ¬ (b.otp.stepDue = 0 ∨ (!b.boot.aonUp) = true) := by
      rw [h2]
      rintro (h | h)
      · exact h1 h
      · exact nomatch h
    exact ⟨done_to ((if_neg hgo).trans (if_pos rfl)), fun h => done_to ((if_neg hgo).trans ((if_neg (by decide)).trans (if_pos h))),
      fun h => done_to ((if_neg hgo).trans ((if_neg (by decide)).trans (if_neg (Nat.not_lt.mpr h))))⟩
  · obtain ⟨hlen, hne, hhead⟩ := cellLogged_log b t d
    have hrun := batteryAlarm_raised (d := d) hv ho hf ha
    have hdet : Tab.get 0 (b.cellLogged t d).tam.details t = d := (Tab.get_put ..).trans (if_pos rfl)
    by_cases hc : (b.actual (b.respOf t)).code < 3
    · have hnot : ¬ 3 ≤ (b.actual (b.respOf t)).code := Nat.not_le.mpr hc
      exact ⟨b.cellLogged t d, done_to (hrun.trans (if_pos hc)), rfl, hlen, hhead, hne, fun _ => ⟨rfl, rfl, rfl⟩, fun h => absurd h hnot,
        getLsbD_setBit_true b.tam.active t, hdet, (if_neg hnot).symm⟩
    · have hdestroys : 3 ≤ (b.actual (b.respOf t)).code := Nat.not_lt.mp hc
      exact ⟨(b.cellLogged t d).cellErased, done_to (hrun.trans (if_neg hc)), rfl, hlen, hhead, hne, fun h => absurd h hc,
        fun _ => ⟨rfl, rfl, fun e he => of_decide_eq_true (List.mem_filter.mp he).2, rfl⟩, getLsbD_setBit_true b.tam.active t, hdet, (if_pos hdestroys).symm⟩

end Sys2Proof.Machine

/-! SUPPORT. Starts, resets, the firmware watch and JTAG (chapter 16). -/
namespace Sys2Proof.Machine

/-! ### A full device reset and what goes before a start -/

/-- A device that is sealed, held or without power takes no full reset. -/
theorem fullReset_none {b : Block} (f : BootFacts) (k : Bool)
    (h : b.boot.aonUp = false ∨ b.boot.pwrOk = false ∨ b.flt.sealed = true ∨ b.boot.jtagHeld = true) : b.fullReset f k = b := by
  refine if_pos ?_
  simp only [Bool.or_eq_true, Bool.not_eq_true', or_assoc]
  exact h
/-- Any other is reset and started behind the steps that go before. -/
theorem fullReset_run {b : Block} (f : BootFacts) (k : Bool) (h1 : b.boot.aonUp = true) (h2 : b.boot.pwrOk = true) (h3 : b.flt.sealed = false)
    (h4 : b.boot.jtagHeld = false) (h5 : (b.beforeReset k).flt.sealed = false) :
    b.fullReset f k = ((b.beforeReset k).coreReset.checkRoot f).startCore f false :=
  (if_neg (by rw [h1, h2, h3, h4]; decide)).trans (if_neg (Bool.eq_false_iff.mp h5))
/-- A valid root key, or one whose loss is accounted for, counts no step. -/
theorem checkRoot_same {b : Block} {f : BootFacts} (hf : f.rootValid = true)
    (h : b.bat.rootKey ≠ none ∨ b.bat.zeroised = true ∨ b.bat.otpPending ≠ 0 ∨ (b.otp.lifecycle ≠ .provisioned ∧ b.otp.lifecycle ≠ .deployed)) :
    b.checkRoot f = b := by
  unfold Block.checkRoot
  rw [if_pos hf]
  refine if_neg fun hstep => ?_
  simp only [Bool.and_eq_true, Bool.or_eq_true, Option.isNone_iff_eq_none, Bool.not_eq_true', beq_iff_eq] at hstep
  obtain ⟨⟨⟨hk, hz⟩, hp⟩, hl⟩ := hstep
  obtain h | h | h | ⟨h1, h2⟩ := h
  · exact h hk
  · exact nomatch hz.symm.trans h
  · exact h hp
  · exact hl.elim h1 h2
/-- A boot record that holds what is written to it is as it was. -/
theorem boot_eta {b : Block} {z : Boot} (h : z = b.boot) : { b with boot := z } = b := h ▸ rfl
/-- Time that passes leaves the boot record. -/
theorem boot_advanceTo (b : Block) (t : W64) (d : Nat) : (b.advanceTo t d).boot = b.boot := by
  unfold Block.advanceTo
  split <;> rfl
/-! ### FLR -/

/-- Settling a seeder changes the entropy units alone. -/
theorem sameButRng_settleSeeder (b : Block) (q : Nat) : SameButRng b (b.settleSeeder q) := by
  unfold Block.settleSeeder
  dsimp only
  have hst : SameButRng b (if b.seederState q = (b.seeder q).st then b else b.modSeeder q (fun x => { x with st := b.seederState q, ts := b.now, donor := none })) := by
    split <;> rfl
  split
  · exact hst
  · split
    · exact hst
    · split
      · exact hst.trans (sameButRng_relaySeed ..)
      · exact hst
/-- No job waits for entropy where there is none. -/
theorem flushEntropy_noJobs {b : Block} (h : b.jobs = []) : b.flushEntropy = b := by
  have hnone (p : Job → Bool) : b.jobsWhere p = [] := by
    unfold Block.jobsWhere
    rw [h]
    rfl
  have hfail (st : W16) (d : W32) : Block.failJobs [] st d b = b := rfl
  unfold Block.flushEntropy
  simp only [hnone, hfail, ite_self]
/-- The entropy units alone change when they settle or follow their enable bits, where no job is left to fail. -/
theorem sameButRng_settleEntropy {b : Block} (h : b.jobs = []) : SameButRng b b.settleEntropy := by
  have hset : SameButRng b ([0, 1, 2, 3, 0, 1, 2, 3].foldl Block.settleSeeder b) := .foldl sameButRng_settleSeeder _ b
  unfold Block.settleEntropy
  rwa [flushEntropy_noJobs (hset.jobs.trans h)]
theorem sameButRng_followEnables {b : Block} (h : b.jobs = []) : SameButRng b b.followEnables := by
  unfold Block.followEnables
  generalize hl : List.foldl _ b (List.range 8) = c
  have hc : SameButRng b c := by
    rw [← hl]
    refine .foldl (fun b i => ?_) _ b
    dsimp only
    (repeat' split) <;> rfl
  exact hc.trans (sameButRng_settleEntropy (hc.jobs.trans h))
/-- Waking a wale changes the wales and the quadrants alone. -/
theorem wakeSome_eq (p : Wale → Bool) (q n : Nat) (b : Block) : ∃ ws qs, Block.wakeSome p q n b = { b with wales := ws, quads := qs } := by
  induction n generalizing b with
  | zero => exact ⟨_, _, rfl⟩
  | succ n ih =>
    unfold Block.wakeSome
    dsimp only
    split
    · next i _ =>
      obtain ⟨ws, qs, h⟩ := ih (b.wake i)
      exact ⟨ws, qs, h⟩
    · exact ⟨_, _, rfl⟩
/-- So does keeping the pools. -/
theorem refill_eq (b : Block) : ∃ ws qs, b.refill = { b with wales := ws, quads := qs } := by
  unfold Block.refill
  split
  · exact ⟨_, _, rfl⟩
  · refine List.foldlRecOn (motive := fun c : Block => ∃ ws qs, c = { b with wales := ws, quads := qs }) _ _ ⟨_, _, rfl⟩ fun c hc q _ => ?_
    obtain ⟨ws, qs, rfl⟩ := hc
    dsimp only
    split
    · obtain ⟨w1, q1, h1⟩ := wakeSome_eq (fun w => w.drbgSeeded) q (Block.seededDemand { b with wales := ws, quads := qs } q) { b with wales := ws, quads := qs }
      rw [h1]
      obtain ⟨w2, q2, h2⟩ := wakeSome_eq (fun _ => true) q
        (min 16 (max (Block.poolOf { b with wales := w1, quads := q1 } q) (Block.demand { b with wales := w1, quads := q1 } q)) -
          Block.warmCount { b with wales := w1, quads := q1 } q) { b with wales := w1, quads := q1 }
      exact ⟨w2, q2, h2⟩
    · exact ⟨_, _, rfl⟩
/-- An event's message leaves the masks of MSI-X and the time of an FLR. -/
theorem event_host (b : Block) (i : Nat) : (b.event i).host.flrAt = b.host.flrAt ∧ (b.event i).host.msixOpen = b.host.msixOpen := by
  unfold Block.event
  dsimp only
  split
  · unfold Block.msix
    split <;> exact ⟨rfl, rfl⟩
  · exact ⟨rfl, rfl⟩
/-- An FLR leaves no slice ACTIVE and no TDI locked. -/
theorem afterFlr_spec (now : W64) (x : Slice) : (x.afterFlr now).st ≠ .active ∧ (x.afterFlr now).tdi = .unlocked := by
  refine ⟨?_, rfl⟩
  change (if x.flrMoves then SliceSt.quiesced else x.st) ≠ .active
  unfold Slice.flrMoves
  cases x.st <;> decide

/-- What an FLR has made of a machine: no job, an empty admin mailbox, the registers of the function at their reset values, no key that expires, and
every slice at rest. -/
def FlrDone (b : Block) : Prop :=
  b.jobs = [] ∧ b.admin = {} ∧ b.host.flrAt ≠ none ∧ b.host.msixOpen = [] ∧ (∀ k ∈ b.kst.keys, k.2.expire = true → k.2.tombstone = true) ∧
    ∀ x ∈ b.slices, x.2.st ≠ .active ∧ x.2.tdi = .unlocked
/-- What an FLR resets of the function: its registers, the keys that expire and the slices' rings. -/
def Block.resetFunction (b : Block) : Block :=
  { b with
    slices := b.slices.map (fun (p : Nat × Slice) => (p.1, p.2.afterFlr b.now)), nowHi := 0, admin := {},
    kst := { b.kst with keys := expireKeys b.kst.keys }, flt := { b.flt with cnt := [], gen := 0 },
    host := { doe := b.host.doe, mctp := b.host.mctp, ide := b.host.ide, perst := b.host.perst, flrAt := some b.now } }
theorem flrDone_resetFunction {b : Block} (hj : b.jobs = []) : FlrDone b.resetFunction := by
  unfold Block.resetFunction
  refine ⟨hj, rfl, Option.some_ne_none _, rfl, fun k hk hex => ?_, fun x hx => ?_⟩
  · obtain ⟨p, -, rfl⟩ := List.mem_map.mp hk
    dsimp only at hex ⊢
    split at hex
    · next h => rw [if_pos h]
    · next h => exact absurd hex h
  · obtain ⟨p, -, rfl⟩ := List.mem_map.mp hx
    exact afterFlr_spec ..
/-- An event, the pools and the sources' enable bits keep it. -/
theorem FlrDone.event {b : Block} (h : FlrDone b) (i : Nat) : FlrDone (b.event i) := by
  obtain ⟨hj, ha, hf, hm, hk, hs⟩ := h
  obtain ⟨hflr, hopen⟩ := event_host b i
  obtain ⟨h', l, he, -⟩ := event_eq b i
  refine ⟨?_, ?_, hflr ▸ hf, hopen.trans hm, ?_, ?_⟩ <;> rw [he]
  · exact hj
  · exact ha
  · exact hk
  · exact hs
theorem FlrDone.refill {b : Block} (h : FlrDone b) : FlrDone b.refill := by
  obtain ⟨ws, qs, he⟩ := refill_eq b
  rw [he]
  exact h
theorem FlrDone.followEnables {b : Block} (h : FlrDone b) : FlrDone b.followEnables := by
  have hs := sameButRng_followEnables h.1
  unfold SameButRng at hs
  rw [← hs] at h
  exact h

/-- A device comes out of standby: its memories and PLLs run. -/
def Block.leaveStandby (b : Block) : Block :=
  { b with pwr := { b.pwr with dev := .idle }, ddr := { b.ddr with selfRefresh := false },
           quads := b.quads.map (fun (p : Nat × Quad) => (p.1, { p.2 with pllRun := true })) }
theorem FlrDone.leaveStandby {b : Block} (h : FlrDone b) : FlrDone b.leaveStandby := h
/-- Behind an FLR the pools are kept, and a device in standby comes out of it. -/
def Block.flrWakes (b : Block) : Block := if b.pwr.dev ≠ .standby then b.refill else b.leaveStandby.followEnables.refill
theorem FlrDone.flrWakes {b : Block} (h : FlrDone b) : FlrDone b.flrWakes := by
  unfold Block.flrWakes
  split
  · exact h.refill
  · exact h.leaveStandby.followEnables.refill

/-! ### The ready indication, the journal and JTAG -/

/-- A draw of the device's own changes the entropy units alone. -/
theorem sameButRng_drawDevice {b c : Block} {n : Nat} {x : Bytes} (h : b.drawDevice n = some (x, c)) : SameButRng b c := by
  unfold Block.drawDevice at h
  split at h
  · obtain ⟨-, rfl⟩ := Prod.mk.inj (Option.some.inj h)
    exact sameButRng_seedDraw ..
  · exact nomatch h

/-- The seed of the Lid's LFSR, where a seeder delivers. -/
def Block.seedLid (b : Block) : Block :=
  match b.drawDevice 8 with
  | some (d, c) => { c with bat := { c.bat with lfsr := BitVec.ofNat 64 (ofLe d) } }
  | none => b
/-- It leaves the boot record and the power controller. -/
theorem seedLid_keeps (b : Block) : b.seedLid.boot = b.boot ∧ b.seedLid.pwr = b.pwr := by
  unfold Block.seedLid
  split
  · next d c h =>
    have hs := sameButRng_drawDevice h
    unfold SameButRng at hs
    rw [← hs]
    exact ⟨rfl, rfl⟩
  · exact ⟨rfl, rfl⟩

/-! ### Power -/

section
variable {s : State} {f : BootFacts}

/-- The start of a device without power: the root key and pending steps are seen to before the core domain starts. -/
theorem powerUp_spec {b : Block} (hb : s.toBlock = b) (h : b.boot.aonUp = false) :
    let b₁ := { b with boot := { b.boot with aonUp := true }, tam := { b.tam with log := copiedLog b.bat.log } }
    let b₂ := (b₁.checkRoot f).writePending f.otpOk
    let b₃ := if b₂.bat.otpPending = 0 then b₂ else b₂.sweepEnd
    let b₄ := { b₃ with wales := (List.range 64).map (fun i => (i, { ({} : Wale) with age := (Tab.get {} b₃.flash.ages i : Ageing) })) }
    (b₃.flt.sealed = true ∨ b₃.flt.sealing = true → exec (.powerUp f) s = .next (s.to b₃)) ∧
    (b₃.flt.sealed = false → b₃.flt.sealing = false →
      exec (.powerUp f) s = .next (s.to ({ b₄.coreReset with now := 0, wrapped := false }.startCore f true))) := by
  subst hb
  intro b₁ b₂ b₃ b₄
  have hgo : ¬ s.toBlock.boot.aonUp = true := Bool.eq_false_iff.mp h
  exact ⟨fun h => done_to ((if_neg hgo).trans (if_pos ((Bool.or_eq_true ..).mpr h))), fun h1 h2 => done_to ((if_neg hgo).trans (if_neg (by rw [h1, h2]; decide)))⟩

/-- PERST_N between the core release and the ready indication: the steps that go before a reset, and the start is interrupted unless they seal the
device. -/
theorem perstN_starting {b : Block} (hb : s.toBlock = b) (h1 : b.flt.sealed = false) (h2 : b.boot.coreUp = true) (h3 : b.boot.ready = false) :
    ((b.beforeReset true).flt.sealed = true → exec (.perstN f) s = .next (s.to { b.beforeReset true with host := { perst := true } })) ∧
    ((b.beforeReset true).flt.sealed = false →
      let r := (b.beforeReset true).coreReset
      exec (.perstN f) s = .next (s.to { r with
        boot := { r.boot with interrupted := true }, host := { r.host with perst := true, configured := false } })) := by
  subst hb
  refine ⟨fun h4 => ?_, fun h4 => ?_⟩
  all_goals
    refine done_to ((if_neg (Bool.eq_false_iff.mp h1)).trans ((if_pos (by rw [h2, h3]; decide)).trans ?_))
    generalize s.toBlock.beforeReset true = b at h4 ⊢
    dsimp only
    generalize b.coreReset = r
    rw [h4]
    rfl
/-- At any other time it is a full device reset. -/
theorem perstN_full (h1 : s.toBlock.flt.sealed = false) (h2 : s.toBlock.boot.coreUp = false ∨ s.toBlock.boot.ready = true) :
    let r := s.toBlock.fullReset f true
    exec (.perstN f) s = .next (s.to { r with host := { r.host with perst := true, configured := false } }) := by
  refine done_to ((if_neg (Bool.eq_false_iff.mp h1)).trans (if_neg fun h => ?_))
  rw [Bool.and_eq_true, Bool.not_eq_true'] at h
  exact h2.elim (fun k => nomatch h.1.symm.trans k) fun k => nomatch h.2.symm.trans k
/-- The release of PERST_N starts an interrupted device that may start. -/
theorem perstNRelease_spec :
    let b := s.toBlock
    let b₁ := { b with host := { b.host with perst := false, configured := b.host.perst || b.host.configured } }
    (b.boot.interrupted = false → exec (.perstNRelease f) s = .next (s.to b₁)) ∧
    (b.boot.interrupted = true → b.boot.pwrOk = true → b.flt.sealed = false → b.boot.jtagHeld = false →
      exec (.perstNRelease f) s = .next (s.to ((b₁.checkRoot f).startCore f false))) ∧
    (b.boot.pwrOk = false ∨ b.flt.sealed = true ∨ b.boot.jtagHeld = true →
      exec (.perstNRelease f) s = .next (s.to { b₁ with boot := { b₁.boot with interrupted := false } })) := by
  intro b b₁
  have hgo : (b₁.boot.interrupted && b₁.boot.pwrOk && !b₁.flt.sealed && !b₁.boot.jtagHeld) = true ↔
      b.boot.interrupted = true ∧ b.boot.pwrOk = true ∧ b.flt.sealed = false ∧ b.boot.jtagHeld = false := by
    simp only [Bool.and_eq_true, Bool.not_eq_true', and_assoc]
    rfl
  refine ⟨fun h => done_to ((if_neg fun k => ?_).trans (boot_eta ?_)), fun h1 h2 h3 h4 => done_to (if_pos (hgo.mpr ⟨h1, h2, h3, h4⟩)),
    fun h => done_to (if_neg fun k => ?_)⟩
  · exact nomatch h.symm.trans (hgo.mp k).1
  · rw [← h]
  · obtain ⟨-, h2, h3, h4⟩ := hgo.mp k
    obtain h | h | h := h
    · exact nomatch h.symm.trans h2
    · exact nomatch h3.symm.trans h
    · exact nomatch h4.symm.trans h

/-- The power of the core domain falls: its step not yet written is pending, and it is held in reset. -/
theorem pwrOkFall_reset {b : Block} (hb : s.toBlock = b) (h1 : b.boot.pwrOk = true) (h2 : b.flt.sealed = false) :
    let b' := { b with bat := { b.bat with otpPending := b.bat.otpPending + b.otp.stepDue }, otp := { b.otp with stepDue := 0, tries := 0 } }
    (b.flt.sealing = true → exec .pwrOkFall s = .next (s.to { b'.seal with boot := { b'.seal.boot with pwrOk := false } })) ∧
    (b.flt.sealing = false → exec .pwrOkFall s = .next (s.to { b'.coreReset with
      boot := { b'.coreReset.boot with pwrOk := false }, tam := { b'.coreReset.tam with disarmed := true } })) := by
  subst hb
  intro b'
  have hup : ¬ (!s.toBlock.boot.pwrOk) = true := by
    rw [h1]
    decide
  exact ⟨fun h => done_to ((if_neg hup).trans ((if_neg (Bool.eq_false_iff.mp h2)).trans (if_pos h))),
    fun h => done_to ((if_neg hup).trans ((if_neg (Bool.eq_false_iff.mp h2)).trans (if_neg (Bool.eq_false_iff.mp h))))⟩
/-- It comes back: as at a power-up, but that the windows of the fault collector go on. -/
theorem pwrOkRise_start {b : Block} (hb : s.toBlock = b) (h1 : b.boot.aonUp = true) (h2 : b.boot.pwrOk = false) (h3 : b.flt.sealed = false)
    (h4 : b.boot.jtagHeld = false) :
    let b₂ := (b.checkRoot f).writePending f.otpOk
    let b₃ := if b₂.bat.otpPending = 0 then b₂ else b₂.sweepEnd
    let c := b₃.coreReset
    (b₃.flt.sealed = true ∨ b₃.flt.sealing = true → exec (.pwrOkRise f) s = .next (s.to b₃)) ∧
    (b₃.flt.sealed = false → b₃.flt.sealing = false → exec (.pwrOkRise f) s = .next (s.to ({ c with
      now := 0, wrapped := false,
      flt := { c.flt with
        counted := c.flt.counted.map (fun (x : W16 × Byte × W64) => (x.1, x.2.1, x.2.2 - c.now)),
        kept := c.flt.kept.map (fun (x : W16 × Byte × W64) => (x.1, x.2.1, x.2.2 - c.now)) },
      wales := c.wales.map (fun (p : Nat × Wale) => (p.1, { p.2 with csb := 0x01803000, csbShadow := ~~~0x01803000 })) }.startCore f false))) := by
  subst hb
  intro b₂ b₃ c
  have hoff : ¬ (!s.toBlock.boot.aonUp || s.toBlock.boot.pwrOk) = true := by
    rw [h1, h2]
    decide
  have hfree : ¬ (s.toBlock.flt.sealed || s.toBlock.boot.jtagHeld) = true := by
    rw [h3, h4]
    decide
  exact ⟨fun h => done_to ((if_neg hoff).trans ((if_neg hfree).trans (if_pos ((Bool.or_eq_true ..).mpr h)))),
    fun k1 k2 => done_to ((if_neg hoff).trans ((if_neg hfree).trans (if_neg (by rw [k1, k2]; decide))))⟩
end

/-! ### Starts that fail and starts that succeed -/

/-- What the watchdog makes of a trial boot: one that was pending has failed. -/
def Trial.failed : Trial → Trial
  | .pending _ => .pending 0
  | t => t
/-- The boot record with its trial failed. -/
def Block.failTrial (b : Block) : Block := { b with boot := { b.boot with trial := b.boot.trial.failed } }
/-- A trial that was not pending stays. -/
theorem failTrial_of_not_pending {b : Block} (h : b.boot.trial = .none ∨ b.boot.trial = .pendingCommit) : b.failTrial = b := by
  have hsame : b.boot.trial.failed = b.boot.trial := by
    obtain h | h := h <;>
    · rw [h]
      rfl
  exact boot_eta (by rw [hsame])
/-- The watchdog resets a device that has not started within 2 s. -/
theorem bootWatchdog_run {s : State} {f : BootFacts} (h1 : s.toBlock.boot.coreUp = true) (h2 : s.toBlock.boot.ready = false)
    (h3 : s.toBlock.boot.recovery = false) :
    exec (.bootWatchdog f) s = .next (s.to ((s.toBlock.advanceTo s.toBlock.boot.releasedAt 2000000000).failTrial.fullReset f false)) :=
  done_to (if_neg (by rw [h1, h2, h3]; decide))

/-- The journal read back: an older epoch or an unreadable journal leaves the store ZEROISED with a note. -/
theorem journalReadEnd_spec {s : State} {epoch : W64} {ok : Bool} (h1 : s.toBlock.kst.st = .locked) (h2 : s.toBlock.boot.rimUp = true)
    (h3 : s.toBlock.boot.ready = false) (h4 : s.toBlock.otp.lifecycle = .provisioned ∨ s.toBlock.otp.lifecycle = .deployed) :
    let b := s.toBlock
    let empty : Block := { b with
      kst := { b.kst with st := .zeroised, keys := tombstones b.kst.keys, policy := 0x17F, shadow := ~~~0x17F }, bat := { b.bat with zeroised := true } }
    (b.bat.zeroised = true → exec (.journalReadEnd epoch ok) s = .next (s.to { empty with kst := { empty.kst with rootDue := true }, flash := b.flash.eraseJournal }.rootIfDue)) ∧
    (b.bat.zeroised = false → b.bat.rootKey = none → exec (.journalReadEnd epoch ok) s = .next (s.to empty)) ∧
    (b.bat.zeroised = false → b.bat.rootKey ≠ none → ok = false ∨ (b.flash.written = true ∧ epoch.toNat ≠ b.counter 0) →
      exec (.journalReadEnd epoch ok) s = .next (s.to (empty.note (Src.device 2 0) 0x11 2 (openDetail 0x11)))) ∧
    (b.bat.zeroised = false → b.bat.rootKey ≠ none → ok = true → b.flash.written = false ∨ epoch.toNat = b.counter 0 →
      let b' := ((b.slices.map (fun p => Change.slice (Fin.ofNat 1024 p.1))).foldl Block.change b.restoreStore).followEnables
      (b'.kst.policy = b.kst.policy → b'.tam.policy = b.tam.policy → b'.wty.fzPolicy = b.wty.fzPolicy →
        exec (.journalReadEnd epoch ok) s = .next (s.to b')) ∧
      (b'.kst.policy ≠ b.kst.policy ∨ b'.tam.policy ≠ b.tam.policy ∨ b'.wty.fzPolicy ≠ b.wty.fzPolicy →
        exec (.journalReadEnd epoch ok) s = .next (s.to b'.measurePolicies))) := by
  intro b empty
  have hgo : ¬ (b.kst.st != .locked || !b.boot.rimUp || b.boot.ready || (b.otp.lifecycle != .provisioned && b.otp.lifecycle != .deployed)) = true := by
    rw [h1, h2, h3]
    obtain h | h := h4 <;>
    · rw [h]
      decide
  have hread : (ok && (!b.flash.written || epoch.toNat == b.counter 0)) = true ↔ ok = true ∧ (b.flash.written = false ∨ epoch.toNat = b.counter 0) := by
    rw [Bool.and_eq_true, Bool.or_eq_true, Bool.not_eq_true', beq_iff_eq]
  have hroot (h : b.bat.rootKey ≠ none) : ¬ b.bat.rootKey.isNone = true := fun k => h (Option.isNone_iff_eq_none.mp k)
  refine ⟨fun h => done_to ((if_neg hgo).trans (if_pos h)),
    fun h hk => done_to ((if_neg hgo).trans ((if_neg (Bool.eq_false_iff.mp h)).trans (if_pos (Option.isNone_iff_eq_none.mpr hk)))),
    fun h hk hbad => done_to ((if_neg hgo).trans ((if_neg (Bool.eq_false_iff.mp h)).trans ((if_neg (hroot hk)).trans (if_neg fun hok => ?_)))),
    fun h hk hok he => ?_⟩
  · obtain ⟨k, he⟩ := hread.mp hok
    obtain hno | ⟨hw, hne⟩ := hbad
    · exact nomatch hno.symm.trans k
    · exact he.elim (fun h => nomatch h.symm.trans hw) hne
  · have hrun : exec (.journalReadEnd epoch ok) s = done (
        let b' := ((b.slices.map (fun p => Change.slice (Fin.ofNat 1024 p.1))).foldl Block.change b.restoreStore).followEnables
        if b'.kst.policy = b.kst.policy ∧ b'.tam.policy = b.tam.policy ∧ b'.wty.fzPolicy = b.wty.fzPolicy then b' else b'.measurePolicies) s :=
      congrArg (done · s) ((if_neg hgo).trans ((if_neg (Bool.eq_false_iff.mp h)).trans ((if_neg (hroot hk)).trans (if_pos (hread.mpr ⟨hok, he⟩)))))
    refine ⟨fun k1 k2 k3 => hrun.trans (done_to (if_pos ⟨k1, k2, k3⟩)), fun k => hrun.trans (done_to (if_neg fun hall => ?_))⟩
    obtain ⟨k1, k2, k3⟩ := hall
    exact k.elim (· k1) fun k => k.elim (· k2) (· k3)

/-- The ready indication where the conditions of R377 hold. -/
theorem readyIndication_met {s : State} (h1 : s.toBlock.boot.rimUp = true) (h2 : s.toBlock.boot.ready = false) (hm : s.toBlock.evaluate.startMet = true) :
    ∃ b' : Block, exec .readyIndication s = .next (s.to b'.refill) ∧ b'.boot.ready = true ∧ b'.pwr.dev = .idle ∧
      ((∃ n, s.toBlock.evaluate.boot.trial = .pending n) → b'.boot.trial = .pendingCommit) := by
  have hgo : ¬ (!s.toBlock.boot.rimUp || s.toBlock.boot.ready) = true := by
    rw [h1, h2]
    decide
  have hmet : ¬ (!s.toBlock.evaluate.startMet) = true := by
    rw [hm]
    decide
  refine ⟨_, done_to ((if_neg hgo).trans ((if_neg hmet).trans (congrArg Block.refill (Eq.refl (Block.seedLid _))))), ?_, ?_, ?_⟩
  · rw [(seedLid_keeps _).1]
    rfl
  · rw [(seedLid_keeps _).2]
  · rintro ⟨n, hn⟩
    rw [(seedLid_keeps _).1]
    dsimp only [Block.modBoot]
    rw [hn]

/-! ### FLR and Rim restart, JTAG -/

/-- An FLR without a WEDGED slice. -/
theorem flr_spec {s : State} {f : BootFacts} (h1 : s.toBlock.boot.coreUp = true) (h2 : s.toBlock.flt.sealed = false) (h3 : ∀ x ∈ s.toBlock.slices, x.2.st ≠ .wedged) :
    ∃ b, exec (.flr f) s = .next (s.to b) ∧ FlrDone b := by
  have hgo : ¬ (!s.toBlock.boot.coreUp || s.toBlock.flt.sealed) = true := by
    rw [h1, h2]
    decide
  have hw : ¬ s.toBlock.slices.any (fun p => p.2.st == .wedged) = true := fun h => by
    obtain ⟨x, hx, hst⟩ := List.any_eq_true.mp h
    exact h3 x hx (beq_iff_eq.mp hst)
  refine ⟨(if s.toBlock.slices.any (fun p => p.2.flrMoves) then s.toBlock.dropJobs.resetFunction.event 4 else s.toBlock.dropJobs.resetFunction).flrWakes,
    done_to ((if_neg hgo).trans (if_neg hw)), FlrDone.flrWakes ?_⟩
  have hreset := flrDone_resetFunction (b := s.toBlock.dropJobs) rfl
  split
  · exact hreset.event 4
  · exact hreset

/-- The Rim restarts, unless its digest fails or it has restarted three times within ten minutes: then the device does. -/
theorem rimRestart_spec {s : State} {f : BootFacts} {ok : Bool} (h1 : s.toBlock.boot.coreUp = true) (h2 : s.toBlock.boot.recovery = false)
    (h3 : s.toBlock.flt.sealed = false) :
    let b₁ := s.toBlock.rimStops
    let l := b₁.now :: b₁.boot.restarts.filter (fun t => decide (b₁.elapsed t ≤ 600000000000))
    let b₂ : Block := { b₁ with boot := { b₁.boot with restarts := l } }
    (ok = false ∨ 3 ≤ l.length → exec (.rimRestart ok f) s = .next (s.to (b₂.fullReset f true))) ∧
    (ok = true → l.length < 3 → exec (.rimRestart ok f) s = .next (s.to { b₂ with boot := { b₂.boot with rimUp := true } })) := by
  intro b₁ l b₂
  have hgo : ¬ (!s.toBlock.boot.coreUp || s.toBlock.boot.recovery || s.toBlock.flt.sealed) = true := by
    rw [h1, h2, h3]
    decide
  refine ⟨fun h => done_to ((if_neg hgo).trans (if_pos (h.imp_left (congrArg not)))), fun hok hl => done_to ((if_neg hgo).trans (if_neg fun h => ?_))⟩
  obtain h | h := h
  · rw [hok] at h
    exact nomatch h
  · exact Nat.not_le.mpr hl h

/-- EXTEST and HIGHZ hold the core domain in reset behind the steps that go before one, in PROVISIONED and DEPLOYED. -/
theorem jtagHold_owned {b : Block} (ir : JtagIr) (h : b.otp.lifecycle = .provisioned ∨ b.otp.lifecycle = .deployed) (hs : b.flt.sealed = false) :
    (b.boot.coreUp = false → b.jtagHold ir = { b with boot := { b.boot with jtagIr := ir, jtagHeld := true } }) ∧
    (b.boot.coreUp = true → (b.beforeReset true).flt.sealed = true →
      b.jtagHold ir = { b.beforeReset true with boot := { (b.beforeReset true).boot with jtagIr := ir } }) ∧
    (b.boot.coreUp = true → (b.beforeReset true).flt.sealed = false →
      let b' := (b.beforeReset true).coreReset
      b.jtagHold ir = { b' with boot := { b'.boot with jtagIr := ir, jtagHeld := true } }) := by
  have hl : ¬ (b.otp.lifecycle ≠ .provisioned ∧ b.otp.lifecycle ≠ .deployed) := fun k => h.elim k.1 k.2
  have hs' := Bool.eq_false_iff.mp hs
  unfold Block.jtagHold
  rw [if_neg hl, if_neg hs']
  refine ⟨fun h1 => if_pos (congrArg not h1), fun h1 h2 => (if_neg (by rw [h1]; decide)).trans (if_pos h2), fun h1 h2 => (if_neg (by rw [h1]; decide)).trans ?_⟩
  dsimp only
  rw [if_neg (Bool.eq_false_iff.mp h2)]
  rfl
/-- In any other lifecycle, and on a sealed device, they are instructions like the others. -/
theorem jtagHold_free {b : Block} (ir : JtagIr) (h : (b.otp.lifecycle ≠ .provisioned ∧ b.otp.lifecycle ≠ .deployed) ∨ b.flt.sealed = true) :
    b.jtagHold ir = { b with boot := { b.boot with jtagIr := ir } } := by
  unfold Block.jtagHold
  by_cases hl : b.otp.lifecycle ≠ .provisioned ∧ b.otp.lifecycle ≠ .deployed
  · exact if_pos hl
  · exact (if_neg hl).trans (if_pos (h.resolve_left hl))

/-- Settles O58: each event by the state of the device, a reset as the steps that go before it and the start behind it. -/
theorem startsAndResets : Obligations.StartsAndResets := by
  refine ⟨fun s f c epoch ok => ?_, fun s f c ir hc => ?_⟩
  · intro b reset
    refine ⟨fun h => done_same (if_pos h), fun h => ?_, fun h k => fullReset_none f k h, fun h1 h2 h3 h4 k h5 => fullReset_run f k h1 h2 h3 h4 h5, rfl,
      fun h => done_to (if_pos h), fun h1 h2 => perstN_full h1 h2, fun h1 h2 h3 => (perstN_starting (b := b) rfl h1 h2 h3).1,
      fun h1 h2 h3 => (perstN_starting (b := b) rfl h1 h2 h3).2, perstNRelease_spec,
      fun h => done_same (if_pos ?_), fun h1 h2 h3 => ?_, fun h => done_same (if_pos (congrArg not h)),
      fun h1 h2 => done_to ((if_neg (by rw [h1]; decide)).trans (if_pos h2)), fun h1 h2 => pwrOkFall_reset (b := b) rfl h1 h2, fun h => done_same (if_pos ?_),
      fun h1 h2 h3 => done_to ((if_neg ?_).trans (if_pos ?_)), fun h1 h2 h3 h4 => pwrOkRise_start (b := b) rfl h1 h2 h3 h4, ?_⟩
    · intro b₁ b₂ b₃ b₄
      obtain ⟨hstays, hstarts⟩ := powerUp_spec (s := s) (f := f) (b := b) rfl h
      exact ⟨checkRoot_same (b := b₁), hstays, hstarts⟩
    · exact or3_true (h.imp_left (congrArg not))
    · intro b₁
      have hrun := bootWatchdog_run (f := f) h1 h2 h3
      have htrial : b₁.boot.trial = b.boot.trial := congrArg Boot.trial (boot_advanceTo ..)
      refine ⟨fun h => next_to hrun (congrArg (Block.fullReset · f false) (failTrial_of_not_pending (htrial.symm ▸ h))),
        fun n h => next_to hrun (congrArg (Block.fullReset · f false) ?_)⟩
      have hfailed : b₁.boot.trial.failed = .pending 0 := by
        rw [htrial, h]
        rfl
      exact congrArg (fun x => { b₁ with boot := { b₁.boot with trial := x } }) hfailed
    · exact (Bool.or_eq_true ..).mpr (h.imp_left (congrArg not))
    · rw [h1, h2]
      decide
    · exact (Bool.or_eq_true ..).mpr h3
    · refine ⟨fun h => done_same (if_pos ?_), fun h1 h2 h3 => ?_, fun h => done_same (if_pos ?_), fun h1 h2 h3 h4 => journalReadEnd_spec h1 h2 h3 h4,
        fun h => done_same (if_pos ?_), fun h1 h2 => ⟨fun hm => ?_, readyIndication_met h1 h2⟩, fun h => done_same (if_pos ?_),
        fun h1 h2 h3 => done_to ((if_neg ?_).trans (if_pos ?_)), fun h1 h2 h3 => ?_, fun h => done_same ?_, fun u h => ?_,
        fun h => done_same (if_pos ?_), fun h1 h2 h3 => rimRestart_spec h1 h2 h3⟩
      · exact or3_true (h.imp (congrArg not) (Or.imp_left beq_iff_eq.mpr))
      · have hgo := or3_not (congrArg not h1) (beq_eq_false_iff_ne.mpr h2) h3
        exact ⟨done_to ((if_neg hgo).trans (if_pos rfl)), done_to ((if_neg hgo).trans (if_neg (by decide)))⟩
      · simp only [Bool.or_eq_true, bne_iff_ne, Bool.not_eq_true', Bool.and_eq_true, or_assoc]
        exact h
      · exact (Bool.or_eq_true ..).mpr (h.imp_left (congrArg not))
      · exact done_to ((if_neg (by rw [h1, h2]; decide)).trans (if_pos (congrArg not hm)))
      · exact (Bool.or_eq_true ..).mpr (h.imp_left (congrArg not))
      · rw [h1, h2]
        decide
      · obtain ⟨x, hx, hw⟩ := h3
        exact List.any_eq_true.mpr ⟨x, hx, beq_iff_eq.mpr hw⟩
      · obtain ⟨b', hrun, hdone⟩ := flr_spec (f := f) h1 h2 h3
        exact ⟨_, hrun, rfl, fun _ => hdone⟩
      · rw [show s.toBlock.host.flrAt = none from h]
      · have hbusy : ((List.range 64).any (fun i => (b.wale i).st == .wiping) || (List.range 32).any (fun c => (b.chan c).xfer.isSome)) = true ↔
            (∃ i < 64, (b.wale i).st = .wiping) ∨ (∃ k < 32, (b.chan k).xfer ≠ none) := by
          simp only [Bool.or_eq_true, List.any_eq_true, List.mem_range, beq_iff_eq, Option.isSome_iff_ne_none]
        refine ⟨fun hw => done_to ?_, fun h1 h2 => done_to ?_⟩
        · rw [show s.toBlock.host.flrAt = some u from h]
          exact if_pos (hbusy.mpr hw)
        · rw [show s.toBlock.host.flrAt = some u from h]
          refine if_neg fun hw => ?_
          obtain ⟨i, hi, hw⟩ | ⟨k, hk, hx⟩ := hbusy.mp hw
          · exact h1 i hi hw
          · exact hx (h2 k hk)
      · exact or3_true (h.imp_left (congrArg not))
  · intro b sets
    have hhold : exec c s = .next (s.to (b.jtagHold ir)) := by
      simp only [List.mem_cons, Prod.mk.injEq, List.not_mem_nil, or_false] at hc
      obtain ⟨rfl, rfl⟩ | ⟨rfl, rfl⟩ := hc <;> rfl
    have hrelease : (b.boot.jtagHeld && b.boot.pwrOk && b.boot.aonUp && !b.flt.sealed && !b.boot.interrupted) = true ↔
        b.boot.jtagHeld = true ∧ b.boot.pwrOk = true ∧ b.boot.aonUp = true ∧ b.flt.sealed = false ∧ b.boot.interrupted = false := by
      simp only [Bool.and_eq_true, Bool.not_eq_true', and_assoc]
    refine ⟨rfl, rfl, rfl, fun h => next_to hhold (jtagHold_free ir h), fun h h1 hs => next_to hhold ((jtagHold_owned ir h hs).1 h1),
      fun h h1 hs h2 => next_to hhold ((jtagHold_owned ir h hs).2.1 h1 h2), fun h h1 hs h2 => next_to hhold ((jtagHold_owned ir h hs).2.2 h1 h2),
      fun h => done_to (if_neg fun k => ?_), fun h1 h2 h3 h4 h5 => done_to (if_pos (hrelease.mpr ⟨h1, h2, h3, h4, h5⟩))⟩
    obtain ⟨k1, k2, k3, k4, k5⟩ := hrelease.mp k
    obtain h | h | h | h | h := h
    · exact nomatch h.symm.trans k1
    · exact nomatch h.symm.trans k2
    · exact nomatch h.symm.trans k3
    · exact nomatch k4.symm.trans h
    · exact nomatch k5.symm.trans h

end Sys2Proof.Machine
